-- ==== Sys2Proof/Word.lean ====
section
/-! DEFINITION. The word types of the model: bytes, flits and the plain widths the spec counts in bits. -/

namespace Sys2Proof

/-- One byte, the smallest unit of the wire formats and of fabric memory. -/
abbrev Byte := BitVec 8

/-- A 64-byte flit, store word or vector register: byte k is bits [8k+7:8k] (02 R17, 07 R164, 08 R189). -/
abbrev Flit := BitVec 512

/-- A 64-bit word: a scalar register, a special register, a wide configuration register. -/
abbrev Word := BitVec 64

end Sys2Proof
end

