-- ==== Sys2Proof/Syntax.lean ====
section
/-! DEFINITION. The commands of the module: one constructor of `Instr` for each row of spec/opcode_table.json, with the
operands a row takes from outside the block (received data, measurements, the outcome of a physical event, a choice the
spec leaves to the implementation). Data the block itself holds (a waiting packet, a mailbox's request) is no operand. -/

namespace Sys2Proof

/-- The outcome of one read of an ECC-protected word: a physical event, so an operand. `mis` is the miscorrection that
07 R174 and 10 R239 allow beyond the code's guarantee: the wrong data is returned and a correction is recorded. -/
inductive Ecc where
  | clean
  | ce (sym : Nat)
  | ue
  | mis (data : Flit)
deriving DecidableEq, Repr

/-- One read of a cell of a cell store, or one flit on a die-to-die path (`path`): a physical event, so an operand. The free list
places a cell in bank `bank` of its store, counted from the store's first, at row `row` (07 R163, R174). -/
structure CellRead where
  ecc : Ecc := .clean
  bank : Nat := 0
  row : Nat := 0
  path : Bool := false
deriving DecidableEq, Repr

/-- The decode result of one RS(544,514) codeword (11 R266): symbols corrected on each lane, or uncorrectable. -/
inductive Codeword where
  | corrected (l0 l1 l2 l3 : Nat)
  | uncorrectable
deriving DecidableEq, Repr

/-- A 72-byte slot (02 R17, R18): the 64-bit sideband and the 64 flit bytes. -/
structure Slot where
  side : BitVec 64
  flit : Flit
deriving DecidableEq, Repr

/-- A packet (02 R45): its header flit, its payload flits, its E2E_CRC. -/
structure Packet where
  hdr : Flit
  pay : List Flit
  crc : BitVec 32
deriving DecidableEq, Repr

/-- A flow's identity (03 R58, R77): both ends with their kinds, class and plane; `cast` is 0 for a unicast flow, 1 for a
row cast flow, 2 for a column cast flow. -/
structure FlowId where
  src : Nat
  dst : Nat
  smod : Bool
  dmod : Bool
  tc : Nat
  plane : Bool
  cast : Nat
deriving DecidableEq, Repr

/-- The arbiters of promotion (04 R99). -/
inductive Arbiter where
  | sharedCell (quad : Nat)
  | memScrub (ch : Nat) (e : Ecc)
  | mramPort (ok0 ok1 : Bool)
  | selftest (pass : Bool)
  | dealer (quad : Nat)
deriving DecidableEq, Repr

/-- One context of one reduction core (08 R184). -/
structure CtxId where
  core : Nat
  ctx : Nat
deriving DecidableEq, Repr

/-- A mailbox of one of the four sets (13 R315). -/
inductive MbxSet where
  | host | mgmt | mctp | peer
deriving DecidableEq, Repr

structure MbxRef where
  set : MbxSet
  idx : Nat
deriving DecidableEq, Repr

/-- The roles of 13 R315. -/
inductive Role where
  | host | rm | runtime | peer
deriving DecidableEq, Repr

/-- A request as 13 R310 lays it out: header fields and payload bytes. -/
structure Request where
  opcode : Nat
  verMaj : Nat
  verMin : Nat
  token : Nat
  payload : List Byte
deriving DecidableEq, Repr

/-- What an Ethernet port receives (12 R290, R293, R294): the frame's kind, addresses and UDP content. -/
inductive FrameKind where
  | arp | neighbour | icmp | icmp6 | ptp | pfc | udp | other
deriving DecidableEq, Repr

structure Frame where
  kind : FrameKind
  vlan : Nat
  prio : Nat
  dstMac : Nat
  srcIp : Nat
  dstIp : Nat
  ipVer : Nat
  dscp : Nat
  ttl : Nat
  srcPort : Nat
  dstPort : Nat
  csum : Nat
  csumOk : Bool
  bytes : List Byte
deriving DecidableEq, Repr

/-- A PCIe DMA descriptor read from host memory (12 R300). -/
structure HostDesc where
  haddr : Nat
  faddr : Nat
  bytes : Nat
  own : Bool
  dir : Bool
  irq : Bool
deriving DecidableEq, Repr

/-- How a PCIe function reset came (12 R300, 13 R314). -/
inductive PcieReset where
  | flr | hotReset | linkDown
deriving DecidableEq, Repr

/-- What a helper module tells the home of a two-stage binding (05 R116; 07 R183) and what it answers to a binding (05 R103):
a failed check, the ranks whose shares of a chunk have arrived, arithmetic flags and dropped tokens, its reservation lost, the
status of the binding asked of it; and what a module answers of the program in a slot that an OUT PEER channel names (08 R210). The
spec names the reports and gives them no packet, so each is an operand of COLL_CTRL_RECEIVE. [DESIGN CHOICE log 48] -/
inductive HelperMsg where
  | failed (status nrank bitmap chunk : Nat)
  | arrived (chunk : Nat) (ranks : List Nat)
  | flags (bits dropped : Nat)
  | lost
  | bound (status : Nat)
  | peer (status : Nat)
deriving DecidableEq, Repr

/-- A helper's report: the module that sends it, the slot and step it concerns. -/
structure HelperReport where
  module : Nat
  slot : Nat
  step : Nat
  msg : HelperMsg
deriving DecidableEq, Repr

/-- A unit that a fence takes out of service (14 R352). -/
inductive FenceUnit where
  | link (module port : Nat)
  | port (port : Nat)
  | endpoint (ep : Nat)
  | module (id : Nat)
deriving DecidableEq, Repr

/-- The outcomes of the roll call (14 R341). -/
inductive Outcome341 where
  | expected | missing | failed | wrongPort | unexpected | planMismatch | unusedPeer | idConflict
deriving DecidableEq, Repr

/-- What an agent measures and reports as SENSOR (14 R337, 15 R373 to R381). -/
inductive SensorReport where
  | flow (lpm : Nat) (powerW : Nat) (deltaK : Nat)
  | flowRepaired
  | pump (working : Nat)
  | shelves (working : Nat) (loadW : Nat)
  | leakTray (tray : Nat)
  | ropeFaulted (tray rope : Nat)
  | ropeGood (tray rope : Nat)
  | coolantPair (tray a b : Nat)
deriving DecidableEq, Repr

/-- A group definition relative to a slice (05 R107). -/
structure GroupDef where
  group : Nat
  slice : Nat
  axis : Nat
  rowOff : Nat
  rowExt : Nat
  rowStride : Nat
  colOff : Nat
  colExt : Nat
  colStride : Nat
deriving DecidableEq, Repr

/-- The body of a DRP COMMAND (14 R337, 15 R370). `ask` marks a GROUP delete that only asks whether an instance lives. [DESIGN CHOICE log 113] -/
inductive CmdBody where
  | fence (u : FenceUnit)
  | fenceRelease (u : FenceUnit)
  | powerCap (w source expiry survival : Nat)
  | powerDomain (on : Bool)
  | powerClearCut
  | tableWrite (table first : Nat) (entries : List Nat)
  | tableSwitch (gen time : Nat)
  | ingressHold (ports : Nat) (set : Bool)
  | sliceRelease (slice : Nat)
  | groupDefine (g : GroupDef) (r0 c0 h w : Nat)
  | groupDelete (g : Nat) (ask : Bool)
  | groupReform (g : Nat) (gepoch : Nat) (vacant : List Nat)
  | plan (image : List Byte)
  | stage (code : Nat)
  | instanceEnd (home slot group : Nat) (step : Option Nat) (status : Nat)
  | probe (ep : Nat)
  | region (index : Nat) (base size slice mode : Nat)
  | streamCut (slice : Nat)
deriving DecidableEq, Repr

/-- The body of a DRP INPUT report (14 R337). -/
inductive Report where
  | rollcall (module port : Nat) (o : Outcome341) (far : Nat)
  | linkEvent (module port : Nat) (active : Bool)
  | pull (module input : Nat)
  | missingRanks (module slot step : Nat) (ranks : List Nat)
  | binding (module slot group : Nat) (bound : Bool)
  | drainState (module slice replay live streams : Nat)
  | error (module code sev instance_ : Nat)
  | rcsCmd (module : Nat) (mb : MbxRef) (role : Role) (opcode : Nat) (payload : List Byte)
  | result (module dseq status : Nat)
  | sensor (r : SensorReport)
  | probeResult (ep : Nat) (alive : Bool)
  | linkProbeLost (module port : Nat)
  | timer
deriving DecidableEq, Repr

/-- What a DRP message carries: `answer` is the conductor's response to a conductor command that mailbox `mb` forwarded
(13 R317; 14 R336). -/
inductive DrpBody where
  | cmd (b : CmdBody)
  | report (r : Report)
  | answer (mb : MbxRef) (status detail : Nat) (payload : List Byte)
  | empty
deriving DecidableEq, Repr

/-- A DRP message (14 R336): header fields and body. `agent` is the target of a COMMAND or the source of an INPUT. -/
structure DrpMsg where
  dver : Nat
  dclass : Nat
  dtype : Nat
  cterm : Nat
  secondary : Bool
  critical : Bool
  ethernet : Bool
  reassert : Bool
  needsAck : Bool
  seq : Nat
  agent : Nat
  digest : BitVec 128
  rtime : Nat
  body : DrpBody
deriving DecidableEq, Repr

/-- A log entry of the sequencer (14 R338). -/
structure LogEntry where
  index : Nat
  rtime : Nat
  agent : Nat
  aseq : Nat
  report : Report
deriving DecidableEq, Repr

/-- One inventory record (15 R382). -/
structure InvRec where
  cls : Nat
  pos : Nat
  state : Nat
  part : Nat
  serial : Nat
  hours : Nat
  firstSeen : Nat
  removed : Nat
deriving DecidableEq, Repr

/-- The payload a ledger LANE record keeps of one lane (11 R287). -/
structure LaneRec where
  kind : Nat
  hours : Nat
  farDev : Nat
  txPre : Int
  txPost : Int
  ctle : Nat
  dfe : List Int
  eye : Nat
  bringups : Nat
  fails : Nat
deriving DecidableEq, Repr

/-- What the receiver of one lane finds besides the training word (11 R267, R271, R274): marker polarity, skew above
16 ns, whether its adaptation is done, and the coefficient request it chooses to send next. -/
structure TrainSense where
  inverted : Bool
  skewBad : Bool
  adapted : Bool
  reqPre : Nat
  reqPost : Nat
  preset : Nat
  ctle : Nat
  dfe : List Int
deriving DecidableEq, Repr

/-- A staged transfer's kind (13 R321). -/
inductive Staged where
  | plan | program | firmware
deriving DecidableEq, Repr

abbrev Reg5 := BitVec 5

/-- The commands: one constructor per row of spec/opcode_table.json, in the table's order. -/
inductive Instr where
  -- the fabric link and its packets (02), routing and order (03), switch cores (04)
  | slotTransmit (port : Nat) (vc : Option Nat) (crVc : Nat) (read : CellRead)
  | slotReceive (port : Nat) (slot : Slot)
  | retryTimerExpire (port : Nat)
  | codewordReceive (port : Nat) (cw : Codeword)
  | headReceive (port vc : Nat)
  | tailReceive (port vc : Nat) (held : List (Nat × CellRead))
  | escapeMove (port vc : Nat)
  | ackDelayExpire (flow : FlowId)
  | e2eAckReceive
  | gapTimeout (flow : FlowId)
  | e2eNackReceive (reads : List CellRead)
  | flowErrorReceive
  | ackTimeout (flow : FlowId) (reads : List CellRead)
  | endpointStall (ep vc : Nat)
  | tableGenerationSwitch
  | allowanceRecompute (quad : Nat)
  | promotion (arb : Arbiter)
  | memWrReceive (reads : List Ecc)
  | memRdReqReceive
  | memReadComplete (tag : Nat) (reads : List Ecc)
  | memRdRspReceive
  | ctrlReceive (msg : DrpMsg)
  | gatePacketReceive
  | ethFrameReceive (port sub : Nat) (frame : Frame)
  -- collective instances (05, 06, 07)
  | collContribReceive
  | contribDeposit (slot : Nat) (reads : List Ecc)
  | collCtrlReceive (report : Option HelperReport)
  | dealerPlace (quad : Nat) (ckpt : Ecc)
  | chessClockExpire (slot step : Nat)
  | verdictTimeout (slot step : Nat)
  | terminalSend (slot step : Nat)
  | instanceEnded (slot step : Nat)
  -- the Xosolum instruction set (08)
  | add (x : CtxId) (d a b : Reg5)
  | sub (x : CtxId) (d a b : Reg5)
  | and (x : CtxId) (d a b : Reg5)
  | or (x : CtxId) (d a b : Reg5)
  | xor (x : CtxId) (d a b : Reg5)
  | sll (x : CtxId) (d a b : Reg5)
  | srl (x : CtxId) (d a b : Reg5)
  | sra (x : CtxId) (d a b : Reg5)
  | slt (x : CtxId) (d a b : Reg5)
  | sltu (x : CtxId) (d a b : Reg5)
  | min (x : CtxId) (d a b : Reg5)
  | max (x : CtxId) (d a b : Reg5)
  | minu (x : CtxId) (d a b : Reg5)
  | maxu (x : CtxId) (d a b : Reg5)
  | mul (x : CtxId) (d a b : Reg5)
  | mulhu (x : CtxId) (d a b : Reg5)
  | addi (x : CtxId) (d a : Reg5) (imm : BitVec 16)
  | andi (x : CtxId) (d a : Reg5) (imm : BitVec 16)
  | ori (x : CtxId) (d a : Reg5) (imm : BitVec 16)
  | xori (x : CtxId) (d a : Reg5) (imm : BitVec 16)
  | slli (x : CtxId) (d a : Reg5) (sh : BitVec 6)
  | srli (x : CtxId) (d a : Reg5) (sh : BitVec 6)
  | srai (x : CtxId) (d a : Reg5) (sh : BitVec 6)
  | slti (x : CtxId) (d a : Reg5) (imm : BitVec 16)
  | lui (x : CtxId) (d : Reg5) (imm : BitVec 16)
  | csrr (x : CtxId) (d : Reg5) (num : BitVec 12)
  | csrw (x : CtxId) (a : Reg5) (num : BitVec 12)
  | ld (x : CtxId) (d a : Reg5) (imm : BitVec 16) (e : Ecc)
  | st (x : CtxId) (d a : Reg5) (imm : BitVec 16)
  | lw (x : CtxId) (d a : Reg5) (imm : BitVec 16) (e : Ecc)
  | sw (x : CtxId) (d a : Reg5) (imm : BitVec 16)
  | beq (x : CtxId) (a b : Reg5) (off : BitVec 16)
  | bne (x : CtxId) (a b : Reg5) (off : BitVec 16)
  | blt (x : CtxId) (a b : Reg5) (off : BitVec 16)
  | bge (x : CtxId) (a b : Reg5) (off : BitVec 16)
  | bltu (x : CtxId) (a b : Reg5) (off : BitVec 16)
  | bgeu (x : CtxId) (a b : Reg5) (off : BitVec 16)
  | jal (x : CtxId) (off : BitVec 26)
  | ret (x : CtxId)
  | vld (x : CtxId) (vd a : Reg5) (imm : BitVec 16) (e : Ecc)
  | vst (x : CtxId) (vd a : Reg5) (imm : BitVec 16)
  | vadd (x : CtxId) (vd va vb : Reg5) (pr : BitVec 3) (fmt : BitVec 4)
  | vsub (x : CtxId) (vd va vb : Reg5) (pr : BitVec 3) (fmt : BitVec 4)
  | vmul (x : CtxId) (vd va vb : Reg5) (pr : BitVec 3) (fmt : BitVec 4)
  | vfma (x : CtxId) (vd va vb : Reg5) (pr : BitVec 3) (fmt : BitVec 4)
  | vmax (x : CtxId) (vd va vb : Reg5) (pr : BitVec 3) (fmt : BitVec 4)
  | vmin (x : CtxId) (vd va vb : Reg5) (pr : BitVec 3) (fmt : BitVec 4)
  | vneg (x : CtxId) (vd va : Reg5) (pr : BitVec 3) (fmt : BitVec 4)
  | vabs (x : CtxId) (vd va : Reg5) (pr : BitVec 3) (fmt : BitVec 4)
  | vdiv (x : CtxId) (vd va vb : Reg5) (pr : BitVec 3)
  | vsqrt (x : CtxId) (vd va : Reg5) (pr : BitVec 3)
  | vcmpeq (x : CtxId) (pd : BitVec 3) (va vb : Reg5) (pr : BitVec 3) (fmt : BitVec 4)
  | vcmplt (x : CtxId) (pd : BitVec 3) (va vb : Reg5) (pr : BitVec 3) (fmt : BitVec 4)
  | vcmple (x : CtxId) (pd : BitVec 3) (va vb : Reg5) (pr : BitVec 3) (fmt : BitVec 4)
  | vcmpun (x : CtxId) (pd : BitVec 3) (va vb : Reg5) (pr : BitVec 3) (fmt : BitVec 4)
  | vand (x : CtxId) (vd va vb : Reg5) (pr : BitVec 3)
  | vor (x : CtxId) (vd va vb : Reg5) (pr : BitVec 3)
  | vxor (x : CtxId) (vd va vb : Reg5) (pr : BitVec 3)
  | vsel (x : CtxId) (vd va vb : Reg5) (pr : BitVec 3) (fmt : BitVec 4)
  | vmov (x : CtxId) (vd va : Reg5) (pr : BitVec 3) (fmt : BitVec 4)
  | vsplat (x : CtxId) (vd a : Reg5) (pr : BitVec 3) (fmt : BitVec 4)
  | vextr (x : CtxId) (d va b : Reg5) (fmt : BitVec 4)
  | vinsr (x : CtxId) (vd a b : Reg5) (fmt : BitVec 4)
  | vcvt (x : CtxId) (vd va : Reg5) (tf : BitVec 3) (part : BitVec 2) (pr : BitVec 3) (fmt : BitVec 4)
  | pmov (x : CtxId) (pd : BitVec 3) (a : Reg5)
  | pread (x : CtxId) (d : Reg5) (pa : BitVec 3)
  | pand (x : CtxId) (pd pa pb : BitVec 3)
  | por (x : CtxId) (pd pa pb : BitVec 3)
  | pnot (x : CtxId) (pd pa : BitVec 3)
  | bld (x : CtxId) (vd a : Reg5) (imm : BitVec 16) (e : Ecc)
  | bst (x : CtxId) (vd a : Reg5) (imm : BitVec 16) (lost : Bool)
  | batomAdd (x : CtxId) (vd a : Reg5) (fmt : BitVec 4) (ret : Bool) (imm : BitVec 8) (e : Ecc)
  | batomAddI32w (x : CtxId) (vd a : Reg5) (ret : Bool) (imm : BitVec 8) (e : Ecc)
  | batomAddI32s (x : CtxId) (vd a : Reg5) (ret : Bool) (imm : BitVec 8) (e : Ecc)
  | batomXacc32 (x : CtxId) (vd a : Reg5) (ret : Bool) (imm : BitVec 8) (e : Ecc)
  | batomXacc64 (x : CtxId) (vd a : Reg5) (ret : Bool) (imm : BitVec 8) (e : Ecc)
  | batomMax (x : CtxId) (vd a : Reg5) (fmt : BitVec 4) (ret : Bool) (imm : BitVec 8) (e : Ecc)
  | batomMin (x : CtxId) (vd a : Reg5) (fmt : BitVec 4) (ret : Bool) (imm : BitVec 8) (e : Ecc)
  | batomSwap (x : CtxId) (vd a : Reg5) (ret : Bool) (imm : BitVec 8) (e : Ecc)
  | bankOpComplete (x : CtxId) (reads : List Ecc)
  | msend (x : CtxId) (a b : Reg5)
  | sendDrawn (x : CtxId) (reads : List Ecc)
  | mwait (x : CtxId) (d a b : Reg5) (chan : BitVec 4) (mode : Bool)
  | mrecv (x : CtxId) (d : Reg5) (chan : BitVec 4)
  | dma (x : CtxId) (d a : Reg5) (e : Ecc)
  | dmaTransferComplete (x : CtxId) (tag : Nat) (reads : List Ecc) (lost : List Nat)
  | dmawait (x : CtxId) (d a : Reg5)
  | idone (x : CtxId)
  | iabort (x : CtxId) (a : Reg5)
  | ireportChunkDone (x : CtxId) (a : Reg5)
  | ireportChunkFault (x : CtxId) (a : Reg5)
  | ireportDropped (x : CtxId) (a : Reg5)
  | ireportUser (x : CtxId) (a : Reg5)
  | ickpt (x : CtxId) (d a : Reg5)
  | fence (x : CtxId) (cls : BitVec 4)
  | coreHwError (core code : Nat)
  -- bank carve, fabric memory and streams (07, 10)
  | recarveComplete (quad : Nat)
  | memoryInitComplete (failed : List Nat)
  | refresh (ch : Nat)
  | scrubRead (ch : Nat) (e : Ecc)
  | memChannelFailed (ch : Nat)
  | streamEpochSwitch
  | streamStart (id : Nat)
  | streamPacketSend (id : Nat) (reads : List Ecc) (stg : List CellRead)
  -- serial lanes (11)
  | receiverDetect (port : Nat) (seen : BitVec 4)
  | noPeer (port : Nat)
  | trainingFrameReceive (port lane : Nat) (word : BitVec 64) (sense : TrainSense)
  | trainTimeout (port : Nat)
  | cwLock (port : Nat)
  | capsBlockReceive (port : Nat) (block : Flit)
  | capsTimeout (port : Nat)
  | bringupWaitExpire (port : Nat)
  | los (port lane : Nat)
  | fecDegrade (port : Nat) (corrected total : Nat)
  | qUnusedPort (port : Nat)
  | deepExitRelock (port : Nat)
  | laneCounterClear (port : Nat)
  | laneSnapshot (lane : Nat) (eye : Nat)
  -- PCIe, mailboxes and interrupts (12, 13)
  | bar2Read (off len : Nat) (reads : List Ecc)
  | bar2Write (off : Nat) (data : List Byte) (ep : Bool) (reads : List Ecc)
  | bar0Write (off size : Nat) (value : BitVec 64)
  | dmaRun (ch : Nat)
  | dmaDescriptorComplete (ch : Nat) (desc : HostDesc) (data : List Byte) (hostErr hostPoison : Bool) (reads : List Ecc)
  | pcieFunctionReset (kind : PcieReset)
  | mailboxSubmit (m : Nat) (seq : Nat) (irqEn : Bool)
  | commandAccept (mb : MbxRef)
  | remoteRequestReceive (mb : MbxRef) (role : Role) (session seq : Nat) (req : Request)
  | controlWatchdog (mb : MbxRef)
  | lockstepMismatch
  | controllerReady
  | irqClear (mask events : BitVec 64)
  | irqUnmask (mask : BitVec 64)
  -- the Rospex Command Set (13 R320 and the chapters it names)
  | hello (mb : MbxRef)
  | identity (mb : MbxRef)
  | regRead (mb : MbxRef)
  | regWrite (mb : MbxRef)
  | ledgerRead (mb : MbxRef)
  | hours (mb : MbxRef)
  | inventory (mb : MbxRef)
  | repairMap (mb : MbxRef)
  | ledgerSupply (mb : MbxRef)
  | planStage (mb : MbxRef)
  | planAdopt (mb : MbxRef)
  | planRead (mb : MbxRef)
  | condStatus (mb : MbxRef)
  | rollcallRead (mb : MbxRef)
  | adoptDiscovered (mb : MbxRef)
  | eventRead (mb : MbxRef)
  | rackSequence (mb : MbxRef)
  | rackSequenceStop (mb : MbxRef)
  | sliceAlloc (mb : MbxRef)
  | sliceRelease (mb : MbxRef)
  | sliceQuery (mb : MbxRef)
  | sliceMark (mb : MbxRef)
  | sessionGrant (mb : MbxRef)
  | tableWrite (mb : MbxRef)
  | tableSwitch (mb : MbxRef)
  | ingressHoldSet (mb : MbxRef)
  | ingressHoldClear (mb : MbxRef)
  | groupDefine (mb : MbxRef)
  | groupDelete (mb : MbxRef)
  | groupReform (mb : MbxRef)
  | slotBind (mb : MbxRef)
  | slotUnbind (mb : MbxRef)
  | slotQuery (mb : MbxRef)
  | instanceQuery (mb : MbxRef)
  | instanceAbort (mb : MbxRef)
  | programLoad (mb : MbxRef)
  | programUnload (mb : MbxRef)
  | programList (mb : MbxRef)
  | regionWrite (mb : MbxRef)
  | regionRead (mb : MbxRef)
  | streamWrite (mb : MbxRef)
  | streamEpoch (mb : MbxRef)
  | streamQuery (mb : MbxRef)
  | shardWrite (mb : MbxRef)
  | shardRead (mb : MbxRef)
  | memStatus (mb : MbxRef)
  | capSet (mb : MbxRef)
  | hostRequestOff (mb : MbxRef)
  | hostRequestOn (mb : MbxRef)
  | hostRequestCap (mb : MbxRef)
  | hostRequestClearCap (mb : MbxRef)
  | powerStatus (mb : MbxRef)
  | brakeStatus (mb : MbxRef)
  | cntConfig (mb : MbxRef)
  | cntRead (mb : MbxRef)
  | scoresheetConfig (mb : MbxRef)
  | errRead (mb : MbxRef)
  | errAck (mb : MbxRef)
  | injectArm (mb : MbxRef)
  | injectDisarm (mb : MbxRef)
  | coreFence (mb : MbxRef)
  | bankRetire (mb : MbxRef)
  | unitFence (mb : MbxRef)
  | unitFenceRelease (mb : MbxRef)
  | portSetDeep (mb : MbxRef)
  | portSetClearDeep (mb : MbxRef)
  | laneRead (mb : MbxRef)
  | tunnelWrite (mb : MbxRef)
  | tunnelRead (mb : MbxRef)
  | ethAddr (mb : MbxRef)
  | fwStage (mb : MbxRef)
  | fwActivate (mb : MbxRef)
  | spdm (mb : MbxRef)
  | testUnlockNonce (mb : MbxRef)
  | testUnlock (mb : MbxRef)
  | testUnlockExpire
  | ownerKey (mb : MbxRef)
  -- the conductor: log, machine, agents (14)
  | heartbeatSend
  | heartbeatReceive (fromPrimary : Bool) (cterm : Nat)
  | inputReceive (msg : DrpMsg)
  | timerEntryWrite
  | pairForwardReceive (e : LogEntry)
  | pairAckReceive (index : Nat)
  | digestExchange
  | digestReceive (ds : List (Nat × BitVec 128))
  | rollcall
  | linkEvent
  | pull
  | missingRanks
  | binding
  | drainState
  | inputError
  | rcsCmd
  | result
  | sensor
  | probeResult
  | timer
  | stageTimeout
  | rollcallClose
  | probeTimeout (port : Nat)
  | drainForced
  | conductorCheckpoint
  | drpAckReceive (input : Bool) (agent seq : Nat)
  | drpResend (input : Bool) (agent seq : Nat)
  | pairWindow
  | drpFence (msg : DrpMsg)
  | drpFenceRelease (msg : DrpMsg)
  | drpPowerCap (msg : DrpMsg)
  | drpPowerDomain (msg : DrpMsg)
  | drpPowerClearCut (msg : DrpMsg)
  | drpTableWrite (msg : DrpMsg)
  | drpTableSwitch (msg : DrpMsg)
  | drpIngressHold (msg : DrpMsg)
  | drpSliceRelease (msg : DrpMsg)
  | drpGroupDefine (msg : DrpMsg)
  | drpGroupDelete (msg : DrpMsg)
  | drpGroupReform (msg : DrpMsg)
  | drpPlan (msg : DrpMsg)
  | drpStage (msg : DrpMsg)
  | drpInstanceEnd (msg : DrpMsg)
  | drpProbe (msg : DrpMsg)
  | drpRegion (msg : DrpMsg)
  | drpStreamCut (msg : DrpMsg)
  | timeExchange (port : Nat)
  | timeReceive (port : Nat) (t1 t2 t3 t4 : Nat)
  | presenceBreak (input : Nat)
  | takeover
  | takeoverReceive (cterm from_ : Nat)
  | voteReceive (from_ cterm : Nat) (accept : Bool)
  | confirm (cterm from_ acting : Nat)
  | withdraw (cterm : Nat)
  | secondaryLost
  | coldRestart (ckptIndex : Nat) (entries : List LogEntry)
  | shadowComplete (timedOut : Bool)
  | failback
  | handback (index : Nat)
  | selftest (pass : Bool)
  | healthSend
  -- power, cooling, leaks and the tray (15)
  | brakeAssert (respNs : Nat)
  | brakeRelease
  | vinUndervoltage
  | vinRecover
  | powerEstimate (w : Nat)
  | governorRecalibrate (w : Nat)
  | thermalLimitStep (temps : List Nat)
  | thermalTrip (die : Nat)
  | sensorFault (die sensor reading : Nat)
  | leaseExpired
  | orphanApply
  | flowStop
  | flowCrosscheck
  | ropeMeasure (rope ohms : Nat)
  | leakCut (rope : Nat)
  | ropeTest (rope : Nat)
  | ropeTestEnd (rope : Nat) (wetInWindow : Bool) (ohms : Nat)
  | ropeFault (rope : Nat)
  | leakDecide (tray : Nat)
  | inventoryScan (found : List InvRec)
  -- the ledger and the chain of trust (16)
  | ledgerCommit (ok0 ok1 : Bool)
  | norCopy (ok : Bool)
  | mramPatrol (corrected : Nat)
  | norRefresh (block : Nat)
  | hoursCommit
  | pwrFail (openSeconds : Nat)
  | pwrFailRelease
  | ledgerMount
  | recovery (fromRm : Bool) (image : List Byte)
  | recoveryPeerTimeout
  | recoveryRequest (devId tray : Nat)
  -- errors and crossings (17, 19)
  | recordClose (rseq : Nat)
  | fenceEscalation (rseq : Nat)
  | cdcTimeout (group inst : Nat)
  | cdcOverrun (group inst : Nat)
  -- counters and scoresheets (18)
  | counterClear (unit k : Nat)
  | scoresheetSnapshot
  | scoresheetWrite
  -- clocks, resets, power-up, boundary scan (19)
  | refclkLoss
  | standbyReset
  | hubReset
  | mainFull
  | mainKeepmem
  | mainPgLoss
  | mainPowerUp (fusedMv : Nat) (coresPass : List Nat)
  | vddCoreAdjust (mv : Nat)
  | bypass (tdi : List Bool)
  | idcode (tdi : List Bool)
  | samplePreload (cells tdi : List Bool)
  | extest (cells tdi : List Bool)
  | extestPulse (cells tdi : List Bool)
  | extestTrain (cells tdi : List Bool)
  -- the table's later rows
  | stagedTransferDiscard (kind : Staged)
  | tokenBucketRefill
  | presenceRestore (input : Nat)
  | ethLinkDown (port sub : Nat)
  | ethLinkUp (port sub : Nat)
  | ethFrameSend (port sub : Nat)
  | pcieLinkUp (gtps width : Nat)
  | standbyPowerLoss
  | refclkReturn
  | mainResetRelease (coresPass : List Nat)
  | logFetchReceive (fromIndex : Nat) (wantCkpt : Bool)
  | prbsCheck (lane : Nat) (bits : List Bool)
deriving DecidableEq, Repr

end Sys2Proof
end

