-- ==== Sys2Proof/Config.lean ====
section
/-! DEFINITION. What the spec leaves open and what lies outside it: free values, and the functions the spec names and
does not define. Each is opaque, so nothing can be proved of its values. -/

namespace Sys2Proof

/-- A value the spec leaves open, by the running number of the draw and its kind (notes/assumptions). [DESIGN CHOICE log 14] -/
opaque Config.freeNat : Nat → Nat

/-- As `freeNat`, for a flit. [DESIGN CHOICE log 14] -/
opaque Config.freeFlit : Nat → Flit

/-- As `freeNat`, for a condition. [DESIGN CHOICE log 14] -/
opaque Config.freeBool : Nat → Bool

/-- The version of the boot ROM, which measurement 1 covers (16 R409). [PRESUMED log 63] -/
opaque Config.romVersion : Nat

/-- The module's answer to an SPDM message (16 R408): the protocol's own content is outside the spec. [PRESUMED log 63; DESIGN CHOICE log 80] -/
opaque Config.spdmAnswer : (history : Nat) → (msg : List Byte) → List Byte

/-- The body bytes of a DRP message (14 R336, R337): the spec gives the fields of each body by name only. [DESIGN CHOICE log 16] -/
opaque Config.drpBody : DrpBody → List Byte

/-- The number by which a PIP error record names an exception (08 R205) or a hardware cause (R206): the spec gives the
names only (17 R416). 0 LDM_RANGE, 1 ALIGN, 2 IMEM_RANGE, 3 BANK_RANGE, 4 DMA_RANGE, 5 SEND_INVALID, 6 WAIT_INVALID; from
16 the hardware causes by their detector code. [DESIGN CHOICE log 15] -/
opaque Config.pipCause : Nat → Nat

/-- The unit kind and the cause of a FENCE record of the ledger (16 R388): 0 a reduction core, 1 a link, 2 a port, 3 an
endpoint, 4 a module; the spec numbers neither. [DESIGN CHOICE log 15] -/
opaque Config.unitKind : Nat → Nat

/-- [DESIGN CHOICE log 15] -/
opaque Config.fenceCause : Nat → Nat

/-- The cause detail of an EXT error record (17 R416), which the spec does not number: 1 to 3 the failed check of 12 R292,
4 a PCIe link below its full rate. [DESIGN CHOICE log 15; DEDUCED log 90] -/
opaque Config.extCause : Nat → Nat

/-- The event number of a SECURITY record (16 R388), which the spec does not number: 0 unlock, 1 unlock ended, 2 owner
enrolment, 3 activation, 4 recovery, 5 a die armed, 6 a die disarmed. [DESIGN CHOICE log 15] -/
opaque Config.securityEvent : Nat → Nat

/-- The code by which a response names a ledger record's trust state (16 R399, R400): 0 trusted, 1 UNTRUSTED, 2 SUPPLIED. [DESIGN CHOICE log 15] -/
opaque Config.trustState : Nat → Nat

/-- Whether a certificate chain ends at the module's identity key (16 R400, R407). [DESIGN CHOICE log 13] -/
opaque Config.chainOk : List Byte → Bool

/-- The digest of a library program of the running firmware (08 R211, 09 R216). [DEDUCED log 127] -/
opaque Config.libraryDigest : Nat → BitVec 384

/-- The public keys in an image's key block, whose layout the spec does not give (16 R402): Avwyn's and the owner's. [DESIGN CHOICE log 13] -/
opaque Config.avwynKey : List Byte → List Byte

/-- [DESIGN CHOICE log 13] -/
opaque Config.imageOwnerKey : List Byte → List Byte

/-- The test authority's public key, which TEST_HASH names by its hash (16 R401, R411). [DESIGN CHOICE log 13] -/
opaque Config.testKey : BitVec 384 → List Byte

namespace Machine

/-- Sparse data by Nat key, in canonical form (see Machine/Tab.lean). -/
abbrev Tab (α : Type) := List (Nat × α)

/-- What the plan assigns to one port of a module (14 R333, 11 R279): class 0 member, 1 global, 2 crosslink; for a member link the
compute tray and the position in it, the endpoint and its port, else the far module and port; the link index; the presence input. [DEDUCED log 84] -/
structure PortPlan where
  cls : Nat
  farId : Nat
  farPort : Nat
  tray : Nat
  pos : Nat
  endpoint : Nat
  link : Nat
  presence : Option Nat
deriving DecidableEq, Repr

/-- The plan: R6, R123, R334 and R383 parameters with the defaults the spec gives, and this rack's assignments, keyed
256·module + port. -/
structure Plan where
  g : Nat := 8
  m : Nat := 16
  lm : Nat := 6
  lg : Nat := 6
  lx : Nat := 6
  primary : Nat := 0x000
  secondary : Nat := 0x010
  ports : Tab PortPlan := []
  escVia : Tab Nat := []
  seed : Nat := 1
  directShare : Nat := 32
  minGlobal : Nat := 3
  minMember : Nat := 4
  rollcallTimeout : Nat := 20
  drainLimit : Nat := 10
  ckptPeriod : Nat := 10
  soloStart : Bool := true
  abortMax : Nat := 32
  verifyLimit : Nat := 1000
  reformSteps : Nat := 4
  injection : Bool := false
  signedRequired : Bool := false
  hostUpdate : Bool := false
  shelves : Nat := 7
  shelfW : Nat := 36000
  derate : Bool := true
  orphanCap : Nat := 180000
  fixedW : Nat := 4000
  moduleBrakeW : Nat := 1000
  trayBrakeW : Nat := 2800
  moduleSurvivalW : Nat := 900
  traySurvivalW : Nat := 2000
  flowMin : Nat := 240
  flowStopS : Nat := 60
  coolantCv : Nat := 3900
  ropes : List Nat := [3, 3, 3, 3, 3, 3, 3, 3]
  leakDecideS : Nat := 900
  vinUv : Nat := 176
  selftestPromo : Nat := 5000
  ledgPromo : Nat := 5000
  ptp : Bool := false
  verifySlices : List Nat := []
deriving DecidableEq, Repr

/-- The plan that an image carries, none where a section is not well formed (14 R333, R335): the spec gives the sections
and what they hold, not the layout within one. [DESIGN CHOICE log 16] -/
opaque planOf : List Byte → Option Plan

/-- The image of a plan that ADOPT_DISCOVERED builds (14 R343), for the same reason. [DESIGN CHOICE log 16; DEDUCED log 117] -/
opaque planImage : Plan → List Byte

end Machine

end Sys2Proof
end

