-- ==== Sys2Proof/Machine/State.lean ====
section
/-! DEFINITION. The state of the module as plain data: every register, table, queue, buffer, engine and pin the spec
names, the outputs that have left it, and the queue of commands that wait. Default field values are the reset values.
A `Tab` holds Nat-keyed data sparsely: keys rising, an absent key reads as the table's own default. -/

namespace Sys2Proof.Machine

/-! ## The fabric link (02) and the serial lanes (11) -/

/-- One transmitted window kept in the retry buffer (02 R27). -/
structure Window where
  seq : Nat
  slots : List Slot
deriving DecidableEq, Repr

/-- The transmit side of a port's link (02 R21 to R34). The states NORMAL, REPLAY and DOWN, the REPLAYS count and TXSEQ
live in PORT_LLSTAT. `credits` and `due` are keyed by VC: credits held, and credits granted to the far side's VC and not
yet returned. `resend` holds the slots still to be sent again in REPLAY; `askReplay` waits for the window boundary. [DEDUCED log 21] -/
structure LinkTx where
  credits : Tab Nat := []
  due : Tab Nat := []
  cur : List Slot := []
  lastCrc : BitVec 64 := 0
  lastSeq : Nat := 0xFFFF
  buf : List Window := []
  acked : Option Nat := none
  askReplay : Bool := false
  resend : List Slot := []
  replayFrom : Option Nat := none
deriving DecidableEq, Repr

/-- The line of a port's transmitter (11 R266): the scrambler's last 58 bits, the message bits of the codeword not yet full and their
number, and the last level sent on each lane. -/
structure LineTx where
  scrambler : Nat := 0
  message : Nat := 0
  length : Nat := 0
  levels : List Nat := []
deriving DecidableEq, Repr

/-- The receive side of a port's link (02 R20 to R31). `winIdx` counts windows since ACTIVE; `expect` is the sequence
number the window under test must carry; `fwdPrev` and `fwdCur` mark the slots of the last and the present window whose
flits went on; `record` is the record of R31, `refill` the slots whose flits the replay brings into a replay entry only (R43);
`badWins` the windows an uncorrectable codeword overlaps; `early` says that the window in progress failed before the one before
it was tested. [DEDUCED log 21] -/
structure LinkRx where
  prev : List Slot := []
  cur : List Slot := []
  tested : Bool := true
  expect : Nat := 0
  lastOk : Nat := 0xFFFF
  badWins : List Nat := []
  fwdPrev : BitVec 32 := 0
  fwdCur : BitVec 32 := 0
  record : BitVec 32 := 0
  refill : BitVec 32 := 0
  early : Bool := false
  dropVcs : List Nat := []
  winIdx : Nat := 0
  cwIdx : Nat := 0
  uncorrRun : Nat := 0
  uncorrAt : List Nat := []
  lockRun : Nat := 0
  degradeRun : Nat := 0
deriving DecidableEq, Repr

/-- A route the head decision gave a packet (03 R63 to R68, R77). -/
inductive Route where
  | undecided
  | discard
  | forward (port vc : Nat)
  | egress
  | local_
  | fanout
deriving DecidableEq, Repr

/-- A packet arriving on one (port, VC): the flits so far and what became of its head (02 R38, R40). `crc` is the
E2E_CRC or the stomp record of its tail. `broken` marks a packet at its ingress edge that was stomped downstream and is
still taken into its replay entry: 1 to be resent when complete (R43), 2 without a resend. `flow` is the flow key and FLOW_SEQ its
ingress edge gave it, `win` the link window its tail came in. -/
structure InPkt where
  flits : List Flit := []
  ended : Bool := false
  crc : BitVec 32 := 0
  stomp : Bool := false
  route : Route := .undecided
  broken : Nat := 0
  flow : Option (Nat × Nat) := none
  win : Nat := 0
deriving DecidableEq, Repr

/-- The cells that the flits of one packet hold on their way to an output, oldest flit first (04 R86, R88, R91): `qn` flits
charged to the queue reserve of class `tc`, `far` charged to the account of the output's quadrant, `near` charged to `acct`
(16·input port + VC) and waiting for the die-to-die path, `due` still with the unit that sends them, which waits for cells, and
`drawn` payload flits that stay in their store until an output draws them (07 R167, 10 R238). `deposit` marks a packet whose
payload leaves by a deposit path and enters no queue. -/
structure Charge where
  acct : Nat := 0
  tc : Nat := 0
  due : Nat := 0
  near : Nat := 0
  far : Nat := 0
  qn : Nat := 0
  drawn : Nat := 0
  deposit : Bool := false
deriving DecidableEq, Repr

/-- A packet waiting for, or leaving on, an output (04 R93, R94). `crc` holds the E2E_CRC, or the stomp record when
`stomp`; `whole` says that its last flit has come, in link window `win`. `gen` is the roll generator, `chg` what its unsent flits
hold. `src` is the (port, VC) that feeds it (16·port + VC) and `flow` names its replay entry at its ingress edge. -/
structure OutPkt where
  flits : List Flit
  crc : BitVec 32 := 0
  stomp : Bool := false
  whole : Bool := false
  sent : Nat := 0
  gen : Nat := 0
  chg : Charge := {}
  src : Option Nat := none
  flow : Option (Nat × Nat) := none
  win : Nat := 0
deriving DecidableEq, Repr

/-- A packet that has reached the internal core port of the unit that takes it: `core` is 3 COLL, 4 MEM, 5 GATE or 6 HUB of
quadrant `quad` (04 R85); it is taken once all its flits are there. -/
structure LocalPkt where
  pkt : Packet
  quad : Nat
  core : Nat
  chg : Charge
deriving DecidableEq, Repr

/-- The buffer account of one (input port, VC) (04 R89 to R92, R98): cells taken from the ingress reserve and from the
shared pool, credits returned and not used, flits received and still charged, the allowance last computed (0 before the
first), whether the VC waits for a shared cell, and its age in TICK. -/
structure VcBuf where
  resCells : Nat := 0
  shCells : Nat := 0
  credits : Nat := 0
  flits : Nat := 0
  allow : Nat := 0
  waits : Bool := false
  age : Nat := 0
deriving DecidableEq, Repr

/-- One lane (11 R271 to R273, R281, R284, R287): the transmit coefficients, the request it sends and the answer it gives,
what it has seen of the far side, the receiver's equalizer, its hours in ACTIVE, and the PRBS checker's history. -/
structure LaneSt where
  pre : Int := 0
  post : Int := 0
  ctle : Nat := 0
  dfe : List Int := []
  reqPre : Nat := 0
  reqPost : Nat := 0
  preset : Nat := 0
  seq : Nat := 0
  ackSeq : Nat := 0
  stPre : Nat := 0
  stPost : Nat := 0
  answered : Bool := false
  farReady : Nat := 0
  ownReady : Bool := false
  seen : Bool := false
  signal : Bool := false
  farLane : Nat := 0
  hours : Nat := 0
  snapHours : Nat := 0
  prbs : List Bool := []
deriving DecidableEq, Repr

/-- Why a port waits at TRAIN before restarting (11 R269). -/
inductive BringupWait where
  | none | ms1 | s1
deriving DecidableEq, Repr

/-- A port's bring-up state beside LANE_STAT (11 R268 to R283, R288). `reported` says that its roll-call outcome has been
sent (14 R341), `baseline` that a BASELINE stands since the plan was adopted. -/
structure PortSt where
  wait : BringupWait := .none
  shortOk : Bool := false
  shortNow : Bool := false
  capsLast : Flit := 0
  capsRun : Nat := 0
  ack : Bool := false
  go : Bool := false
  farDev : Nat := 0
  farId : Nat := 0
  baseline : Bool := false
  bringups : Nat := 0
  fails : Nat := 0
  noPeer : Bool := false
  reported : Bool := false
deriving DecidableEq, Repr

/-! ## Routing, flows and the switch core (03, 04) -/

/-- A region table entry (10 R247). -/
structure Region where
  base : Nat := 0
  size : Nat := 0
  slice : Nat := 0
  mode : Nat := 0
deriving DecidableEq, Repr

/-- A gateway tunnel (12 R291). -/
structure Tunnel where
  valid : Bool := false
  slice : Nat := 0
  port : Nat := 0
  sub : Nat := 0
  vlan : Nat := 0
  pcp : Nat := 0
  dscp : Nat := 0
  ipVer : Nat := 4
  localIdx : Nat := 0
  remote : Nat := 0
  nextHop : Nat := 0
  keyTx : Nat := 0
  keyRx : Nat := 0
deriving DecidableEq, Repr

/-- The tables that a table-generation switch makes active together (03 R56, R57; 04 R95; 10 R247; 12 R291). The copies
of the four quadrants are identical and are held once. Keys: memberPorts 8·member + l; globalPorts 16·group + l;
xlinkPorts x; an entry is the port + 1, 0 for none; spray 1024·slice + 64·group + i; portSlice the port. -/
structure Tables where
  memberPorts : Tab Nat := []
  globalPorts : Tab Nat := []
  xlinkPorts : Tab Nat := []
  sliceLset : Tab Nat := []
  spray : Tab Nat := []
  sliceCols : Tab Nat := []
  portSlice : Tab Nat := []
  regions : Tab Region := []
  tunnels : Tab Tunnel := []
  gen : Nat := 0
deriving DecidableEq, Repr

/-- Who originated a retained packet: an endpoint, or a unit of this module and for what. -/
inductive Origin where
  | endpoint
  | result (slot step : Nat) (chunk : Nat)
  | terminal (slot step : Nat)
  | notice
  | stream (id : Nat)
  | gate (port prio bytes : Nat)
  | other
deriving DecidableEq, Repr

/-- A packet of a unit of this module that its flow has no room for yet (03 R70): its header and payload, the quadrant and
core port it leaves by, and its origin. -/
structure HeldPkt where
  hdr : Flit
  bytes : List Byte
  quad : Nat
  port : Nat
  origin : Origin
deriving DecidableEq, Repr

/-- One replay store entry (03 R70 to R79). `mask` is the CMASK still unreported and `leaf` the merged LEAF_STATUS of a
cast; `origin` names what a unit of the module sent. -/
structure Replay where
  seq : Nat
  pkt : Packet
  gen : Nat
  quad : Nat
  complete : Bool := true
  nacks : Nat := 0
  resends : Nat := 0
  leaf : Nat := 0
  mask : Nat := 0
  origin : Origin := .endpoint
deriving DecidableEq, Repr

/-- A flow at its ingress edge: the FLOW_SEQ counter, sequence numbers given back (02 R43), the retained packets, oldest first,
and as a bit mask every group to whose fan-out module a column cast flow has sent (03 R79). -/
structure InFlow where
  next : Nat := 0
  givenBack : List Nat := []
  entries : List Replay := []
  groups : Nat := 0
deriving DecidableEq, Repr

/-- A cast packet at its fan-out module that waits for leaves (03 R78). -/
structure CastWait where
  seq : Nat
  castId : Nat
  mask : Nat
  leaf : Nat
deriving DecidableEq, Repr

/-- A packet held out of order (03 R72): `pkt` is none where the sequence number is voided (02 R42); `gen` and `vc` are
the generator and VC by which it arrived, `quad` the quadrant of its reorder store (R461). -/
structure Held where
  seq : Nat
  pkt : Option Packet
  gen : Nat
  vc : Nat
  quad : Nat
deriving DecidableEq, Repr

/-- What the edge tells a unit of this module about a packet it originated (03 R76 to R79): confirmed with the merged
LEAF_STATUS of a cast, or ended by FLOW_ERROR. -/
structure UnitEvent where
  origin : Origin
  hdr : Flit
  ok : Bool
  leaf : Nat
  ue : Bool
deriving DecidableEq, Repr

/-- A flow at its egress edge or fan-out module (03 R71 to R73, R78). `seen` is the latest sequence heard of while it lies at or
beyond the expected one, so that a gap is known and the gap timer runs. -/
structure EgFlow where
  expect : Nat := 0
  held : List Held := []
  dropped : List Nat := []
  nacks : Tab Nat := []
  sinceAck : Nat := 0
  acked : Nat := 0xFFFF
  seen : Option Nat := none
  casts : List CastWait := []
deriving DecidableEq, Repr

/-- A token bucket pair of one member (04 R97), levels in 1/16 flit. -/
structure Buckets where
  tc3 : Int := 16384
  tc5 : Int := 8192
deriving DecidableEq, Repr

/-! ## Collective instances and the reduction store (05 to 07) -/

/-- A collective group as a module holds it (05 R107, R108): its definition, its slice's geometry, the epoch, the
vacant ranks and whether it is suspended (R124). -/
structure Group where
  dfn : GroupDef
  r0 : Nat
  c0 : Nat
  height : Nat
  width : Nat
  gepoch : Nat := 0
  vacant : List Nat := []
  suspended : Bool := false
deriving DecidableEq, Repr

/-- The fields of a slot binding (05 R102). -/
structure Binding where
  group : Nat := 0
  op : Nat := 0
  reducer : Nat := 0
  format : Nat := 0
  disc : Nat := 0
  program : Nat := 0
  elems : Nat := 0
  root : Nat := 0x1FF
  chunk : Nat := 65536
  inflight : Nat := 4
  depth : Nat := 2
  stages : Nat := 1
  retain : Bool := false
  clock : Nat := 200
  priority : Nat := 1
  intSat : Bool := true
  e5m2Inf : Bool := false
  capacity : Nat := 0
  tokensMax : Nat := 0
  record : Nat := 0
  outRows : Nat := 0
  pair : Nat := 0
  step0 : Nat := 0
  params : List Nat := []
deriving DecidableEq, Repr

/-- A checkpoint record of a slot (08 R213). -/
structure Ckpt where
  resume : Nat
  user : Nat
  seq : Nat
  step : Nat
deriving DecidableEq, Repr

/-- What is kept of an ended step, the last 64 of a slot (05 R112, R119; 06 R148). `pair` says that the step's pair table
stands (R131; 07 R183). -/
structure Ended where
  step : Nat
  status : Nat
  flags : BitVec 16
  dropped : Nat
  user : Nat
  resume : Nat
  resumeW : Nat
  pair : Bool := true
deriving DecidableEq, Repr

/-- A binding that waits for the answers of other modules (05 R103; 08 R210): the mailbox of its SLOT_BIND, the request, the modules yet
to answer (helpers, and 4096 + module for the slot of a PEER channel), the helpers that accepted, and the first refusal. -/
structure BindWait where
  mb : MbxRef
  req : Request
  waiting : List Nat
  accepted : List Nat
  refused : Option Nat := none
deriving DecidableEq, Repr

/-- A slot descriptor (05 R102 to R106, R112). `helper` marks a slot held for another home's binding, naming the home;
`imposedLeft` counts the steps still imposed ORDERED after a re-form; `closing` marks a binding that is lost while an instance of it still
ends; `verify` is the VERIFY mark of the slice when
bound. [DEDUCED log 47] -/
structure SlotSt where
  bound : Option Binding := none
  helper : Option Nat := none
  redBase : Nat := 0
  stgBase : Nat := 0
  bindIdx : Nat := 0
  base : Nat := 0
  hash : BitVec 32 := 0
  verify : Bool := false
  imposedLeft : Nat := 0
  closing : Bool := false
  ended : List Ended := []
  ckpts : List Ckpt := []
deriving DecidableEq, Repr

/-- The states of an instance (05 R119); FREE is the absence of a record. -/
inductive InstState where
  | open_ | running | verifying | ending
deriving DecidableEq, Repr

/-- An arrival descriptor that waits on a channel, and the inbox flits that the MRECV after the one that takes it frees (08 R199). -/
structure Arrival where
  chan : Nat
  desc : BitVec 64
  free : Nat := 0
deriving DecidableEq, Repr

/-- An accepted contribution packet that waits for its deposit (07 R167): `key` is the contributor's rank, 512 + group for
a helper partial, 1024 for a message of a peer program. -/
structure Deposit where
  key : Nat
  chunk : Nat
  foff : Nat
  last : Bool
  poison : Bool
  drank : Nat
  flits : List Flit
  chg : Charge := {}
deriving DecidableEq, Repr

/-- A live instance (05 R111 to R136); FREE is the absence of a record. Contributors are keyed as in `Deposit`; shares by
2048·chunk + contributor. `shares` counts the flits received of a share, `recv` lists shares received whole, `complete`
shares deposited whole; `opened` and `done` list chunks opened and reported CHUNK_DONE; `results` counts result packets
not yet acknowledged, pruned or failed, by chunk; `sentHi` is the record of 08 R214, keyed by chunk, target and KIND, and `lastSent` the keys whose packet with LAST has gone;
`slotsUsed` the slots filled per destination of a DISPATCH step, `dranks` the destination + 1 of each token of an ORDERED one, keyed
2^17·rank + token; `formed` the chunks whose result, or first contents, its library program has written; `recovering` the chunks
that wait for a recovery context, oldest first; `helperBits` the arrivals that helpers reported, keyed as shares, and `refused` the
partials refused; `descs` the
arrival descriptors not yet received; `resent` the chunks sent again after a fault; `msgs` the messages of peer programs
that have arrived, by channel. -/
structure Instance where
  state : InstState := .open_
  gepoch : Nat := 0
  disc : Nat := 0
  imposed : Bool := false
  flight : Nat := 1
  first : List Nat := []
  shares : Tab Nat := []
  recv : List Nat := []
  complete : List Nat := []
  opened : List Nat := []
  done : List Nat := []
  waiting : List Deposit := []
  arrived : Nat := 0
  order : Nat := 0
  ctx : Option CtxId := none
  recCtx : Option CtxId := none
  recovering : List Nat := []
  replace : Bool := false
  faulted : List Nat := []
  recovered : Bool := false
  programDone : Bool := false
  status : Option Nat := none
  nrank : Nat := 0x1FF
  bitmap : Nat := 0
  chunkField : Nat := 0
  results : Tab Nat := []
  terminalOut : Nat := 0
  terminalSent : Bool := false
  missing : List Nat := []
  flags : BitVec 16 := 0
  dropped : Nat := 0
  user : Nat := 0
  resume : Nat := 0xFFFFFFFFFFFFFFFF
  resumeW : Nat := 0
  restarts : Nat := 0
  sentHi : Tab Nat := []
  lastSent : List Nat := []
  slotsUsed : Tab Nat := []
  dranks : Tab Nat := []
  formed : List Nat := []
  helperBits : Tab Nat := []
  refused : List Nat := []
  descs : List Arrival := []
  resent : List Nat := []
  msgs : Tab Nat := []
deriving DecidableEq, Repr

/-- One store word with its tag (07 R172). The default is the word a CLEAR leaves: EMPTY, zero data. [DEDUCED log 37] -/
structure BankWord where
  data : Flit := 0
  poison : Bool := false
  empty : Bool := true
deriving DecidableEq, Repr

/-- One entry of the repair map (07 R178). -/
structure Repair where
  kind : Nat
  quad : Nat
  bank : Nat
  sub : Nat
  spare : Nat
  column : Nat
  cause : Nat
  injected : Bool := false
deriving DecidableEq, Repr

/-! ## Reduction cores (08) -/

/-- What a context waits for (08 R184). -/
inductive CtxRun where
  | free
  | ready
  | blocked
  | stopped
deriving DecidableEq, Repr

/-- An outstanding MSEND (08 R200): the store words still to be drawn and the header it will carry. -/
structure Send where
  addr : Nat
  len : Nat
  desc : BitVec 64
deriving DecidableEq, Repr

/-- A DMA tag of a context (08 R201): the transfer, its place in the order of issue, whether it brings an update's control record to
the context (09 R232), and its status once complete. [DESIGN CHOICE log 138] -/
structure DmaTag where
  tag : Nat
  faddr : Nat
  baddr : Nat
  bytes : Nat
  toMem : Bool
  order : Nat := 0
  toCtl : Bool := false
  status : Option Nat := none
deriving DecidableEq, Repr

/-- Where a library program stands in its chunk (09 R219 to R233): before the control record, its transfer; waiting for shares;
before the bank work of a chunk; its packets being drawn; a state block's transfer in, its update, its transfer out; the image's
making and its transfer; before IDONE. -/
inductive LibPhase where
  | start | controlIn | wait | work | sending | blockIn | update | blockOut | image | imageOut | last
deriving DecidableEq, Repr

/-- The progress of a library program in its context: the phase, the chunk, whether it sends the chunk again, and the control
record of an update (09 R232). -/
structure LibSt where
  phase : LibPhase := .start
  chunk : Nat := 0
  resent : Bool := false
  ctl : Flit := 0
deriving DecidableEq, Repr

/-- A context of a reduction core (08 R184, R187, R188, R194, R198 to R201). `regs` s1 to s31, `vregs`, `pregs` are keyed
by number; `mem` holds the 64 KiB window as 64-bit words; `lib` is the progress of a library program. -/
structure PipCtx where
  run : CtxRun := .free
  slot : Nat := 0
  step : Nat := 0
  program : Nat := 0
  helper : Bool := false
  recoveryOf : Option Nat := none
  pc : Nat := 0
  regs : Tab Word := []
  vregs : Tab Flit := []
  pregs : Tab Word := []
  mem : Tab Word := []
  bstat : Word := 0
  aflags : Word := 0
  intmode : Word := 0
  resume : Nat := 0xFFFFFFFFFFFFFFFF
  resumeW : Nat := 0
  placed : Nat := 0
  restarted : Bool := false
  bankOps : Nat := 0
  sends : List Send := []
  dmas : List DmaTag := []
  nextTag : Nat := 0
  inboxTop : Nat := 0
  inboxUsed : Nat := 0
  lastRecv : Tab Nat := []
  lib : LibSt := {}
deriving DecidableEq, Repr

/-- A loaded program (08 R207 to R211). -/
structure Program where
  cls : Nat
  version : Nat
  flags : Nat
  entry : Nat
  code : List (BitVec 32)
  codeLen : Nat
  data : List Byte
  channels : List (BitVec 32)
  unchecked : Bool
  digest : BitVec 384
deriving DecidableEq, Repr

/-! ## Fabric memory and streams (10) -/

/-- A memory read in flight (02 R53): a number of its own, the request, the quadrant that answers it, and each word with
its poison mark as it stood when the read was taken (R246). -/
structure MemRead where
  tag : Nat
  req : Flit
  quad : Nat
  words : List (Flit × Bool)
deriving DecidableEq, Repr

/-- A stream table entry (10 R253). -/
structure StreamEntry where
  src : Nat := 0
  sfmt : Nat := 0
  dfmt : Nat := 0
  valid : Bool := false
  irq : Bool := false
  elems : Nat := 0
  start : Nat := 0
  doff : Nat := 0
  dst : Nat := 0
  slice : Nat := 0
  cast : Bool := false
  caxis : Bool := false
  cmask : Nat := 0
  rate : Nat := 0
  gateSlot : Nat := 0
  gateEn : Bool := false
  gateStep : Nat := 0
  blkElems : Nat := 0
  blkStride : Nat := 0
  gateBind : Nat := 0
deriving DecidableEq, Repr

/-- The run of a stream entry in the active epoch (10 R256 to R260): status code, packets sent and acknowledged, merged
LEAF_STATUS, flags, the entry's IRQ, and the cause that will end it once its packets are answered. Keyed
1024·SEPOCH + STREAM_ID. -/
structure StreamRun where
  status : Nat := 0
  sent : Nat := 0
  acked : Nat := 0
  open_ : Nat := 0
  bytes : Nat := 0
  leaf : Nat := 0
  late : Bool := false
  poisonSent : Bool := false
  anyFailed : Bool := false
  ending : Option Nat := none
  started : Bool := false
  irq : Bool := false
deriving DecidableEq, Repr

/-- A shard map entry (10 R251). -/
structure Shard where
  shard : Nat
  module : Nat
  slot : Nat
  stateAddr : Nat
  sb : Nat
  e : Nat
  first : Nat
  count : Nat
  image : Nat
  imageFmt : Nat
  lost : Bool
deriving DecidableEq, Repr

/-! ## Ethernet, PCIe, mailboxes (12, 13) -/

/-- An Ethernet port or sub-port (12 R289 to R295). -/
structure EthSt where
  outq : List Frame := []
  outBytes : Nat := 0
  paused : Nat := 0
  xoff : Nat := 0
deriving DecidableEq, Repr

/-- The states of a mailbox (13 HUB_MBX_CTL.STATE). -/
structure MbxSt where
  role : Role := .host
  session : Nat := 0
  seq : Nat := 0
  state : Nat := 0
  req : Request := { opcode := 0, verMaj := 0, verMin := 0, token := 0, payload := [] }
  reqLen : Nat := 0
  status : Nat := 0
  detail : Nat := 0
  deadline : Nat := 0
  rsp : List Byte := []
  doneTime : Nat := 0
  recvOrder : Nat := 0
deriving DecidableEq, Repr

/-- A staged transfer in progress (13 R321). -/
structure StageBuf where
  owner : MbxRef
  ownerSession : Nat
  total : Nat
  data : List Byte
  final : Bool
deriving DecidableEq, Repr

/-! ## The ledger (16) -/

/-- A committed group of the ledger, as one copy holds it (16 R387 to R390): the group's payload bytes, with the blob in
place of a descriptor, and the ring slot of its first record. [DEDUCED log 68] -/
structure LedgGroup where
  type : Nat
  key : Nat
  cseq : Nat
  payload : List Byte
  slot : Nat := 0
deriving DecidableEq, Repr

/-- A commit that waits for its phases (16 R390): what to do when it completes, and its age in TICK at the MRAM port (04 R98). -/
structure CommitReq where
  type : Nat
  key : Nat
  payload : List Byte
  rseq : Option Nat := none
  age : Nat := 0
deriving DecidableEq, Repr

/-- The ledger's stores and bookkeeping (16 R385 to R399). `norErase` and `norTime` are keyed by NOR block (erase count; time
of programming + 1), `norBad` lists blocks retired, `norOpen` is the block being filled and its bytes used, `norCkpt` the
time of the last CKPT copy to NOR. -/
structure Ledger where
  mr0 : List LedgGroup := []
  mr1 : List LedgGroup := []
  nor : List LedgGroup := []
  norQueue : List LedgGroup := []
  queue : List CommitReq := []
  nextCseq : Nat := 1
  untrusted : List (Nat × Nat) := []
  ringPos : Nat := 0
  runFence : Nat := 0
  runError : Nat := 0
  runSec : Nat := 0
  norErase : Tab Nat := []
  norTime : Tab Nat := []
  norBad : List Nat := []
  norOpen : Option (Nat × Nat) := none
  norCkpt : Option Nat := none
  hoursStby : Nat := 0
  cycleArmed : Bool := false
  boots : Nat := 0
  lanes : Tab LaneRec := []
  laneBase : Tab LaneRec := []
  coreFences : List (Nat × Nat) := []
  repairs : List Repair := []
  plan : Option (List Byte) := none
  inventory : List InvRec := []
deriving DecidableEq, Repr

/-- The OTP fuses and the firmware areas (16 R401 to R411). An empty `image` stands for the release the module came with, which
verifies. `activating` says that an activated image waits for the controller's restart; `recovering` that the boot ROM holds
no good image, `rmAllowed` that it takes the RM's answer, `rmOnly` that it takes no other; `recovered` that the image came by
recovery since READY. `overridden` says that a program has been loaded with CHECK_OVERRIDE since boot (16 R409). `nonce` and `unlock` name the session; `unlock` also the HOURS_MAIN that ends it. [DESIGN CHOICE log 11] -/
structure Trust where
  devId : Nat := 0
  rootHash : BitVec 384 := 0
  testHash : BitVec 384 := 0
  ownerHash : Tab Nat := []
  ownerActive : List Nat := []
  ownerRevoked : List Nat := []
  svnFuses : Nat := 0
  image : List Byte := []
  staged : List Byte := []
  version : Nat := 0
  svn : Nat := 0
  libVer : Nat := 0x10000
  floorVersion : Nat := 0
  floorSvn : Nat := 0
  ownerKey : List Byte := []
  recovering : Bool := false
  rmOnly : Bool := false
  rmAllowed : Bool := false
  recovered : Bool := false
  activating : Bool := false
  nonce : Option (Nat × BitVec 256) := none
  unlock : Option (Nat × Nat) := none
  attested : List Nat := []
  measurement : BitVec 384 := 0
  overridden : Bool := false
deriving DecidableEq, Repr

/-! ## Errors (17) -/

/-- One error record (17 R415), with its place's acknowledge and CSEQ (R417) and whether it is open (R419). -/
structure ErrRec where
  code : Nat
  sev : Nat
  multiple : Bool := false
  injected : Bool := false
  linked : Bool := false
  superseded : Bool := false
  escalated : Bool := false
  inst : Nat := 0
  count : Nat := 1
  rseq : Nat := 0
  rtime : Nat := 0
  lastRtime : Nat := 0
  info : Nat := 0
  info2 : Nat := 0
  chain : Nat := 0
  acked : Bool := false
  cseq : Nat := 0
  open_ : Bool := true
deriving DecidableEq, Repr

/-- A loaded die (17 R425). Mode 1 ONCE, 2 EVERY_N, 3 PERSISTENT. -/
structure Die where
  code : Nat
  mode : Nat
  n : Nat
  count : Nat
  filter : Bool
  inst : Nat
deriving DecidableEq, Repr

/-! ## The plan and the conductor (14, 15) -/

/-- A slice as the conductor holds it (01 R12, 03 R61, 14 R348, R349). -/
structure Slice where
  num : Nat
  r0 : Nat
  h : Nat
  c0 : Nat
  w : Nat
  links : Nat
  verify : Bool
  held : Bool := false
deriving DecidableEq, Repr

/-- What a procedure of the machine does when it has run: write a new slice, release one, shut a switch tray down, complete
commands with the status of the results, or delete a group, once no home has a live instance of it. [DEDUCED log 113] -/
inductive ProcKind where
  | alloc (slice : Nat)
  | release (slice : Nat)
  | trayOff (tray : Nat)
  | results
  | groupDelete (g : Nat)
deriving DecidableEq, Repr

/-- A procedure in progress (14 R348 to R350): the slices it drains; stage 3 waits for zero counts until `deadline`, stage 4
for the results of what was written, stage 5 for those of the table switch and its time `deadline`, stage 6 for those of a group's
deletion. `waiting` holds 1024·slice +
module in stage 3, 1024·DSEQ + agent in the others. `tags` are the commands that it completes, each a module and its mailbox; `failed` a status other than OK among
the results. -/
structure Proc where
  kind : ProcKind
  slices : List Nat := []
  stage : Nat
  waiting : List Nat := []
  deadline : Nat := 0
  failed : Nat := 0
  tags : List (Nat × MbxRef) := []
  rsp : List Byte := []
deriving DecidableEq, Repr

/-- A deadline of the machine (14 R338): what falls due at its rack time. -/
inductive Due where
  | flowStop
  | leakDecide (tray : Nat)
  | stage
  | rollcall
deriving DecidableEq, Repr

/-- An output of the machine that its agent has yet to acknowledge (14 R339, R357). -/
structure CondOut where
  dseq : Nat
  agent : Nat
  critical : Bool
  body : CmdBody
deriving DecidableEq, Repr

/-- A missing endpoint under verification (05 R121): the home, its slot and step, the rank, the group, and the deadline. -/
structure Verify where
  ep : Nat
  module : Nat
  slot : Nat
  step : Nat
  rank : Nat
  group : Nat
  deadline : Nat
  alive : Bool := false
deriving DecidableEq, Repr

/-- The conductor state machine, its log and its pair (14; 15 R367 to R381). The log: `ready` holds entries that may be run,
`committed` the last index the partner has committed, `seenInputs` the (AGENT, ASEQ) logged. `events` are (sequence, kind, unit). `outcomes` and `active` are
keyed 256·module + port; `pairs` 256·plane + 16·group + group, 1 DEGRADED, 2 UNREACHABLE; `endpoints` 1 DEGRADED, 2 ABSENT.
`bindings` are (module, slot, group). `stageWait` are stage actions not yet answered, 1024·DSEQ + agent. Compute trays are 0 to 31 and
switch trays 64 + t in `trayCaps`. `flowSince` is the time since which the flow readings disagree; `verifyUntil` the time by which the
probes of the start-up verification are answered. -/
structure Cond where
  log : List LogEntry := []
  ready : List LogEntry := []
  nextIdx : Nat := 1
  lastRun : Nat := 0
  committed : Nat := 0
  dseq : Nat := 1
  outs : List CondOut := []
  seenInputs : List (Nat × Nat) := []
  machineTime : Nat := 0
  dues : List (Nat × Due) := []
  events : List (Nat × Nat × Nat) := []
  nextEvent : Nat := 1
  outcomes : Tab Nat := []
  rollcallOpen : Bool := false
  active : List Nat := []
  pairs : Tab Nat := []
  endpoints : Tab Nat := []
  xlinkLost : List Nat := []
  slices : List Slice := []
  procs : List Proc := []
  groups : Tab Group := []
  bindings : List (Nat × Nat × Nat) := []
  fenced : List FenceUnit := []
  verifies : List Verify := []
  shards : Tab Shard := []
  stage : Nat := 0
  target : Nat := 0
  stopping : Bool := false
  degraded : Bool := false
  seqMbx : Option (Nat × MbxRef) := none
  stageWait : List Nat := []
  tgen : Nat := 0
  escVia : Tab Nat := []
  rmCap : Option Nat := none
  leaseExpiry : Nat := 0
  orphan : Bool := false
  trayCaps : Tab Nat := []
  trayPermit : List Nat := []
  trayOff : List Nat := []
  trayHostCap : Tab Nat := []
  moduleHostCap : Tab Nat := []
  keepDegraded : List Nat := []
  degradedTrays : List Nat := []
  leaks : List Nat := []
  policyCap : Option Nat := none
  noRedundancy : Bool := false
  pumps : Nat := 0
  flowLpm : Nat := 0
  flowP : Nat := 0
  flowDt : Nat := 0
  flowSince : Option Nat := none
  flowFaulted : Bool := false
  flowLow : Bool := false
  verifyUntil : Nat := 0
deriving DecidableEq, Repr, Inhabited

/-- This conductor as one of a pair (14 R339, R340, R355 to R363), apart from the machine's own state. `sent` are the outputs of the
last 4,096 DSEQs, newest first; `newDigests` those not yet sent to the partner, `peerDigests` those received for outputs still to come.
The lists of failures and divergences hold rack times. -/
structure Pair where
  sent : List CondOut := []
  newDigests : List (Nat × BitVec 128) := []
  peerDigests : List (Nat × BitVec 128) := []
  votes : List Nat := []
  refusals : List Nat := []
  takeoverTerm : Option Nat := none
  shadowMatches : Nat := 0
  shadowSince : Option Nat := none
  shadowFails : List Nat := []
  selftestFails : List Nat := []
  selftestAge : Nat := 0
  divergences : List Nat := []
  ckptIndex : Nat := 0
  lastHealth : List Byte := []
deriving DecidableEq, Repr

/-- The module as an agent of DRP (14 R336, R356, R357). `seen` keeps the DSEQs acted on, newest first, at most 4,096; `held` the
critical commands in their pairing window, oldest first. `heardPrimary` and `heardSecondary` are the rack times of the last
heartbeats. `switchTold` are the DSEQs of TABLE_SWITCH commands whose result waits for the switch, each with its GEN. `castle` is the CTERM and
sender of the TAKEOVER accepted. `resends` counts resends, keyed 2·SEQ, plus 1 for an INPUT. `releaseWait` lists released ports that wait for their
presence contact, `presMade` the rack time + 1 since which an input is made; `drainTold` the counts last reported of a held
slice: slice, entries, instances, streams; `probesOut` the start-up probes sent and their rack times. -/
structure Agent where
  acting : Nat := 0
  seen : List Nat := []
  held : List DrpMsg := []
  aseq : Nat := 1
  unacked : List (Nat × Report) := []
  resends : Tab Nat := []
  heardPrimary : Option Nat := none
  heardSecondary : Option Nat := none
  handbackSeen : Bool := false
  castle : Option (Nat × Nat) := none
  rxq : List DrpMsg := []
  epFenced : List Nat := []
  pendingSwitch : Option (Nat × Nat) := none
  switchTold : List (Nat × Nat) := []
  releaseWait : List Nat := []
  presMade : Tab Nat := []
  drainTold : List (Nat × Nat × Nat × Nat) := []
  probesOut : List (Nat × Nat) := []
deriving DecidableEq, Repr

/-- Power, thermal and leak state (15), beside the PWR registers. `cap` and the four fields after it are the last POWER CAP
command applied (15 R370); `ramping` is the rack time at which the release ramp began; `uj`, `usSource` and `usThermal` carry
what is below one unit of the always-running counters 0 to 2; `winSum` and `winN` hold the running 1 ms average; `testing` the
rope under test. -/
structure Power where
  cap : Option Nat := none
  capSource : Nat := 0
  capExpiry : Nat := 0
  survivalW : Nat := 0
  orphan : Option Nat := none
  thermal : Option Nat := none
  ramping : Option Nat := none
  brakeOrdered : Bool := false
  uv : Bool := false
  duty : Nat := 16
  cmdRate : Nat := 16
  depositRate : Nat := 16
  pacing : Nat := 8
  estimate : Nat := 0
  calib : Int := 0
  uj : Nat := 0
  usSource : Nat := 0
  usThermal : Nat := 0
  winSum : Nat := 0
  winN : Nat := 0
  temps : Tab Nat := []
  faultedSensors : List Nat := []
  brakeTime : Nat := 0
  testing : Option Nat := none
  ropeOhms : Tab Nat := []
deriving DecidableEq, Repr

/-- Clocks, pins, power domains and resets (19), beside HUB_ID. [DESIGN CHOICE log 131] -/
structure Physical where
  refclk : Bool := true
  trayMainEn : Bool := false
  mainPg : Bool := false
  standby : Bool := true
  vddCore : Nat := 0
  fusedMv : Nat := 800
  pwrFail : Bool := false
  mainRstLow : Bool := false
  resetKind : Option Bool := none
  resetWaiting : Option Bool := none
  leakCut : Bool := false
  fatal : Bool := false
  cdcOverrun : List (Nat × Nat) := []
  cdcIdle : List (Nat × Nat) := []
  tapIr : Nat := 0
  boundary : List Bool := []
  scanDrive : Bool := false
  timeOffset : Int := 0
  timeSlewPpm : Int := 0
  ptpOffset : Int := 0
  timeSet : Bool := false
  timeAcc : Int := 0
  pcieUp : Bool := false
  pcieGtps : Nat := 0
  pcieWidth : Nat := 0
deriving DecidableEq, Repr

/-! ## What leaves the module -/

/-- Everything that leaves the module at its pins and links, in order. -/
inductive Out where
  | slot (port : Nat) (s : Slot)
  | trainWord (port lane : Nat) (w : BitVec 64)
  | caps (port : Nat) (block : Flit)
  | codeword (port : Nat) (levels : List (List Nat))
  | drp (path : Bool) (dest : Nat) (m : DrpMsg)
  | drpCast (kind cterm from_ dest arg : Nat)
  | pairForward (e : LogEntry)
  | pairAck (index : Nat)
  | pairDigests (ds : List (Nat × BitVec 128))
  | pairEntries (es : List LogEntry)
  | pairCkpt (index : Nat)
  | heartbeat (dest cterm : Nat)
  | health (mode cterm log ckpt : Nat) (pass : Bool) (div : Nat) (offset : Int)
  | ack (agent seq : Nat)
  | inputAck (agent aseq : Nat)
  | timeStamp (port t : Nat)
  | report (r : Report) (aseq : Nat)
  | msix (v : Nat)
  | mbxMsg (mb : MbxRef) (seq token state status detail : Nat) (rsp : List Byte)
  | peerRequest (module : Nat) (req : Request)
  | condAnswer (module : Nat) (mb : MbxRef) (status detail : Nat) (rsp : List Byte)
  | eth (port sub : Nat) (f : Frame)
  | pfc (port sub prio : Nat) (xoff : Bool)
  | pcieData (bytes : List Byte) (poisoned : Bool)
  | pcieUr
  | hostWrite (addr : Nat) (bytes : List Byte) (poisoned : Bool)
  | hostStatus (addr status : Nat)
  | pin (name : String) (level : Bool)
  | event (kind unit : Nat)
  | spdm (bytes : List Byte)
  | recoveryAsk (devId tray : Nat)
  | recoveryAnswer (devId : Nat) (image : List Byte)
  | vout (mv : Nat)
  | tdo (bits : List Bool)
  | scan (kind : Nat) (cells : List Bool)
  | ptpReply
  | pingReply (port sub : Nat) (f : Frame)
  | probe (port : Nat)
  | helper (home : Nat) (r : HelperReport)
  | pulse (port : Nat)
deriving DecidableEq, Repr

/-! ## The whole state -/

/-- The module. `regs` is the register file of Machine/Regs.lean (keyed by register and instance; absent = the reset
value of its table); `mem` is fabric memory as (address, byte) pairs, unlisted bytes zero (10 R242); `banks` is keyed
2^40·quadrant + bank space address / 64. `local` holds packets whose destination is the module (02 R38), oldest first.
`fresh` counts the free values drawn, and `carried` the entries of `out` whose DRP messages the hub has handed to the switch core (14 R336);
both are the model's own fields. -/
structure State where
  pending : List Instr := []
  now : Nat := 0
  tick : Nat := 0
  fresh : Nat := 0
  out : List Out := []
  carried : Nat := 0
  regs : Tab Word := []
  plane : Bool := false
  tray : Nat := 0
  plan : Plan := {}
  planLive : Bool := false
  planHash : BitVec 384 := 0
  ports : Tab PortSt := []
  lanes : Tab LaneSt := []
  tx : Tab LinkTx := []
  lines : Tab LineTx := []
  rx : Tab LinkRx := []
  inq : Tab (List InPkt) := []
  outq : Tab (List OutPkt) := []
  vcbuf : Tab VcBuf := []
  qcharge : Tab Nat := []
  shared : Tab Nat := []
  arb : Tab Nat := []
  tables : Tables := {}
  shadow : Tables := {}
  escVia : Tab Nat := []
  lfsr : Tab (BitVec 32) := []
  inFlows : Tab InFlow := []
  egFlows : Tab EgFlow := []
  buckets : Tab Buckets := []
  local_ : List LocalPkt := []
  cellWait : List (Nat × Nat) := []
  notices : List (Nat × Packet) := []
  heldPkts : List HeldPkt := []
  unitEvents : List UnitEvent := []
  nextCast : Nat := 0
  bindCount : Nat := 0
  instCount : Nat := 0
  topDown : Tab Nat := []
  waitCmds : List (MbxRef × Nat × Nat) := []
  restarting : Bool := false
  verifySlices : List Nat := []
  groups : Tab Group := []
  slots : Tab SlotSt := []
  bindWaits : Tab BindWait := []
  insts : Tab Instance := []
  banks : Tab BankWord := []
  retired : List Nat := []
  spares : List Repair := []
  symTimes : List (Nat × Nat) := []
  ueWords : List (Nat × Nat) := []
  retireAsk : List (Nat × Nat × Nat) := []
  recarve : List Nat := []
  outOfService : List Nat := []
  cdcOut : List Nat := []
  dmaCount : Nat := 0
  ctxs : Tab PipCtx := []
  coreFenced : List Nat := []
  rrCtx : Tab Nat := []
  programs : List Program := []
  mem : List Host.Cell := []
  memPoison : List Nat := []
  memReads : List MemRead := []
  nextMemTag : Nat := 0
  ownReqs : List Nat := []
  ownRsps : List (Nat × Nat × List Byte) := []
  scrubPos : Tab Nat := []
  scrubClock : Tab Nat := []
  scrubMark : Tab Nat := []
  refreshes : Tab Nat := []
  streams : Tab StreamEntry := []
  streamShadow : Tab StreamEntry := []
  runs : Tab StreamRun := []
  sepoch : Nat := 0
  streamSwitch : Option Nat := none
  streamHeld : List Nat := []
  streamTurn : Tab Nat := []
  eth : Tab EthSt := []
  ethAddr : Tab Nat := []
  dmaIdx : Tab Nat := []
  dmaRecheck : List Nat := []
  msixTable : Tab Word := []
  pba : BitVec 64 := 0
  mbx : Tab MbxSt := []
  mbxImage : Tab Word := []
  stored : List (Nat × MbxSt) := []
  hello : List (Nat × Nat) := []
  grants : Tab Nat := []
  stages : Tab StageBuf := []
  recvCount : Nat := 0
  errs : Tab ErrRec := []
  rseq : Nat := 1
  dice : List Die := []
  ledger : Ledger := {}
  trust : Trust := {}
  cond : Cond := {}
  ckpts : List (Nat × Cond) := []
  pair : Pair := {}
  agent : Agent := {}
  power : Power := {}
  phys : Physical := {}
  cnt : Tab Nat := []
  mainSince : Nat := 0
  cntHeld : Tab Nat := []
  always : Tab Nat := []
  linkCnt : Tab Nat := []
  ssSeq : Nat := 0
  ssBusy : Option Nat := none
  ssSkippedBefore : Bool := false
  ssRecord : List Byte := []
  ssPending : Option (Word × Word) := none
  mismatchHours : List Nat := []
deriving DecidableEq, Repr

/-- The module right after a STANDBY reset (19 R451), its ledger empty, no plan yet. [DESIGN CHOICE log 8] -/
def State.reset : State := {}

/-- No command of this machine ends in a fault: errors are records and status bits (17 R413). The one constructor is for
an access the module has no way to make. -/
inductive Fault where
  /-- Raised by no meaning; kept because the host's interface asks for a type. Safe. -/
  | none
deriving DecidableEq, Repr

/-- Why a command has no answer in this model. -/
inductive Refusal where
  /-- Answered by an arm of Dispatch whose command has no meaning yet. Safe: the run stops. -/
  | notModelled (mnemonic : String)
deriving DecidableEq, Repr

end Sys2Proof.Machine
end

