-- ==== Sys2Proof/Machine/Tab.lean ====
section
/-! DEFINITION. Sparse tables: the reads and writes of a `Tab`, which keep its keys rising and list no entry equal to
the table's default, so that equal contents are equal data. -/

namespace Sys2Proof.Machine

/-- The value at key `k`; an absent key reads as `d`. -/
def Tab.getD {α : Type} (t : Tab α) (k : Nat) (d : α) : α :=
  match t with
  | [] => d
  | (j, v) :: r => if k = j then v else if k < j then d else Tab.getD r k d

/-- Write `v` at key `k` of a table whose default is `d`; writing the default removes the entry. -/
def Tab.setD {α : Type} [DecidableEq α] (t : Tab α) (k : Nat) (d v : α) : Tab α :=
  match t with
  | [] => if v = d then [] else [(k, v)]
  | (j, u) :: r =>
    if k < j then (if v = d then (j, u) :: r else (k, v) :: (j, u) :: r)
    else if k = j then (if v = d then r.filter (fun e => k < e.1) else (k, v) :: r)
    else (j, u) :: Tab.setD r k d v

/-- The canonical form: keys strictly rising, no entry equal to the default. -/
def Tab.wf {α : Type} [DecidableEq α] (d : α) : Tab α → Bool
  | [] => true
  | [(_, v)] => v ≠ d
  | (j, v) :: (k, u) :: r => v ≠ d && j < k && Tab.wf d ((k, u) :: r)

/-- Change the value at key `k`. -/
def Tab.mod {α : Type} [DecidableEq α] (t : Tab α) (k : Nat) (d : α) (f : α → α) : Tab α :=
  t.setD k d (f (t.getD k d))

/-- A table that holds `f k` at each of the keys `ks`. -/
def Tab.ofKeys {α : Type} [DecidableEq α] (d : α) (ks : List Nat) (f : Nat → α) : Tab α :=
  ks.foldl (fun t k => t.setD k d (f k)) []

end Sys2Proof.Machine
end

