-- ==== Sys2Proof/Machine/Regs.lean ====
section
/-! DEFINITION. The register file: every register of the block tables of 02 to 19, its place (13 R308), its fields with
access type, change class and reset value, and the reads and writes of fields. A field the chapters derive from other
state (PIP_STAT, QBANK_RETMAP and others) is computed where it is read (Machine/RegRead.lean). -/

namespace Sys2Proof.Machine

/-- The register blocks of 13 R308 and the CNT window of 18. -/
inductive Block where
  | hubId | hubMbx | hubIrq | hubPcie | cnt | err | lane | port | eth | qsw | qbank | pip | memc | strm | pwr | ledg | cond
deriving DecidableEq, Repr

/-- The block codes of 13 R308. -/
def Block.ofCode : Nat → Option Block
  | 0x01 => some .hubId
  | 0x02 => some .hubMbx
  | 0x03 => some .hubIrq
  | 0x04 => some .hubPcie
  | 0x10 => some .cnt
  | 0x11 => some .err
  | 0x20 => some .lane
  | 0x21 => some .port
  | 0x22 => some .eth
  | 0x30 => some .qsw
  | 0x31 => some .qbank
  | 0x32 => some .pip
  | 0x33 => some .memc
  | 0x34 => some .strm
  | 0x40 => some .pwr
  | 0x41 => some .ledg
  | 0x42 => some .cond
  | _ => none

/-- How many instances a block has (13 R308). -/
def Block.instances : Block → Nat
  | .hubId => 1
  | .hubMbx => 1
  | .hubIrq => 1
  | .hubPcie => 1
  | .cnt => 1
  | .err => 1
  | .lane => 144
  | .port => 144
  | .eth => 8
  | .qsw => 4
  | .qbank => 4
  | .pip => 4
  | .memc => 4
  | .strm => 4
  | .pwr => 1
  | .ledg => 1
  | .cond => 1

/-- Whether a block lies in the main power domain (13 R308, R309; 19 R443). -/
def Block.inMain : Block → Bool
  | .lane | .port | .eth | .qsw | .qbank | .pip | .memc | .strm => true
  | .hubId | .hubMbx | .hubIrq | .hubPcie | .cnt | .err | .pwr | .ledg | .cond => false

/-- The registers. -/
inductive Reg where
  | hubIdStat
  | hubIdReset
  | hubMbxCtl
  | hubIrqStat
  | hubIrqMask
  | hubPcieWin
  | hubPcieDmactl
  | hubPcieDmaring
  | cntSscfg
  | cntSsbase
  | cntSsptr
  | cntUstat
  | cntSel
  | cntVal
  | errStat
  | errDrop
  | errCfg
  | errInjsel
  | errInjstat
  | laneStat
  | laneCtl
  | lanePrbserr
  | laneFechist
  | laneSymerr
  | portLlcfg
  | portLlstat
  | portSlice
  | portIngctl
  | ethCfg
  | ethGatecfg
  | ethStat
  | qswTgen
  | qswEsccfg
  | qswSpraycfg
  | qswE2ecfg
  | qswE2ecfg2
  | qswStat
  | qswBufcfg
  | qswBufrsv
  | qswBufarb
  | qswRate
  | qbankTop
  | qbankRepaircfg
  | qbankStat
  | qbankRetmap
  | pipDealcfg
  | pipFence
  | pipStat
  | memcStat
  | memcTop
  | memcScrub
  | strmEpoch
  | strmStat
  | pwrStat
  | pwrTherm
  | pwrLeak
  | pwrCfg
  | pwrBrake
  | ledgStat
  | ledgArb
  | ledgHours
  | ledgFloor
  | ledgWear
  | condStat
  | condSelftest
  | condPres
deriving DecidableEq, Repr

/-- The access types of 13 R325. -/
inductive Access where
  | rw | ro | w1c | w1s | wo
deriving DecidableEq, Repr

/-- The change classes of 00 R5 and 13 R326 to R328; `none` for fields that no write changes. -/
inductive Change where
  | none | s | e | l
deriving DecidableEq, Repr

/-- One field of a register. -/
structure FieldInfo where
  lo : Nat
  w : Nat
  acc : Access
  cls : Change
  reset : Nat
deriving DecidableEq, Repr

/-- A register's place: its block, its offset, and for an array its stride and its number of elements. -/
structure RegInfo where
  block : Block
  off : Nat
  stride : Nat
  count : Nat
  width : Nat
  fields : List FieldInfo
deriving DecidableEq, Repr

/-- The register tables of the chapters. Reserved bits are in no field: they read as zero and discard writes (00 R4). [DESIGN CHOICE log 8] -/
def Reg.info : Reg → RegInfo
  | .hubIdStat => ⟨.hubId, 0x8, 0, 1, 64, [
      ⟨0, 1, .ro, .none, 0⟩,
      ⟨1, 3, .ro, .none, 0⟩,
      ⟨4, 1, .ro, .none, 0⟩,
      ⟨5, 1, .w1c, .none, 0⟩,
      ⟨8, 8, .ro, .none, 0⟩,
      ⟨16, 8, .ro, .none, 0⟩]⟩
  | .hubIdReset => ⟨.hubId, 0x10, 0, 1, 32, [
      ⟨0, 1, .wo, .l, 0⟩,
      ⟨1, 1, .wo, .l, 0⟩,
      ⟨8, 1, .ro, .none, 0⟩,
      ⟨9, 1, .ro, .none, 0⟩]⟩
  | .hubMbxCtl => ⟨.hubMbx, 0x0, 4096, 32, 64, [
      ⟨0, 1, .rw, .l, 0⟩,
      ⟨1, 3, .ro, .none, 0⟩,
      ⟨4, 1, .rw, .l, 0⟩,
      ⟨5, 1, .w1c, .none, 0⟩,
      ⟨8, 8, .rw, .l, 0⟩]⟩
  | .hubIrqStat => ⟨.hubIrq, 0x0, 0, 1, 64, [
      ⟨0, 46, .w1c, .none, 0⟩]⟩
  | .hubIrqMask => ⟨.hubIrq, 0x8, 0, 1, 64, [
      ⟨0, 46, .rw, .l, 0x3fffffffffff⟩]⟩
  | .hubPcieWin => ⟨.hubPcie, 0x0, 0, 1, 32, [
      ⟨0, 10, .rw, .l, 0⟩]⟩
  | .hubPcieDmactl => ⟨.hubPcie, 0x20, 16, 8, 64, [
      ⟨0, 1, .w1s, .l, 0⟩,
      ⟨8, 16, .rw, .s, 0⟩]⟩
  | .hubPcieDmaring => ⟨.hubPcie, 0x28, 16, 8, 64, [
      ⟨0, 64, .rw, .s, 0⟩]⟩
  | .cntSscfg => ⟨.cnt, 0x0, 0, 1, 64, [
      ⟨0, 1, .rw, .l, 0⟩,
      ⟨1, 1, .rw, .s, 0⟩,
      ⟨2, 10, .rw, .s, 1023⟩,
      ⟨16, 29, .rw, .s, 100⟩,
      ⟨45, 16, .rw, .s, 16⟩]⟩
  | .cntSsbase => ⟨.cnt, 0x8, 0, 1, 64, [
      ⟨0, 64, .rw, .s, 0⟩]⟩
  | .cntSsptr => ⟨.cnt, 0x10, 0, 1, 64, [
      ⟨0, 16, .ro, .none, 0⟩,
      ⟨16, 32, .ro, .none, 0⟩,
      ⟨48, 1, .w1c, .none, 0⟩]⟩
  | .cntUstat => ⟨.cnt, 0x10000, 256, 274, 32, [
      ⟨0, 1, .w1c, .none, 0⟩,
      ⟨1, 1, .ro, .none, 0⟩]⟩
  | .cntSel => ⟨.cnt, 0x10010, 0, 2192, 64, [
      ⟨0, 8, .rw, .s, 0⟩,
      ⟨8, 2, .rw, .s, 0⟩,
      ⟨10, 1, .rw, .s, 0⟩,
      ⟨11, 1, .rw, .l, 0⟩,
      ⟨12, 1, .wo, .l, 0⟩,
      ⟨13, 1, .w1c, .none, 0⟩,
      ⟨16, 16, .rw, .s, 0⟩]⟩
  | .cntVal => ⟨.cnt, 0x10080, 0, 2192, 64, [
      ⟨0, 48, .ro, .none, 0⟩]⟩
  | .errStat => ⟨.err, 0x0, 0, 1, 64, [
      ⟨0, 9, .ro, .none, 0⟩,
      ⟨16, 9, .ro, .none, 511⟩,
      ⟨32, 10, .ro, .none, 0⟩,
      ⟨42, 1, .ro, .none, 0⟩]⟩
  | .errDrop => ⟨.err, 0x8, 0, 1, 64, [
      ⟨0, 32, .ro, .none, 0⟩,
      ⟨32, 16, .ro, .none, 0⟩]⟩
  | .errCfg => ⟨.err, 0x10, 0, 1, 32, [
      ⟨0, 14, .rw, .l, 100⟩]⟩
  | .errInjsel => ⟨.err, 0x18, 0, 1, 32, [
      ⟨0, 16, .rw, .l, 0⟩,
      ⟨16, 1, .rw, .l, 0⟩]⟩
  | .errInjstat => ⟨.err, 0x20, 0, 1, 64, [
      ⟨0, 5, .ro, .none, 0⟩,
      ⟨5, 1, .ro, .none, 0⟩,
      ⟨32, 32, .ro, .none, 0⟩]⟩
  | .laneStat => ⟨.lane, 0x0, 0, 1, 32, [
      ⟨0, 3, .ro, .none, 0⟩,
      ⟨3, 1, .ro, .none, 0⟩,
      ⟨4, 8, .ro, .none, 0⟩,
      ⟨12, 3, .ro, .none, 0⟩,
      ⟨15, 1, .ro, .none, 0⟩,
      ⟨16, 4, .ro, .none, 0⟩,
      ⟨20, 1, .ro, .none, 0⟩,
      ⟨21, 7, .ro, .none, 0⟩]⟩
  | .laneCtl => ⟨.lane, 0x4, 0, 1, 32, [
      ⟨0, 1, .rw, .l, 1⟩,
      ⟨1, 2, .rw, .s, 0⟩,
      ⟨3, 4, .rw, .s, 8⟩,
      ⟨7, 1, .wo, .l, 0⟩,
      ⟨8, 8, .rw, .l, 40⟩]⟩
  | .lanePrbserr => ⟨.lane, 0x10, 8, 4, 64, [
      ⟨0, 48, .ro, .none, 0⟩,
      ⟨48, 1, .ro, .none, 0⟩]⟩
  | .laneFechist => ⟨.lane, 0x40, 8, 17, 64, [
      ⟨0, 48, .ro, .none, 0⟩]⟩
  | .laneSymerr => ⟨.lane, 0xC8, 8, 4, 64, [
      ⟨0, 48, .ro, .none, 0⟩]⟩
  | .portLlcfg => ⟨.port, 0x100, 0, 1, 32, [
      ⟨0, 16, .rw, .s, 1800⟩,
      ⟨16, 4, .rw, .s, 8⟩]⟩
  | .portLlstat => ⟨.port, 0x104, 0, 1, 32, [
      ⟨0, 2, .ro, .none, 0⟩,
      ⟨2, 2, .ro, .none, 0⟩,
      ⟨4, 4, .ro, .none, 0⟩,
      ⟨8, 1, .w1c, .none, 0⟩,
      ⟨9, 1, .w1c, .none, 0⟩,
      ⟨10, 1, .w1c, .none, 0⟩,
      ⟨16, 16, .ro, .none, 0⟩]⟩
  | .portSlice => ⟨.port, 0x110, 0, 1, 32, [
      ⟨0, 8, .rw, .e, 0⟩,
      ⟨8, 1, .rw, .e, 0⟩]⟩
  | .portIngctl => ⟨.port, 0x114, 0, 1, 32, [
      ⟨0, 1, .rw, .l, 0⟩]⟩
  | .ethCfg => ⟨.eth, 0x0, 0, 1, 32, [
      ⟨0, 2, .rw, .s, 0⟩,
      ⟨2, 8, .rw, .s, 0⟩,
      ⟨10, 10, .rw, .l, 256⟩]⟩
  | .ethGatecfg => ⟨.eth, 0x4, 0, 1, 32, [
      ⟨0, 16, .rw, .s, 0xb862⟩]⟩
  | .ethStat => ⟨.eth, 0x10, 0, 1, 64, [
      ⟨0, 2, .ro, .none, 0⟩,
      ⟨2, 1, .w1c, .none, 0⟩,
      ⟨16, 16, .ro, .none, 0⟩,
      ⟨32, 16, .ro, .none, 0⟩,
      ⟨48, 16, .ro, .none, 0⟩]⟩
  | .qswTgen => ⟨.qsw, 0x0, 0, 1, 32, [
      ⟨0, 16, .rw, .e, 0⟩,
      ⟨16, 1, .ro, .none, 0⟩]⟩
  | .qswEsccfg => ⟨.qsw, 0x10, 0, 1, 32, [
      ⟨0, 16, .rw, .l, 3600⟩]⟩
  | .qswSpraycfg => ⟨.qsw, 0x14, 0, 1, 32, [
      ⟨0, 32, .rw, .s, 1⟩]⟩
  | .qswE2ecfg => ⟨.qsw, 0x18, 0, 1, 32, [
      ⟨0, 15, .rw, .s, 2000⟩,
      ⟨16, 15, .rw, .s, 5000⟩]⟩
  | .qswE2ecfg2 => ⟨.qsw, 0x1C, 0, 1, 32, [
      ⟨0, 4, .rw, .s, 8⟩,
      ⟨8, 15, .rw, .s, 1024⟩,
      ⟨24, 8, .rw, .s, 10⟩]⟩
  | .qswStat => ⟨.qsw, 0x20, 0, 1, 32, [
      ⟨0, 1, .w1c, .none, 0⟩,
      ⟨1, 1, .w1c, .none, 0⟩]⟩
  | .qswBufcfg => ⟨.qsw, 0x30, 0, 1, 32, [
      ⟨0, 3, .rw, .l, 1⟩,
      ⟨3, 3, .rw, .l, 2⟩,
      ⟨6, 3, .rw, .l, 1⟩,
      ⟨9, 3, .rw, .l, 5⟩,
      ⟨12, 3, .rw, .l, 6⟩,
      ⟨15, 3, .rw, .l, 3⟩,
      ⟨24, 8, .rw, .l, 128⟩]⟩
  | .qswBufrsv => ⟨.qsw, 0x34, 0, 1, 32, [
      ⟨0, 8, .rw, .s, 65⟩,
      ⟨8, 8, .rw, .s, 16⟩]⟩
  | .qswBufarb => ⟨.qsw, 0x3C, 0, 1, 32, [
      ⟨0, 16, .rw, .l, 1000⟩]⟩
  | .qswRate => ⟨.qsw, 0x100, 8, 32, 64, [
      ⟨0, 12, .rw, .l, 64⟩,
      ⟨16, 12, .rw, .l, 1024⟩,
      ⟨32, 12, .rw, .l, 32⟩,
      ⟨48, 12, .rw, .l, 512⟩]⟩
  | .qbankTop => ⟨.qbank, 0x0, 0, 1, 32, [
      ⟨0, 14, .ro, .none, 8192⟩,
      ⟨16, 14, .ro, .none, 8192⟩,
      ⟨31, 1, .ro, .none, 0⟩]⟩
  | .qbankRepaircfg => ⟨.qbank, 0x4, 0, 1, 32, [
      ⟨0, 8, .rw, .l, 16⟩,
      ⟨8, 4, .rw, .l, 2⟩,
      ⟨12, 1, .rw, .l, 1⟩]⟩
  | .qbankStat => ⟨.qbank, 0x8, 0, 1, 32, [
      ⟨0, 5, .ro, .none, 0⟩,
      ⟨5, 4, .ro, .none, 0⟩,
      ⟨9, 7, .ro, .none, 0⟩,
      ⟨16, 8, .ro, .none, 0⟩,
      ⟨24, 1, .ro, .none, 0⟩]⟩
  | .qbankRetmap => ⟨.qbank, 0x40, 4, 16, 32, [
      ⟨0, 32, .ro, .none, 0⟩]⟩
  | .pipDealcfg => ⟨.pip, 0x0, 0, 1, 32, [
      ⟨0, 16, .rw, .l, 2000⟩,
      ⟨16, 2, .rw, .l, 3⟩,
      ⟨18, 2, .rw, .l, 2⟩]⟩
  | .pipFence => ⟨.pip, 0x4, 0, 1, 32, [
      ⟨0, 32, .ro, .none, 0⟩]⟩
  | .pipStat => ⟨.pip, 0x8, 0, 1, 32, [
      ⟨0, 6, .ro, .none, 32⟩,
      ⟨6, 8, .ro, .none, 0⟩,
      ⟨16, 11, .ro, .none, 0⟩,
      ⟨27, 1, .ro, .none, 0⟩]⟩
  | .memcStat => ⟨.memc, 0x0, 0, 1, 32, [
      ⟨0, 16, .ro, .none, 0⟩,
      ⟨16, 2, .ro, .none, 0⟩,
      ⟨18, 1, .ro, .none, 1⟩]⟩
  | .memcTop => ⟨.memc, 0x8, 0, 1, 64, [
      ⟨0, 48, .ro, .none, 0⟩]⟩
  | .memcScrub => ⟨.memc, 0x10, 0, 1, 32, [
      ⟨0, 16, .rw, .l, 5000⟩,
      ⟨16, 8, .rw, .l, 24⟩,
      ⟨24, 1, .rw, .l, 1⟩]⟩
  | .strmEpoch => ⟨.strm, 0x0, 0, 1, 64, [
      ⟨0, 16, .ro, .none, 0⟩,
      ⟨16, 1, .ro, .none, 0⟩,
      ⟨32, 32, .ro, .none, 0⟩]⟩
  | .strmStat => ⟨.strm, 0x8, 0, 1, 32, [
      ⟨0, 5, .ro, .none, 0⟩,
      ⟨5, 9, .ro, .none, 0⟩,
      ⟨14, 1, .ro, .none, 0⟩]⟩
  | .pwrStat => ⟨.pwr, 0x0, 0, 1, 64, [
      ⟨0, 11, .ro, .none, 1500⟩,
      ⟨11, 4, .ro, .none, 0⟩,
      ⟨15, 1, .ro, .none, 0⟩,
      ⟨16, 1, .ro, .none, 0⟩,
      ⟨17, 1, .ro, .none, 0⟩,
      ⟨18, 1, .ro, .none, 0⟩,
      ⟨19, 1, .ro, .none, 0⟩,
      ⟨32, 11, .ro, .none, 0⟩]⟩
  | .pwrTherm => ⟨.pwr, 0x8, 0, 1, 64, [
      ⟨0, 8, .ro, .none, 0⟩,
      ⟨8, 4, .ro, .none, 0⟩,
      ⟨12, 7, .ro, .none, 0⟩,
      ⟨19, 1, .ro, .none, 0⟩]⟩
  | .pwrLeak => ⟨.pwr, 0x10, 0, 1, 32, [
      ⟨0, 8, .ro, .none, 0⟩,
      ⟨8, 4, .ro, .none, 0⟩,
      ⟨12, 4, .ro, .none, 0⟩,
      ⟨16, 4, .ro, .none, 0⟩]⟩
  | .pwrCfg => ⟨.pwr, 0x18, 0, 1, 32, [
      ⟨0, 11, .rw, .s, 1000⟩,
      ⟨11, 11, .rw, .s, 900⟩,
      ⟨22, 8, .rw, .s, 176⟩]⟩
  | .pwrBrake => ⟨.pwr, 0x20, 0, 1, 64, [
      ⟨0, 32, .ro, .none, 0⟩,
      ⟨32, 1, .w1c, .none, 0⟩,
      ⟨48, 16, .ro, .none, 0⟩]⟩
  | .ledgStat => ⟨.ledg, 0x0, 0, 1, 64, [
      ⟨0, 1, .ro, .none, 0⟩,
      ⟨1, 1, .ro, .none, 0⟩,
      ⟨2, 1, .ro, .none, 0⟩,
      ⟨3, 1, .ro, .none, 0⟩,
      ⟨4, 2, .ro, .none, 0⟩,
      ⟨8, 8, .ro, .none, 0⟩,
      ⟨16, 48, .ro, .none, 0⟩]⟩
  | .ledgArb => ⟨.ledg, 0x8, 0, 1, 32, [
      ⟨0, 16, .rw, .l, 5000⟩]⟩
  | .ledgHours => ⟨.ledg, 0x10, 0, 1, 64, [
      ⟨0, 32, .ro, .none, 0⟩,
      ⟨32, 16, .ro, .none, 0⟩,
      ⟨48, 16, .ro, .none, 0⟩]⟩
  | .ledgFloor => ⟨.ledg, 0x18, 0, 1, 64, [
      ⟨0, 8, .ro, .none, 0⟩,
      ⟨8, 32, .ro, .none, 0⟩,
      ⟨40, 3, .ro, .none, 0⟩,
      ⟨43, 1, .ro, .none, 0⟩]⟩
  | .ledgWear => ⟨.ledg, 0x20, 0, 1, 64, [
      ⟨0, 32, .ro, .none, 0⟩,
      ⟨32, 24, .ro, .none, 0⟩]⟩
  | .condStat => ⟨.cond, 0x0, 0, 1, 64, [
      ⟨0, 2, .ro, .none, 0⟩,
      ⟨2, 3, .ro, .none, 0⟩,
      ⟨5, 3, .ro, .none, 0⟩,
      ⟨16, 16, .ro, .none, 0⟩,
      ⟨32, 32, .ro, .none, 0⟩]⟩
  | .condSelftest => ⟨.cond, 0x8, 0, 1, 32, [
      ⟨0, 16, .rw, .l, 5000⟩,
      ⟨16, 1, .ro, .none, 0⟩,
      ⟨17, 7, .ro, .none, 0⟩]⟩
  | .condPres => ⟨.cond, 0x10, 0, 1, 32, [
      ⟨0, 16, .ro, .none, 0⟩,
      ⟨16, 16, .ro, .none, 0⟩]⟩

/-- The value a register holds at reset: each field's reset value in its place. -/
def Reg.resetValue (r : Reg) : Word :=
  r.info.fields.foldl (fun v f => v ||| (BitVec.ofNat 64 f.reset <<< f.lo)) 0

/-- A named field: its register and its place in it. -/
structure Fld where
  reg : Reg
  lo : Nat
  w : Nat
deriving DecidableEq, Repr

/-! hubIdStat: 13, 19. -/
def F.hubIdStatReady : Fld := ⟨.hubIdStat, 0, 1⟩
def F.hubIdStatBoot : Fld := ⟨.hubIdStat, 1, 3⟩
def F.hubIdStatMainOn : Fld := ⟨.hubIdStat, 4, 1⟩
def F.hubIdStatBarWriteDrop : Fld := ⟨.hubIdStat, 5, 1⟩
def F.hubIdStatRestarts : Fld := ⟨.hubIdStat, 8, 8⟩
def F.hubIdStatMismatches : Fld := ⟨.hubIdStat, 16, 8⟩
/-! hubIdReset: 13, 19. -/
def F.hubIdResetGo : Fld := ⟨.hubIdReset, 0, 1⟩
def F.hubIdResetKeepmem : Fld := ⟨.hubIdReset, 1, 1⟩
def F.hubIdResetRunning : Fld := ⟨.hubIdReset, 8, 1⟩
def F.hubIdResetLastKeepmem : Fld := ⟨.hubIdReset, 9, 1⟩
/-! hubMbxCtl: 13. -/
def F.hubMbxCtlOwn : Fld := ⟨.hubMbxCtl, 0, 1⟩
def F.hubMbxCtlState : Fld := ⟨.hubMbxCtl, 1, 3⟩
def F.hubMbxCtlIrqEn : Fld := ⟨.hubMbxCtl, 4, 1⟩
def F.hubMbxCtlWriteOwned : Fld := ⟨.hubMbxCtl, 5, 1⟩
def F.hubMbxCtlSeq : Fld := ⟨.hubMbxCtl, 8, 8⟩
/-! hubIrqStat: 13. -/
def F.hubIrqStatPending : Fld := ⟨.hubIrqStat, 0, 46⟩
/-! hubIrqMask: 13. -/
def F.hubIrqMaskMask : Fld := ⟨.hubIrqMask, 0, 46⟩
/-! hubPcieWin: 12. -/
def F.hubPcieWinBase : Fld := ⟨.hubPcieWin, 0, 10⟩
/-! hubPcieDmactl: 12. -/
def F.hubPcieDmactlRun : Fld := ⟨.hubPcieDmactl, 0, 1⟩
def F.hubPcieDmactlRingSize : Fld := ⟨.hubPcieDmactl, 8, 16⟩
/-! hubPcieDmaring: 12. -/
def F.hubPcieDmaringBase : Fld := ⟨.hubPcieDmaring, 0, 64⟩
/-! cntSscfg: 18. -/
def F.cntSscfgEn : Fld := ⟨.cntSscfg, 0, 1⟩
def F.cntSscfgDest : Fld := ⟨.cntSscfg, 1, 1⟩
def F.cntSscfgSections : Fld := ⟨.cntSscfg, 2, 10⟩
def F.cntSscfgPeriod : Fld := ⟨.cntSscfg, 16, 29⟩
def F.cntSscfgSlots : Fld := ⟨.cntSscfg, 45, 16⟩
/-! cntSsbase: 18. -/
def F.cntSsbaseBase : Fld := ⟨.cntSsbase, 0, 64⟩
/-! cntSsptr: 18. -/
def F.cntSsptrProd : Fld := ⟨.cntSsptr, 0, 16⟩
def F.cntSsptrSkipped : Fld := ⟨.cntSsptr, 16, 32⟩
def F.cntSsptrDestErr : Fld := ⟨.cntSsptr, 48, 1⟩
/-! cntUstat: 18. -/
def F.cntUstatCfgReject : Fld := ⟨.cntUstat, 0, 1⟩
def F.cntUstatFrozen : Fld := ⟨.cntUstat, 1, 1⟩
/-! cntSel: 18. -/
def F.cntSelEvent : Fld := ⟨.cntSel, 0, 8⟩
def F.cntSelMode : Fld := ⟨.cntSel, 8, 2⟩
def F.cntSelChain : Fld := ⟨.cntSel, 10, 1⟩
def F.cntSelEn : Fld := ⟨.cntSel, 11, 1⟩
def F.cntSelClr : Fld := ⟨.cntSel, 12, 1⟩
def F.cntSelOvf : Fld := ⟨.cntSel, 13, 1⟩
def F.cntSelThresh : Fld := ⟨.cntSel, 16, 16⟩
/-! cntVal: 18. -/
def F.cntValValue : Fld := ⟨.cntVal, 0, 48⟩
/-! errStat: 17. -/
def F.errStatWriteIdx : Fld := ⟨.errStat, 0, 9⟩
def F.errStatAckIdx : Fld := ⟨.errStat, 16, 9⟩
def F.errStatCfHeld : Fld := ⟨.errStat, 32, 10⟩
def F.errStatFatal : Fld := ⟨.errStat, 42, 1⟩
/-! errDrop: 17. -/
def F.errDropDropped : Fld := ⟨.errDrop, 0, 32⟩
def F.errDropCfDropped : Fld := ⟨.errDrop, 32, 16⟩
/-! errCfg: 17. -/
def F.errCfgCoalesce : Fld := ⟨.errCfg, 0, 14⟩
/-! errInjsel: 17. -/
def F.errInjselInstance : Fld := ⟨.errInjsel, 0, 16⟩
def F.errInjselFilter : Fld := ⟨.errInjsel, 16, 1⟩
/-! errInjstat: 17. -/
def F.errInjstatArmed : Fld := ⟨.errInjstat, 0, 5⟩
def F.errInjstatEnabled : Fld := ⟨.errInjstat, 5, 1⟩
def F.errInjstatFired : Fld := ⟨.errInjstat, 32, 32⟩
/-! laneStat: 11. -/
def F.laneStatStage : Fld := ⟨.laneStat, 0, 3⟩
def F.laneStatUnused : Fld := ⟨.laneStat, 3, 1⟩
def F.laneStatFailCode : Fld := ⟨.laneStat, 4, 8⟩
def F.laneStatHoldCode : Fld := ⟨.laneStat, 12, 3⟩
def F.laneStatReversed : Fld := ⟨.laneStat, 15, 1⟩
def F.laneStatPolInv : Fld := ⟨.laneStat, 16, 4⟩
def F.laneStatShortUsed : Fld := ⟨.laneStat, 20, 1⟩
def F.laneStatFails : Fld := ⟨.laneStat, 21, 7⟩
/-! laneCtl: 11. -/
def F.laneCtlDeep : Fld := ⟨.laneCtl, 0, 1⟩
def F.laneCtlTest : Fld := ⟨.laneCtl, 1, 2⟩
def F.laneCtlBringupLimit : Fld := ⟨.laneCtl, 3, 4⟩
def F.laneCtlClr : Fld := ⟨.laneCtl, 7, 1⟩
def F.laneCtlDegrade : Fld := ⟨.laneCtl, 8, 8⟩
/-! lanePrbserr: 11. -/
def F.lanePrbserrErrors : Fld := ⟨.lanePrbserr, 0, 48⟩
def F.lanePrbserrSync : Fld := ⟨.lanePrbserr, 48, 1⟩
/-! laneFechist: 11. -/
def F.laneFechistCount : Fld := ⟨.laneFechist, 0, 48⟩
/-! laneSymerr: 11. -/
def F.laneSymerrCount : Fld := ⟨.laneSymerr, 0, 48⟩
/-! portLlcfg: 02, 04. -/
def F.portLlcfgRetryTimer : Fld := ⟨.portLlcfg, 0, 16⟩
def F.portLlcfgRetryLimit : Fld := ⟨.portLlcfg, 16, 4⟩
/-! portLlstat: 02, 04. -/
def F.portLlstatTxState : Fld := ⟨.portLlstat, 0, 2⟩
def F.portLlstatRxState : Fld := ⟨.portLlstat, 2, 2⟩
def F.portLlstatReplays : Fld := ⟨.portLlstat, 4, 4⟩
def F.portLlstatCreditOverrun : Fld := ⟨.portLlstat, 8, 1⟩
def F.portLlstatProtocol : Fld := ⟨.portLlstat, 9, 1⟩
def F.portLlstatCfgReject : Fld := ⟨.portLlstat, 10, 1⟩
def F.portLlstatTxSeq : Fld := ⟨.portLlstat, 16, 16⟩
/-! portSlice: 02, 04. -/
def F.portSliceSlice : Fld := ⟨.portSlice, 0, 8⟩
def F.portSliceValid : Fld := ⟨.portSlice, 8, 1⟩
/-! portIngctl: 02, 04. -/
def F.portIngctlHold : Fld := ⟨.portIngctl, 0, 1⟩
/-! ethCfg: 12. -/
def F.ethCfgMode : Fld := ⟨.ethCfg, 0, 2⟩
def F.ethCfgPfcEn : Fld := ⟨.ethCfg, 2, 8⟩
def F.ethCfgPfcXoff : Fld := ⟨.ethCfg, 10, 10⟩
/-! ethGatecfg: 12. -/
def F.ethGatecfgUdpPort : Fld := ⟨.ethGatecfg, 0, 16⟩
/-! ethStat: 12. -/
def F.ethStatLink : Fld := ⟨.ethStat, 0, 2⟩
def F.ethStatCfgReject : Fld := ⟨.ethStat, 2, 1⟩
def F.ethStatDiscards : Fld := ⟨.ethStat, 16, 16⟩
def F.ethStatGateReject : Fld := ⟨.ethStat, 32, 16⟩
def F.ethStatTxDrop : Fld := ⟨.ethStat, 48, 16⟩
/-! qswTgen: 03, 04. -/
def F.qswTgenGen : Fld := ⟨.qswTgen, 0, 16⟩
def F.qswTgenPending : Fld := ⟨.qswTgen, 16, 1⟩
/-! qswEsccfg: 03, 04. -/
def F.qswEsccfgEscThreshold : Fld := ⟨.qswEsccfg, 0, 16⟩
/-! qswSpraycfg: 03, 04. -/
def F.qswSpraycfgSeed : Fld := ⟨.qswSpraycfg, 0, 32⟩
/-! qswE2ecfg: 03, 04. -/
def F.qswE2ecfgGapTimeout : Fld := ⟨.qswE2ecfg, 0, 15⟩
def F.qswE2ecfgAckTimeout : Fld := ⟨.qswE2ecfg, 16, 15⟩
/-! qswE2ecfg2: 03, 04. -/
def F.qswE2ecfg2ReplayLimit : Fld := ⟨.qswE2ecfg2, 0, 4⟩
def F.qswE2ecfg2FlowWindow : Fld := ⟨.qswE2ecfg2, 8, 15⟩
def F.qswE2ecfg2ConsumeLimit : Fld := ⟨.qswE2ecfg2, 24, 8⟩
/-! qswStat: 03, 04. -/
def F.qswStatCfgReject : Fld := ⟨.qswStat, 0, 1⟩
def F.qswStatCfgClamp : Fld := ⟨.qswStat, 1, 1⟩
/-! qswBufcfg: 03, 04. -/
def F.qswBufcfgAlphaTc0 : Fld := ⟨.qswBufcfg, 0, 3⟩
def F.qswBufcfgAlphaTc1 : Fld := ⟨.qswBufcfg, 3, 3⟩
def F.qswBufcfgAlphaTc2 : Fld := ⟨.qswBufcfg, 6, 3⟩
def F.qswBufcfgAlphaTc3 : Fld := ⟨.qswBufcfg, 9, 3⟩
def F.qswBufcfgAlphaTc4 : Fld := ⟨.qswBufcfg, 12, 3⟩
def F.qswBufcfgAlphaTc5 : Fld := ⟨.qswBufcfg, 15, 3⟩
def F.qswBufcfgCap : Fld := ⟨.qswBufcfg, 24, 8⟩
/-! qswBufrsv: 03, 04. -/
def F.qswBufrsvIres : Fld := ⟨.qswBufrsv, 0, 8⟩
def F.qswBufrsvQmin : Fld := ⟨.qswBufrsv, 8, 8⟩
/-! qswBufarb: 03, 04. -/
def F.qswBufarbPromo : Fld := ⟨.qswBufarb, 0, 16⟩
/-! qswRate: 03, 04. -/
def F.qswRateRateTc3 : Fld := ⟨.qswRate, 0, 12⟩
def F.qswRateBurstTc3 : Fld := ⟨.qswRate, 16, 12⟩
def F.qswRateRateTc5 : Fld := ⟨.qswRate, 32, 12⟩
def F.qswRateBurstTc5 : Fld := ⟨.qswRate, 48, 12⟩
/-! qbankTop: 07. -/
def F.qbankTopRedRows : Fld := ⟨.qbankTop, 0, 14⟩
def F.qbankTopStgRows : Fld := ⟨.qbankTop, 16, 14⟩
def F.qbankTopOutOfService : Fld := ⟨.qbankTop, 31, 1⟩
/-! qbankRepaircfg: 07. -/
def F.qbankRepaircfgColThreshold : Fld := ⟨.qbankRepaircfg, 0, 8⟩
def F.qbankRepaircfgRetireUe : Fld := ⟨.qbankRepaircfg, 8, 4⟩
def F.qbankRepaircfgFieldRepair : Fld := ⟨.qbankRepaircfg, 12, 1⟩
/-! qbankStat: 07. -/
def F.qbankStatRedRetired : Fld := ⟨.qbankStat, 0, 5⟩
def F.qbankStatStgRetired : Fld := ⟨.qbankStat, 5, 4⟩
def F.qbankStatCellRetired : Fld := ⟨.qbankStat, 9, 7⟩
def F.qbankStatFieldSpares : Fld := ⟨.qbankStat, 16, 8⟩
def F.qbankStatRecarve : Fld := ⟨.qbankStat, 24, 1⟩
/-! qbankRetmap: 07. -/
def F.qbankRetmapRetired : Fld := ⟨.qbankRetmap, 0, 32⟩
/-! pipDealcfg: 08. -/
def F.pipDealcfgPromo : Fld := ⟨.pipDealcfg, 0, 16⟩
def F.pipDealcfgMaxctx : Fld := ⟨.pipDealcfg, 16, 2⟩
def F.pipDealcfgRestartMax : Fld := ⟨.pipDealcfg, 18, 2⟩
/-! pipFence: 08. -/
def F.pipFenceFenced : Fld := ⟨.pipFence, 0, 32⟩
/-! pipStat: 08. -/
def F.pipStatCoresLive : Fld := ⟨.pipStat, 0, 6⟩
def F.pipStatCtxBusy : Fld := ⟨.pipStat, 6, 8⟩
def F.pipStatQueued : Fld := ⟨.pipStat, 16, 11⟩
def F.pipStatOutOfService : Fld := ⟨.pipStat, 27, 1⟩
/-! memcStat: 10. -/
def F.memcStatChFailed : Fld := ⟨.memcStat, 0, 16⟩
def F.memcStatState : Fld := ⟨.memcStat, 16, 2⟩
def F.memcStatInitBusy : Fld := ⟨.memcStat, 18, 1⟩
/-! memcTop: 10. -/
def F.memcTopTop : Fld := ⟨.memcTop, 0, 48⟩
/-! memcScrub: 10. -/
def F.memcScrubPromo : Fld := ⟨.memcScrub, 0, 16⟩
def F.memcScrubPeriod : Fld := ⟨.memcScrub, 16, 8⟩
def F.memcScrubEn : Fld := ⟨.memcScrub, 24, 1⟩
/-! strmEpoch: 10. -/
def F.strmEpochSepoch : Fld := ⟨.strmEpoch, 0, 16⟩
def F.strmEpochPending : Fld := ⟨.strmEpoch, 16, 1⟩
def F.strmEpochTsLow : Fld := ⟨.strmEpoch, 32, 32⟩
/-! strmStat: 10. -/
def F.strmStatSending : Fld := ⟨.strmStat, 0, 5⟩
def F.strmStatWaiting : Fld := ⟨.strmStat, 5, 9⟩
def F.strmStatGated : Fld := ⟨.strmStat, 14, 1⟩
/-! pwrStat: 15. -/
def F.pwrStatLimitW : Fld := ⟨.pwrStat, 0, 11⟩
def F.pwrStatSource : Fld := ⟨.pwrStat, 11, 4⟩
def F.pwrStatBrakeIn : Fld := ⟨.pwrStat, 15, 1⟩
def F.pwrStatBrakeOut : Fld := ⟨.pwrStat, 16, 1⟩
def F.pwrStatMainEn : Fld := ⟨.pwrStat, 17, 1⟩
def F.pwrStatLeakCut : Fld := ⟨.pwrStat, 18, 1⟩
def F.pwrStatFloor : Fld := ⟨.pwrStat, 19, 1⟩
def F.pwrStatPowerW : Fld := ⟨.pwrStat, 32, 11⟩
/-! pwrTherm: 15. -/
def F.pwrThermTmax : Fld := ⟨.pwrTherm, 0, 8⟩
def F.pwrThermDie : Fld := ⟨.pwrTherm, 8, 4⟩
def F.pwrThermFaulted : Fld := ⟨.pwrTherm, 12, 7⟩
def F.pwrThermThrottle : Fld := ⟨.pwrTherm, 19, 1⟩
/-! pwrLeak: 15. -/
def F.pwrLeakState : Fld := ⟨.pwrLeak, 0, 8⟩
def F.pwrLeakFaulted : Fld := ⟨.pwrLeak, 8, 4⟩
def F.pwrLeakTestFail : Fld := ⟨.pwrLeak, 12, 4⟩
def F.pwrLeakUsed : Fld := ⟨.pwrLeak, 16, 4⟩
/-! pwrCfg: 15. -/
def F.pwrCfgBrakeW : Fld := ⟨.pwrCfg, 0, 11⟩
def F.pwrCfgSurvivalW : Fld := ⟨.pwrCfg, 11, 11⟩
def F.pwrCfgVinUv : Fld := ⟨.pwrCfg, 22, 8⟩
/-! pwrBrake: 15. -/
def F.pwrBrakeCount : Fld := ⟨.pwrBrake, 0, 32⟩
def F.pwrBrakeCfgReject : Fld := ⟨.pwrBrake, 32, 1⟩
def F.pwrBrakeRespNs : Fld := ⟨.pwrBrake, 48, 16⟩
/-! ledgStat: 16. -/
def F.ledgStatMounted : Fld := ⟨.ledgStat, 0, 1⟩
def F.ledgStatNorBehind : Fld := ⟨.ledgStat, 1, 1⟩
def F.ledgStatProtected : Fld := ⟨.ledgStat, 2, 1⟩
def F.ledgStatSealOk : Fld := ⟨.ledgStat, 3, 1⟩
def F.ledgStatMacros : Fld := ⟨.ledgStat, 4, 2⟩
def F.ledgStatUntrusted : Fld := ⟨.ledgStat, 8, 8⟩
def F.ledgStatCseq : Fld := ⟨.ledgStat, 16, 48⟩
/-! ledgArb: 16. -/
def F.ledgArbPromo : Fld := ⟨.ledgArb, 0, 16⟩
/-! ledgHours: 16. -/
def F.ledgHoursHoursMain : Fld := ⟨.ledgHours, 0, 32⟩
def F.ledgHoursUnclean : Fld := ⟨.ledgHours, 32, 16⟩
def F.ledgHoursCycles : Fld := ⟨.ledgHours, 48, 16⟩
/-! ledgFloor: 16. -/
def F.ledgFloorOtpSvn : Fld := ⟨.ledgFloor, 0, 8⟩
def F.ledgFloorVersion : Fld := ⟨.ledgFloor, 8, 32⟩
def F.ledgFloorOwnerSlot : Fld := ⟨.ledgFloor, 40, 3⟩
def F.ledgFloorTestUnlocked : Fld := ⟨.ledgFloor, 43, 1⟩
/-! ledgWear: 16. -/
def F.ledgWearRingWraps : Fld := ⟨.ledgWear, 0, 32⟩
def F.ledgWearNorMaxErase : Fld := ⟨.ledgWear, 32, 24⟩
/-! condStat: 14. -/
def F.condStatRole : Fld := ⟨.condStat, 0, 2⟩
def F.condStatMode : Fld := ⟨.condStat, 2, 3⟩
def F.condStatStage : Fld := ⟨.condStat, 5, 3⟩
def F.condStatCterm : Fld := ⟨.condStat, 16, 16⟩
def F.condStatLogidx : Fld := ⟨.condStat, 32, 32⟩
/-! condSelftest: 14. -/
def F.condSelftestPromo : Fld := ⟨.condSelftest, 0, 16⟩
def F.condSelftestLastPass : Fld := ⟨.condSelftest, 16, 1⟩
def F.condSelftestFails : Fld := ⟨.condSelftest, 17, 7⟩
/-! condPres: 14. -/
def F.condPresPresent : Fld := ⟨.condPres, 0, 16⟩
def F.condPresPulled : Fld := ⟨.condPres, 16, 16⟩

/-- Where the register file keeps a register: `i` counts a block's instances and, in an array, its elements. -/
def Reg.key (r : Reg) (i : Nat) : Nat := r.ctorIdx * 2 ^ 20 + i

/-- A register's whole value. -/
def State.reg (s : State) (r : Reg) (i : Nat) : Word := s.regs.getD (r.key i) r.resetValue

def State.setReg (s : State) (r : Reg) (i : Nat) (v : Word) : State :=
  { s with regs := s.regs.setD (r.key i) r.resetValue v }

/-- The bits [lo + w - 1 : lo] of a word. -/
def bitsOf (v : Word) (lo w : Nat) : Nat := (BitVec.extractLsb' lo w v).toNat

/-- A word with its bits [lo + w - 1 : lo] replaced by `n`. -/
def withBits (v : Word) (lo w n : Nat) : Word :=
  (v &&& ~~~((BitVec.allOnes w).setWidth 64 <<< lo)) ||| ((BitVec.ofNat w n).setWidth 64 <<< lo)

/-- Read one field. -/
def State.rd (s : State) (f : Fld) (i : Nat := 0) : Nat := bitsOf (s.reg f.reg i) f.lo f.w

/-- Write one field, whatever its access type: the hardware's own write. -/
def State.wr (s : State) (f : Fld) (n : Nat) (i : Nat := 0) : State :=
  s.setReg f.reg i (withBits (s.reg f.reg i) f.lo f.w n)

/-- A one-bit field as a condition. -/
def State.flag (s : State) (f : Fld) (i : Nat := 0) : Bool := s.rd f i = 1

/-- Count a field up by `n`, holding at its maximum. -/
def State.addSat (s : State) (f : Fld) (n : Nat) (i : Nat := 0) : State :=
  s.wr f (Nat.min (s.rd f i + n) (2 ^ f.w - 1)) i

end Sys2Proof.Machine
end

