-- ==== Sys2Proof/Machine/Detectors.lean ====
section
/-! DEFINITION. The detectors of 17 R424: codes, severities and injection modes, and the CDC groups of R423. -/

namespace Sys2Proof.Machine

def E.los : Nat := 0x0401
def E.lockLost : Nat := 0x0402
def E.uncorrBurst : Nat := 0x0403
def E.laneBringupFailed : Nat := 0x0404
def E.fecDegrade : Nat := 0x0405
def E.farRestart : Nat := 0x0406
def E.laneDrift : Nat := 0x0407
def E.hcrcFail : Nat := 0x0801
def E.genUnsupported : Nat := 0x0802
def E.malformed : Nat := 0x0803
def E.hopLimit : Nat := 0x0804
def E.ptypeDenied : Nat := 0x0805
def E.planeMismatch : Nat := 0x0806
def E.idRsvd : Nat := 0x0807
def E.protocol : Nat := 0x0808
def E.e2eCrc : Nat := 0x0809
def E.linkRetryExhausted : Nat := 0x080A
def E.creditOverrun : Nat := 0x080B
def E.bufferEcc : Nat := 0x0C01
def E.sliceDenied : Nat := 0x0C02
def E.routeMiss : Nat := 0x0C03
def E.unreachable : Nat := 0x0C04
def E.flowError : Nat := 0x0C05
def E.endpointStall : Nat := 0x0C06
def E.drainForced : Nat := 0x0C07
def E.switchParity : Nat := 0x0C08
def E.bankCe : Nat := 0x1001
def E.bankUe : Nat := 0x1002
def E.columnRepair : Nat := 0x1003
def E.bankRetired : Nat := 0x1004
def E.bankRetireExhausted : Nat := 0x1005
def E.bankRetireExhaustedCells : Nat := 0x1006
def E.contribRefused : Nat := 0x1401
def E.instanceAbort : Nat := 0x1402
def E.chunkRecovered : Nat := 0x1403
def E.instanceFaulted : Nat := 0x1404
def E.pipException : Nat := 0x1801
def E.pipLdmCe : Nat := 0x1802
def E.pipImemCe : Nat := 0x1803
def E.pipLdmUe : Nat := 0x1804
def E.pipImemUe : Nat := 0x1805
def E.pipParity : Nat := 0x1806
def E.pipExhausted : Nat := 0x1807
def E.memCe : Nat := 0x1C01
def E.memUe : Nat := 0x1C02
def E.memChannelFailed : Nat := 0x1C03
def E.gateDenied : Nat := 0x2001
def E.pcieDegraded : Nat := 0x2002
def E.lockstepMismatch : Nat := 0x2401
def E.hubSramCe : Nat := 0x2402
def E.hubSramUe : Nat := 0x2403
def E.controlWatchdog : Nat := 0x2404
def E.ledgerDegraded : Nat := 0x2801
def E.ledgerUntrusted : Nat := 0x2802
def E.ledgerResolved : Nat := 0x2803
def E.mramCe : Nat := 0x2804
def E.rollbackRefused : Nat := 0x2805
def E.norProgramFail : Nat := 0x2806
def E.thermalTrip : Nat := 0x2C01
def E.sensorFault : Nat := 0x2C02
def E.guardFault : Nat := 0x2C03
def E.flowLow : Nat := 0x2C04
def E.leakCut : Nat := 0x2C05
def E.conductorDiverged : Nat := 0x3001
def E.pairWindow : Nat := 0x3002
def E.secondaryLost : Nat := 0x3003
def E.primaryUnseen : Nat := 0x3004
def E.conductorOut : Nat := 0x3005
def E.timeDegraded : Nat := 0x3006
def E.leaseExpired : Nat := 0x3007
def E.capInfeasible : Nat := 0x3008
def E.drpDiscard : Nat := 0x3009
def E.errPath : Nat := 0x3801

/-- CDC_OVERRUN and CDC_TIMEOUT of a crossing group (17 R423). -/
def E.cdcOverrun (group : Nat) : Nat := 0x3400 + group
def E.cdcTimeout (group : Nat) : Nat := 0x3500 + group

/-- The severities of 17 R413. -/
def Sev.corrected : Nat := 0
def Sev.deferred : Nat := 1
def Sev.contained : Nat := 2
def Sev.fatal : Nat := 3

/-- The rows of the detector table: code, severity, and the injection modes it lists as bits: 2 ONCE, 4 EVERY_N,
8 PERSISTENT (17 R424). -/
def detectorRows : List (Nat × Nat × Nat) := [
  (0x0401, 2, 2), (0x0402, 2, 2), (0x0403, 2, 2), (0x0404, 2, 2), (0x0405, 0, 10),
  (0x0406, 0, 2), (0x0407, 0, 2), (0x0801, 0, 14), (0x0802, 0, 14), (0x0803, 0, 14),
  (0x0804, 0, 14), (0x0805, 0, 14), (0x0806, 0, 14), (0x0807, 0, 14), (0x0808, 0, 14),
  (0x0809, 0, 14), (0x080A, 2, 2), (0x080B, 2, 2), (0x0C01, 0, 14), (0x0C02, 0, 14),
  (0x0C03, 0, 14), (0x0C04, 0, 14), (0x0C05, 2, 0), (0x0C06, 2, 2), (0x0C07, 0, 0),
  (0x0C08, 3, 2), (0x1001, 0, 14), (0x1002, 1, 14), (0x1003, 0, 0), (0x1004, 2, 0),
  (0x1005, 2, 0), (0x1006, 3, 0), (0x1401, 0, 0), (0x1402, 0, 0), (0x1403, 0, 0),
  (0x1404, 2, 0), (0x1801, 0, 0), (0x1802, 0, 14), (0x1803, 0, 14), (0x1804, 2, 2)] ++ [
  (0x1805, 2, 2), (0x1806, 2, 2), (0x1807, 2, 0), (0x1C01, 0, 14), (0x1C02, 1, 14),
  (0x1C03, 2, 2), (0x2001, 0, 14), (0x2002, 0, 0), (0x2401, 2, 2), (0x2402, 0, 14),
  (0x2403, 2, 2), (0x2404, 2, 2), (0x2801, 2, 2), (0x2802, 2, 0), (0x2803, 0, 0),
  (0x2804, 0, 14), (0x2805, 2, 0), (0x2806, 2, 2), (0x2C01, 3, 2), (0x2C02, 0, 10),
  (0x2C03, 2, 10), (0x2C04, 2, 2), (0x2C05, 2, 2), (0x3001, 2, 2), (0x3002, 0, 6),
  (0x3003, 2, 2), (0x3004, 2, 0), (0x3005, 2, 0), (0x3006, 0, 10), (0x3007, 0, 0),
  (0x3008, 0, 0), (0x3009, 0, 14), (0x3801, 3, 2)]

/-- The row of a detector code; the CDC detectors of groups 1 to 9 take every mode (17 R423, R424). -/
def detector? (code : Nat) : Option (Nat × Nat) :=
  if 0x3401 ≤ code && code ≤ 0x3409 then some (if code = 0x3409 then 3 else 0, 14)
  else if 0x3501 ≤ code && code ≤ 0x3509 then some (if code ≥ 0x3507 then 3 else 2, 14)
  else (detectorRows.find? fun r => r.1 = code).map (·.2)

/-- The severity of a detector's record (17 R413). -/
def severityOf (code : Nat) : Nat := ((detector? code).map (·.1)).getD 0

/-- The detectors of the error path (17 R422). -/
def isErrPath (code : Nat) : Bool := code / 1024 = 0x0E || code = 0x3409 || code = 0x3509

end Sys2Proof.Machine
end

