-- ==== Sys2Proof/Machine/Hash.lean ====
section
/-! DEFINITION. The check codes, hashes and signatures the spec names: the CRCs of 02 R23 and R47, the little-endian byte forms, SHA-384
and ECDSA on brainpoolP384r1 as their standards define them. -/

namespace Sys2Proof.Machine

/-- Bytes of `v`, least significant first, `n` of them (02 R45: multi-byte fields are little-endian). -/
def leBytes (n v : Nat) : List Byte := (List.range n).map fun k => BitVec.ofNat 8 (v / 2 ^ (8 * k))

/-- The number that little-endian bytes spell. -/
def ofLe (bs : List Byte) : Nat := bs.foldr (fun b acc => b.toNat + 256 * acc) 0

/-- The `n` bytes of a list from offset `o`; bytes beyond its end read as zero. -/
def sliceAt (bs : List Byte) (o n : Nat) : List Byte :=
  (List.range n).map fun k => bs.getD (o + k) 0

/-- The little-endian field of `n` bytes at offset `o`. -/
def fieldAt (bs : List Byte) (o n : Nat) : Nat := ofLe (sliceAt bs o n)

/-- A flit as its 64 bytes. -/
def flitBytes (f : Flit) : List Byte := leBytes 64 f.toNat

/-- A flit from at most 64 bytes; missing bytes are zero. -/
def flitOf (bs : List Byte) : Flit := BitVec.ofNat 512 (ofLe (bs.take 64))

/-- `n` repeated. -/
def iter {α : Type} (f : α → α) : Nat → α → α
  | 0, x => x
  | n + 1, x => iter f n (f x)

/-- One bit of a most-significant-bit-first CRC of width `w`. -/
def crcStep {w : Nat} (poly : BitVec w) (c : BitVec w) : BitVec w :=
  if c.msb then (c <<< 1) ^^^ poly else c <<< 1

/-- A most-significant-bit-first CRC over bytes. -/
def crcMsb {w : Nat} (poly init : BitVec w) (bs : List Byte) : BitVec w :=
  bs.foldl (fun c b => iter (crcStep poly) 8 (c ^^^ ((b.setWidth w : BitVec w) <<< (w - 8)))) init

/-- One bit of a reflected CRC. -/
def crcStepR {w : Nat} (poly : BitVec w) (c : BitVec w) : BitVec w :=
  if c.getLsbD 0 then (c >>> 1) ^^^ poly else c >>> 1

/-- A reflected CRC over bytes. -/
def crcLsb {w : Nat} (poly init : BitVec w) (bs : List Byte) : BitVec w :=
  bs.foldl (fun c b => iter (crcStepR poly) 8 (c ^^^ b.setWidth w)) init

/-- 02 R47: the header check. -/
def crc16 (bs : List Byte) : BitVec 16 := crcMsb 0x1021 0xFFFF bs

/-- 02 R47: CRC-32C, reflected, initial value and final exclusive-or of all ones. -/
def crc32c (bs : List Byte) : BitVec 32 := crcLsb 0x82F63B78 0xFFFFFFFF bs ^^^ 0xFFFFFFFF

/-- 02 R23: the CRC-64 of a window. -/
def crc64 (bs : List Byte) : BitVec 64 :=
  crcMsb 0x42F0E1EBA9EA3693 (BitVec.allOnes 64) bs ^^^ BitVec.allOnes 64

/-! ## SHA-384 -/

def shaK0 : List Word := [
  0x428A2F98D728AE22, 0x7137449123EF65CD, 0xB5C0FBCFEC4D3B2F, 0xE9B5DBA58189DBBC,
  0x3956C25BF348B538, 0x59F111F1B605D019, 0x923F82A4AF194F9B, 0xAB1C5ED5DA6D8118,
  0xD807AA98A3030242, 0x12835B0145706FBE, 0x243185BE4EE4B28C, 0x550C7DC3D5FFB4E2,
  0x72BE5D74F27B896F, 0x80DEB1FE3B1696B1, 0x9BDC06A725C71235, 0xC19BF174CF692694,
  0xE49B69C19EF14AD2, 0xEFBE4786384F25E3, 0x0FC19DC68B8CD5B5, 0x240CA1CC77AC9C65]

def shaK1 : List Word := [
  0x2DE92C6F592B0275, 0x4A7484AA6EA6E483, 0x5CB0A9DCBD41FBD4, 0x76F988DA831153B5,
  0x983E5152EE66DFAB, 0xA831C66D2DB43210, 0xB00327C898FB213F, 0xBF597FC7BEEF0EE4,
  0xC6E00BF33DA88FC2, 0xD5A79147930AA725, 0x06CA6351E003826F, 0x142929670A0E6E70,
  0x27B70A8546D22FFC, 0x2E1B21385C26C926, 0x4D2C6DFC5AC42AED, 0x53380D139D95B3DF,
  0x650A73548BAF63DE, 0x766A0ABB3C77B2A8, 0x81C2C92E47EDAEE6, 0x92722C851482353B]

def shaK2 : List Word := [
  0xA2BFE8A14CF10364, 0xA81A664BBC423001, 0xC24B8B70D0F89791, 0xC76C51A30654BE30,
  0xD192E819D6EF5218, 0xD69906245565A910, 0xF40E35855771202A, 0x106AA07032BBD1B8,
  0x19A4C116B8D2D0C8, 0x1E376C085141AB53, 0x2748774CDF8EEB99, 0x34B0BCB5E19B48A8,
  0x391C0CB3C5C95A63, 0x4ED8AA4AE3418ACB, 0x5B9CCA4F7763E373, 0x682E6FF3D6B2B8A3,
  0x748F82EE5DEFB2FC, 0x78A5636F43172F60, 0x84C87814A1F0AB72, 0x8CC702081A6439EC]

def shaK3 : List Word := [
  0x90BEFFFA23631E28, 0xA4506CEBDE82BDE9, 0xBEF9A3F7B2C67915, 0xC67178F2E372532B,
  0xCA273ECEEA26619C, 0xD186B8C721C0C207, 0xEADA7DD6CDE0EB1E, 0xF57D4F7FEE6ED178,
  0x06F067AA72176FBA, 0x0A637DC5A2C898A6, 0x113F9804BEF90DAE, 0x1B710B35131C471B,
  0x28DB77F523047D84, 0x32CAAB7B40C72493, 0x3C9EBE0A15C9BEBC, 0x431D67C49C100D4C,
  0x4CC5D4BECB3E42B6, 0x597F299CFC657E2A, 0x5FCB6FAB3AD6FAEC, 0x6C44198C4A475817]

def shaK : List Word := shaK0 ++ shaK1 ++ shaK2 ++ shaK3

def shaInit : List Word := [
  0xCBBB9D5DC1059ED8, 0x629A292A367CD507, 0x9159015A3070DD17, 0x152FECD8F70E5939,
  0x67332667FFC00B31, 0x8EB44A8768581511, 0xDB0C2E0D64F98FA7, 0x47B5481DBEFA4FA4]

def shaSmall (x : Word) (a b c : Nat) : Word := x.rotateRight a ^^^ x.rotateRight b ^^^ (x >>> c)

def shaBig (x : Word) (a b c : Nat) : Word := x.rotateRight a ^^^ x.rotateRight b ^^^ x.rotateRight c

/-- The message schedule, newest word first: `n` words beyond the sixteen given. -/
def shaSchedule : Nat → List Word → List Word
  | 0, ws => ws
  | n + 1, ws =>
    let w := shaSmall (ws.getD 1 0) 19 61 6 + ws.getD 6 0 + shaSmall (ws.getD 14 0) 1 8 7 + ws.getD 15 0
    shaSchedule n (w :: ws)

/-- One round on the eight working words. -/
def shaRound (st : List Word) (kw : Word × Word) : List Word :=
  match st with
  | [a, b, c, d, e, f, g, h] =>
    let t1 := h + shaBig e 14 18 41 + ((e &&& f) ^^^ (~~~e &&& g)) + kw.1 + kw.2
    let t2 := shaBig a 28 34 39 + ((a &&& b) ^^^ (a &&& c) ^^^ (b &&& c))
    [t1 + t2, a, b, c, d + t1, e, f, g]
  | _ => st

/-- One block of sixteen words. [PRESUMED log 12] -/
def shaBlock (st : List Word) (ws : List Word) : List Word :=
  let sched := (shaSchedule 64 ws.reverse).reverse
  List.zipWith (· + ·) st ((shaK.zip sched).foldl shaRound st)

/-- Big-endian 64-bit words of a byte list whose length is a multiple of eight; `n` words. -/
def beWords : Nat → List Byte → List Word
  | 0, _ => []
  | n + 1, bs =>
    (bs.take 8).foldl (fun v b => (v <<< 8) ||| b.setWidth 64) 0 :: beWords n (bs.drop 8)

/-- The blocks of sixteen words in turn. -/
def shaBlocks : Nat → List Word → List Word → List Word
  | 0, st, _ => st
  | n + 1, st, ws => shaBlocks n (shaBlock st (ws.take 16)) (ws.drop 16)

/-- SHA-384, its digest as a 384-bit number whose byte 0 is bits 7 to 0. [PRESUMED log 12] -/
def sha384 (bs : List Byte) : BitVec 384 :=
  let pad := (112 + 128 - (bs.length + 1) % 128) % 128
  let msg := bs ++ (0x80 : Byte) :: (List.replicate pad 0 ++ (leBytes 16 (8 * bs.length)).reverse)
  let n := msg.length / 128
  let st := shaBlocks n shaInit (beWords (16 * n) msg)
  BitVec.ofNat 384 (ofLe ((st.take 6).flatMap fun w => (leBytes 8 w.toNat).reverse))

/-! ## ECDSA on brainpoolP384r1 (08 R211; 16 R402, R403, R410, R411) -/

/-- The prime of the curve's field. [PRESUMED log 145] -/
def curveP : Nat := 0x8CB91E82A3386D280F5D6F7E50E641DF152F7109ED5456B412B1DA197FB71123ACD3A729901D1A71874700133107EC53
/-- The curve is y² = x³ + A·x + B. [PRESUMED log 145] -/
def curveA : Nat := 0x7BC382C63D8C150C3C72080ACE05AFA0C2BEA28E4FB22787139165EFBA91F90F8AA5814A503AD4EB04A8C7DD22CE2826
/-- [PRESUMED log 145] -/
def curveB : Nat := 0x04A8C7DD22CE28268B39B55416F0447C2FB77DE107DCD2A62E880EA53EEB62D57CB4390295DBC9943AB78696FA504C11
/-- The order of the base point. [PRESUMED log 145] -/
def curveN : Nat := 0x8CB91E82A3386D280F5D6F7E50E641DF152F7109ED5456B31F166E6CAC0425A7CF3AB6AF6B7FC3103B883202E9046565
/-- The base point. [PRESUMED log 145] -/
def curveG : Nat × Nat :=
  (0x1D1C64F068CF45FFA2A63A81B7C13F6B8847A3E77EF14FE3DB7FCAFE0CBD10E8E826E03436D646AAEF87B2E247D4AF1E,
   0x8ABE1D7520F9C2A45CB1EB8E95CFD55262B70B29FEEC5864E19C054FF99129280E4646217791811142820341263C5315)

/-- The inverse of a number modulo a prime `m` of 384 bits: its power to m − 2, bit by bit from the top; 0 has none and gives 0. -/
def modInv (m b : Nat) : Nat :=
  (List.range 384).foldl (fun a k =>
    let sq := a * a % m
    if (m - 2).testBit (383 - k) then sq * b % m else sq) 1

/-- The sum of two points of the curve; none is the point at infinity. -/
def curveAdd : Option (Nat × Nat) → Option (Nat × Nat) → Option (Nat × Nat)
  | none, q => q
  | p, none => p
  | some (x1, y1), some (x2, y2) =>
    let neg (a : Nat) : Nat := curveP - a % curveP
    if x1 = x2 && (y1 + y2) % curveP = 0 then none
    else
      let slope := if x1 = x2 then (3 * x1 * x1 + curveA) * modInv curveP (2 * y1 % curveP) % curveP
        else (y2 + neg y1) * modInv curveP ((x2 + neg x1) % curveP) % curveP
      let x3 := (slope * slope + neg x1 + neg x2) % curveP
      some (x3, (slope * (x1 + neg x3) + neg y1) % curveP)

/-- k times a point, bit by bit from the top. -/
def curveMul (k : Nat) (p : Nat × Nat) : Option (Nat × Nat) :=
  (List.range 384).foldl (fun a i =>
    let d := curveAdd a a
    if k.testBit (383 - i) then curveAdd d (some p) else d) none

/-- A number from its bytes, the highest first. -/
def ofBe (bs : List Byte) : Nat := ofLe bs.reverse

/-- Whether r‖s is a signature of a digest under a public key of 97 bytes, uncompressed (0x04, x, y), each number with its highest byte
first. [PRESUMED log 145] -/
def ecdsaVerify (key : List Byte) (digest : BitVec 384) (sig : List Byte) : Bool :=
  let x := ofBe ((key.drop 1).take 48)
  let y := ofBe ((key.drop 49).take 48)
  let r := ofBe (sig.take 48)
  let v := ofBe ((sig.drop 48).take 48)
  let e := ofBe (leBytes 48 digest.toNat)
  let onCurve : Bool := key.length = 97 && fieldAt key 0 1 = 4 && x < curveP && y < curveP &&
    y * y % curveP = (x * x * x + curveA * x + curveB) % curveP
  sig.length = 96 && onCurve && 1 ≤ r && r < curveN && 1 ≤ v && v < curveN &&
  let w := modInv curveN v
  match curveAdd (curveMul (e * w % curveN) curveG) (curveMul (r * w % curveN) (x, y)) with
  | none => false
  | some (px, _) => px % curveN = r

/-- Whether a signature verifies over a message with SHA-384 (16 R402). [PRESUMED log 145] -/
def ecdsaOk (key msg sig : List Byte) : Bool := ecdsaVerify key (sha384 msg) sig

end Sys2Proof.Machine
end

