-- ==== Sys2Proof/Machine/Header.lean ====
section
/-! DEFINITION. The packet header (02 R46, R52): its fields, the image over which the checks run (R47), and packets. -/

namespace Sys2Proof.Machine

/-- A header field: its place in the 512-bit header flit, bit 8k + j being bit j of byte k. -/
structure HF where
  lo : Nat
  w : Nat
deriving DecidableEq, Repr

/-- Read a header field. -/
def hget (h : Flit) (f : HF) : Nat := (BitVec.extractLsb' f.lo f.w h).toNat

/-- Write a header field. -/
def hset (h : Flit) (f : HF) (n : Nat) : Flit :=
  (h &&& ~~~((BitVec.allOnes f.w).setWidth 512 <<< f.lo)) ||| ((BitVec.ofNat f.w n).setWidth 512 <<< f.lo)

/-! The common fields (02 R46). -/
def H.gen : HF := ⟨0, 2⟩
def H.ptype : HF := ⟨2, 4⟩
def H.tc : HF := ⟨6, 3⟩
def H.esc : HF := ⟨9, 1⟩
def H.mcast : HF := ⟨10, 1⟩
def H.poison : HF := ⟨11, 1⟩
def H.hops : HF := ⟨12, 4⟩
def H.len : HF := ⟨16, 7⟩
def H.dst : HF := ⟨24, 12⟩
def H.src : HF := ⟨36, 12⟩
def H.plane : HF := ⟨48, 1⟩
def H.dmod : HF := ⟨49, 1⟩
def H.smod : HF := ⟨50, 1⟩
def H.flowSeq : HF := ⟨56, 16⟩
def H.spray : HF := ⟨72, 8⟩
def H.slice : HF := ⟨80, 8⟩
def H.tailb : HF := ⟨88, 7⟩
def H.hcrc : HF := ⟨112, 16⟩

/-! The fields by type (02 R52). -/
def H.cmask : HF := ⟨448, 32⟩
def H.caxis : HF := ⟨480, 1⟩
def H.castId : HF := ⟨496, 16⟩
def H.group : HF := ⟨128, 12⟩
def H.gepoch : HF := ⟨144, 16⟩
def H.slot : HF := ⟨160, 12⟩
def H.step : HF := ⟨176, 16⟩
def H.rank : HF := ⟨192, 9⟩
def H.format : HF := ⟨204, 4⟩
def H.disc : HF := ⟨208, 2⟩
def H.op : HF := ⟨210, 4⟩
def H.reducer : HF := ⟨214, 2⟩
def H.cflags : HF := ⟨216, 8⟩
def H.last : HF := ⟨216, 1⟩
def H.resent : HF := ⟨217, 1⟩
def H.allSteps : HF := ⟨218, 1⟩
def H.chunk : HF := ⟨224, 24⟩
def H.descHash : HF := ⟨256, 32⟩
def H.foff : HF := ⟨288, 16⟩
def H.drank : HF := ⟨320, 9⟩
def H.ccode : HF := ⟨288, 8⟩
def H.status : HF := ⟨304, 16⟩
def H.nrank : HF := ⟨320, 9⟩
def H.newGepoch : HF := ⟨336, 16⟩
def H.faddr : HF := ⟨128, 56⟩
def H.cpl : HF := ⟨184, 1⟩
def H.tag : HF := ⟨192, 16⟩
def H.bytes : HF := ⟨208, 13⟩
def H.mstatus : HF := ⟨224, 8⟩
def H.streamId : HF := ⟨128, 16⟩
def H.sepoch : HF := ⟨144, 16⟩
def H.sseq : HF := ⟨160, 32⟩
def H.doff : HF := ⟨192, 64⟩
def H.dformat : HF := ⟨256, 4⟩
def H.fsrc : HF := ⟨128, 12⟩
def H.fdst : HF := ⟨144, 12⟩
def H.ftc : HF := ⟨160, 3⟩
def H.fsmod : HF := ⟨163, 1⟩
def H.fdmod : HF := ⟨164, 1⟩
def H.kind : HF := ⟨168, 8⟩
def H.aseq : HF := ⟨176, 16⟩
def H.ncause : HF := ⟨192, 8⟩
def H.rcount : HF := ⟨200, 8⟩
def H.ackCastId : HF := ⟨224, 16⟩
def H.tunnel : HF := ⟨128, 8⟩
def H.remoteEp : HF := ⟨144, 12⟩
def H.gtag : HF := ⟨160, 32⟩
def H.opaque_ : HF := ⟨192, 128⟩
def H.leafStatus : HF := ⟨256, 64⟩

/-- The packet types (02 R46). -/
def PT.data : Nat := 0
def PT.memWr : Nat := 1
def PT.memRdReq : Nat := 2
def PT.memRdRsp : Nat := 3
def PT.contrib : Nat := 4
def PT.result : Nat := 5
def PT.collCtrl : Nat := 6
def PT.stream : Nat := 7
def PT.e2eAck : Nat := 8
def PT.e2eNack : Nat := 9
def PT.ctrl : Nat := 10
def PT.gate : Nat := 11

/-- Set several header fields, left to right. -/
def hsets (h : Flit) (fs : List (HF × Nat)) : Flit := fs.foldl (fun h f => hset h f.1 f.2) h

/-- A header flit with the fields given, all others zero. -/
def mkHdr (fs : List (HF × Nat)) : Flit := hsets 0 fs

/-- The header image over which the checks run: the mutable fields and HCRC zero (02 R47). -/
def checkImage (h : Flit) : Flit :=
  hsets h [(H.hops, 0), (H.esc, 0), (H.poison, 0), (H.flowSeq, 0), (H.spray, 0), (H.hcrc, 0)]

/-- The header check of a header (02 R47). -/
def hcrcOf (h : Flit) : Nat := (crc16 (flitBytes (checkImage h))).toNat

/-- The end-to-end check of a packet (02 R47). -/
def e2eCrc (h : Flit) (pay : List Flit) : BitVec 32 :=
  crc32c (flitBytes (checkImage h) ++ pay.flatMap flitBytes)

/-- A packet as an originator completes it: LEN, TAILB, HCRC and E2E_CRC set (02 R45, R47). `bytes` is the payload. -/
def mkPacket (h : Flit) (bytes : List Byte) : Packet :=
  let n := (bytes.length + 63) / 64
  let pay := (List.range n).map fun k => flitOf (bytes.drop (64 * k))
  let h := hsets h [(H.len, n), (H.tailb, if n = 0 then 0 else bytes.length - 64 * (n - 1))]
  let h := hset h H.hcrc (hcrcOf h)
  { hdr := h, pay := pay, crc := e2eCrc h pay }

/-- A packet whose payload is whole flits. -/
def mkPacketF (h : Flit) (pay : List Flit) : Packet :=
  let h := hsets h [(H.len, pay.length), (H.tailb, 0)]
  let h := hset h H.hcrc (hcrcOf h)
  { hdr := h, pay := pay, crc := e2eCrc h pay }

/-- The payload bytes of a packet: TAILB bytes of its last flit, all 64 when TAILB is 0 (02 R45). -/
def payBytes (p : Packet) : List Byte :=
  let t := hget p.hdr H.tailb
  let all := p.pay.flatMap flitBytes
  if t = 0 then all else all.take (64 * (p.pay.length - 1) + t)

/-- One key for a flow (03 R58, R77). -/
def flowKey (f : FlowId) : Nat :=
  f.src + f.dst * 2 ^ 12 + (if f.smod then 2 ^ 24 else 0) + (if f.dmod then 2 ^ 25 else 0) + f.tc * 2 ^ 26
    + (if f.plane then 2 ^ 29 else 0) + f.cast * 2 ^ 30

/-- The flow that a key names. -/
def keyFlow (k : Nat) : FlowId :=
  { src := k % 2 ^ 12, dst := k / 2 ^ 12 % 2 ^ 12, smod := k / 2 ^ 24 % 2 = 1, dmod := k / 2 ^ 25 % 2 = 1,
    tc := k / 2 ^ 26 % 8, plane := k / 2 ^ 29 % 2 = 1, cast := k / 2 ^ 30 }

/-- The flow a packet belongs to: a cast flow when MCAST is set (03 R58, R77). -/
def flowOf (h : Flit) : FlowId :=
  { src := hget h H.src, dst := hget h H.dst, smod := hget h H.smod = 1, dmod := hget h H.dmod = 1,
    tc := hget h H.tc, plane := hget h H.plane = 1,
    cast := if hget h H.mcast = 1 then 1 + hget h H.caxis else 0 }

end Sys2Proof.Machine
end

