-- ==== Sys2Proof/Machine/Ops.lean ====
section
/-! DEFINITION. The shared operations: access to the tables of the state, outputs, free values, counters (18), interrupts
(13 R330), error records and loaded dice (17), reports to the conductor (14 R336), ledger requests (16 R390), and the
stop of a fatal record (17 R414). -/

namespace Sys2Proof.Machine

/-! ## Access to the tables of the state -/

/-- The entry of `ports` at a fabric port. -/
def State.port (s : State) (k : Nat) : PortSt := s.ports.getD k {}

def State.putPort (s : State) (k : Nat) (v : PortSt) : State := { s with ports := s.ports.setD k {} v }

def State.modPort (s : State) (k : Nat) (g : PortSt → PortSt) : State := s.putPort k (g (s.port k))

/-- The entry of `lanes` at a lane. -/
def State.lane (s : State) (k : Nat) : LaneSt := s.lanes.getD k {}

def State.putLane (s : State) (k : Nat) (v : LaneSt) : State := { s with lanes := s.lanes.setD k {} v }

def State.modLane (s : State) (k : Nat) (g : LaneSt → LaneSt) : State := s.putLane k (g (s.lane k))

/-- The entry of `tx` at a fabric port. -/
def State.txOf (s : State) (k : Nat) : LinkTx := s.tx.getD k {}

def State.putTxOf (s : State) (k : Nat) (v : LinkTx) : State := { s with tx := s.tx.setD k {} v }

def State.modTxOf (s : State) (k : Nat) (g : LinkTx → LinkTx) : State := s.putTxOf k (g (s.txOf k))

/-- The entry of `rx` at a fabric port. -/
def State.rxOf (s : State) (k : Nat) : LinkRx := s.rx.getD k {}

def State.putRxOf (s : State) (k : Nat) (v : LinkRx) : State := { s with rx := s.rx.setD k {} v }

def State.modRxOf (s : State) (k : Nat) (g : LinkRx → LinkRx) : State := s.putRxOf k (g (s.rxOf k))

/-- The entry of `inq` at a 16·port + VC. -/
def State.inqOf (s : State) (k : Nat) : List InPkt := s.inq.getD k []

def State.putInqOf (s : State) (k : Nat) (v : List InPkt) : State := { s with inq := s.inq.setD k [] v }

def State.modInqOf (s : State) (k : Nat) (g : List InPkt → List InPkt) : State := s.putInqOf k (g (s.inqOf k))

/-- The entry of `outq` at a 16·port + VC. -/
def State.outqOf (s : State) (k : Nat) : List OutPkt := s.outq.getD k []

def State.putOutqOf (s : State) (k : Nat) (v : List OutPkt) : State := { s with outq := s.outq.setD k [] v }

def State.modOutqOf (s : State) (k : Nat) (g : List OutPkt → List OutPkt) : State := s.putOutqOf k (g (s.outqOf k))

/-- The entry of `vcbuf` at a 16·port + VC. -/
def State.vcb (s : State) (k : Nat) : VcBuf := s.vcbuf.getD k {}

def State.putVcb (s : State) (k : Nat) (v : VcBuf) : State := { s with vcbuf := s.vcbuf.setD k {} v }

def State.modVcb (s : State) (k : Nat) (g : VcBuf → VcBuf) : State := s.putVcb k (g (s.vcb k))

/-- The entry of `inFlows` at a flow key. -/
def State.inFlow (s : State) (k : Nat) : InFlow := s.inFlows.getD k {}

def State.putInFlow (s : State) (k : Nat) (v : InFlow) : State := { s with inFlows := s.inFlows.setD k {} v }

def State.modInFlow (s : State) (k : Nat) (g : InFlow → InFlow) : State := s.putInFlow k (g (s.inFlow k))

/-- The entry of `egFlows` at a flow key. -/
def State.egFlow (s : State) (k : Nat) : EgFlow := s.egFlows.getD k {}

def State.putEgFlow (s : State) (k : Nat) (v : EgFlow) : State := { s with egFlows := s.egFlows.setD k {} v }

def State.modEgFlow (s : State) (k : Nat) (g : EgFlow → EgFlow) : State := s.putEgFlow k (g (s.egFlow k))

/-- The entry of `buckets` at a member. -/
def State.bucket (s : State) (k : Nat) : Buckets := s.buckets.getD k {}

def State.putBucket (s : State) (k : Nat) (v : Buckets) : State := { s with buckets := s.buckets.setD k {} v }

def State.modBucket (s : State) (k : Nat) (g : Buckets → Buckets) : State := s.putBucket k (g (s.bucket k))

/-- The entry of `slots` at a slot. -/
def State.slot (s : State) (k : Nat) : SlotSt := s.slots.getD k {}

def State.putSlot (s : State) (k : Nat) (v : SlotSt) : State := { s with slots := s.slots.setD k {} v }

def State.modSlot (s : State) (k : Nat) (g : SlotSt → SlotSt) : State := s.putSlot k (g (s.slot k))

/-- The entry of `banks` at a bank word. -/
def State.bankWord (s : State) (k : Nat) : BankWord := s.banks.getD k {}

def State.putBankWord (s : State) (k : Nat) (v : BankWord) : State := { s with banks := s.banks.setD k {} v }

def State.modBankWord (s : State) (k : Nat) (g : BankWord → BankWord) : State := s.putBankWord k (g (s.bankWord k))

/-- The entry of `ctxs` at a 4·core + context. -/
def State.ctx (s : State) (k : Nat) : PipCtx := s.ctxs.getD k {}

def State.putCtx (s : State) (k : Nat) (v : PipCtx) : State := { s with ctxs := s.ctxs.setD k {} v }

def State.modCtx (s : State) (k : Nat) (g : PipCtx → PipCtx) : State := s.putCtx k (g (s.ctx k))

/-- The entry of `streams` at a stream. -/
def State.streamOf (s : State) (k : Nat) : StreamEntry := s.streams.getD k {}

def State.putStreamOf (s : State) (k : Nat) (v : StreamEntry) : State := { s with streams := s.streams.setD k {} v }

def State.modStreamOf (s : State) (k : Nat) (g : StreamEntry → StreamEntry) : State := s.putStreamOf k (g (s.streamOf k))

/-- The entry of `streamShadow` at a stream. -/
def State.streamShadowOf (s : State) (k : Nat) : StreamEntry := s.streamShadow.getD k {}

def State.putStreamShadowOf (s : State) (k : Nat) (v : StreamEntry) : State := { s with streamShadow := s.streamShadow.setD k {} v }

def State.modStreamShadowOf (s : State) (k : Nat) (g : StreamEntry → StreamEntry) : State := s.putStreamShadowOf k (g (s.streamShadowOf k))

/-- The entry of `runs` at a stream. -/
def State.run (s : State) (k : Nat) : StreamRun := s.runs.getD k {}

def State.putRun (s : State) (k : Nat) (v : StreamRun) : State := { s with runs := s.runs.setD k {} v }

def State.modRun (s : State) (k : Nat) (g : StreamRun → StreamRun) : State := s.putRun k (g (s.run k))

/-- The entry of `eth` at a 2·port + sub-port. -/
def State.ethOf (s : State) (k : Nat) : EthSt := s.eth.getD k {}

def State.putEthOf (s : State) (k : Nat) (v : EthSt) : State := { s with eth := s.eth.setD k {} v }

def State.modEthOf (s : State) (k : Nat) (g : EthSt → EthSt) : State := s.putEthOf k (g (s.ethOf k))

/-- The entry of `mbx` at a mailbox. -/
def State.mbxOf (s : State) (k : Nat) : MbxSt := s.mbx.getD k {}

def State.putMbxOf (s : State) (k : Nat) (v : MbxSt) : State := { s with mbx := s.mbx.setD k {} v }

def State.modMbxOf (s : State) (k : Nat) (g : MbxSt → MbxSt) : State := s.putMbxOf k (g (s.mbxOf k))

/-- The live instance of a slot and step, if there is one: FREE is the absence of a record (05 R119). -/
def State.inst? (s : State) (slot step : Nat) : Option Instance :=
  (s.insts.find? fun e => e.1 = 65536 * slot + step).map (·.2)

/-- Write an instance record; tables of instances list every record, also one equal to the empty record. -/
def Tab.insert {α : Type} (t : Tab α) (k : Nat) (v : α) : Tab α :=
  match t with
  | [] => [(k, v)]
  | (j, u) :: r => if k < j then (k, v) :: (j, u) :: r else if k = j then (k, v) :: r else (j, u) :: Tab.insert r k v

def Tab.erase {α : Type} (t : Tab α) (k : Nat) : Tab α := t.filter fun e => e.1 ≠ k

def Tab.find {α : Type} (t : Tab α) (k : Nat) : Option α := (t.find? fun e => e.1 = k).map (·.2)

def State.putInst (s : State) (slot step : Nat) (i : Instance) : State :=
  { s with insts := s.insts.insert (65536 * slot + step) i }

def State.dropInst (s : State) (slot step : Nat) : State :=
  { s with insts := s.insts.erase (65536 * slot + step) }

/-! ## Outputs, free values, time -/

/-- Append to what has left the module. [DESIGN CHOICE log 6] -/
def State.emit (s : State) (o : Out) : State := { s with out := s.out ++ [o] }

/-- Draw the next free value's index. [DESIGN CHOICE log 14] -/
def State.draw (s : State) : Nat × State := (s.fresh, { s with fresh := s.fresh + 1 })

/-- Rack time in ns (14 R347): the module's count with its disciplined offset. -/
def State.rackTime (s : State) : Nat := (Int.ofNat s.now + s.phys.timeOffset).toNat

/-- This module's ID: group from its tray and plane, plane bit (01 R6, R10; 02 R48). -/
def State.group (s : State) : Nat := if s.plane then (s.tray + 4) % 8 else s.tray

def State.self (s : State) : Nat := s.group + (if s.plane then 16 else 0)

/-- Change many keys in turn. -/
def State.each (s : State) (ks : List Nat) (f : State → Nat → State) : State := ks.foldl f s

/-- Apply when a condition holds. -/
def State.onlyIf (s : State) (c : Bool) (f : State → State) : State := if c then f s else s

/-! ## Counters (18) -/

/-- Programmable counters of a unit (18 R430). -/
def unitCounters (u : Nat) : Nat :=
  if u < 132 then 8 else if u < 196 then 4 else if u < 260 then 8 else 4

/-- Whether a unit lies in the main domain (18 R430). -/
def unitInMain (u : Nat) : Bool := u < 272

/-- Whether a unit counts: its domain is up and it is not frozen (18 R430). -/
def State.unitCounts (s : State) (u : Nat) : Bool :=
  !s.flag F.cntUstatFrozen u && (!unitInMain u || s.flag F.hubIdStatMainOn)

/-- Cycles of a unit's clock in one TICK: 24 of PCLK, 18 of FCLK, 9 of MCLK (18 R430; 19 R443). -/
def clocksPerTick (u : Nat) : Nat :=
  if u < 196 then 24 else if u < 260 then 18 else if u < 264 then 24 else if u < 272 then 18 else 9

/-- A unit's fixed cycle counter: cycles since its domain came up; a frozen unit keeps its value (18 R430). -/
def State.cycles (s : State) (u : Nat) : Nat :=
  match s.cntHeld.getD u 0 with
  | n + 1 => n
  | 0 => if !unitInMain u then s.tick * clocksPerTick u
         else if s.flag F.hubIdStatMainOn then (s.tick - s.mainSince) * clocksPerTick u else 0

/-- A fenced, retired or failed unit keeps its values and stops counting (18 R430). -/
def State.freeze (s : State) (u : Nat) : State :=
  if s.flag F.cntUstatFrozen u then s
  else { s.wr F.cntUstatFrozen 1 u with cntHeld := s.cntHeld.setD u 0 (s.cycles u + 1) }

/-- Add to counter `k` of unit `u`, carrying into a chained counter k + 1 (18 R433); `fuel` bounds the chain. -/
def State.cntAdd (s : State) (u k n : Nat) : Nat → State
  | 0 => s
  | fuel + 1 =>
    let v := s.cnt.getD (16 * u + k) 0 + n
    let s := { s with cnt := s.cnt.setD (16 * u + k) 0 (v % 2 ^ 48) }
    if v < 2 ^ 48 then s
    else if k + 1 < unitCounters u && s.flag F.cntSelChain (8 * u + k + 1) then
      if s.flag F.cntSelEn (8 * u + k + 1) then s.cntAdd u (k + 1) (v / 2 ^ 48) fuel else s
    else s.wr F.cntSelOvf 1 (8 * u + k)

/-- `n` occurrences of event `ev` of unit `u`: every enabled, unchained counter that selects it in mode 0 (18 R432). -/
def State.ev (s : State) (u ev : Nat) (n : Nat := 1) : State :=
  if s.unitCounts u then
    (List.range (unitCounters u)).foldl (fun s k =>
      if s.flag F.cntSelEn (8 * u + k) && s.rd F.cntSelMode (8 * u + k) = 0 && s.rd F.cntSelEvent (8 * u + k) = ev
          && !(s.flag F.cntSelChain (8 * u + k) && k ≠ 0)
      then s.cntAdd u k n 8 else s) s
  else s

/-- An always-running counter of 64 bits (18 R437). -/
def State.bump (s : State) (i : Nat) (n : Nat := 1) : State :=
  { s with always := s.always.setD i 0 ((s.always.getD i 0 + n) % 2 ^ 64) }

/-- A link counter of 48 bits, saturating (18 R431). -/
def State.linkCount (s : State) (port k : Nat) : State :=
  { s with linkCnt := s.linkCnt.setD (4 * port + k) 0 (Nat.min (s.linkCnt.getD (4 * port + k) 0 + 1) (2 ^ 48 - 1)) }

/-- Units of the counters (18 R430). -/
def U.core (c : Nat) : Nat := c
def U.dealer (q : Nat) : Nat := 128 + q
def U.bank (q b : Nat) : Nat := 132 + 16 * q + b / 32
def U.mem (ch : Nat) : Nat := 196 + ch
def U.strm (q : Nat) : Nat := 260 + q
def U.eth (k : Nat) : Nat := 264 + k
def U.pcie : Nat := 272
def U.hub : Nat := 273

/-! ## Interrupts (12 R301, 13 R330) -/

/-- Send the MSI-X message of a vector, or pend it in the PBA while its table entry is masked (13 R330). [PRESUMED log 19; DEDUCED log 87] -/
def State.msix (s : State) (v : Nat) : State :=
  if (s.msixTable.getD (2 * v + 1) (1 <<< 32)).getLsbD 32 then { s with pba := s.pba ||| (1 <<< v) }
  else (s.emit (.msix v)).ev U.hub 0x06

/-- A source of vector `v` has an event: the bit sets, and its message goes when it was 0 and is not masked. -/
def State.irq (s : State) (v : Nat) : State :=
  if (s.reg .hubIrqStat 0).getLsbD v then s
  else
    let s := s.setReg .hubIrqStat 0 (s.reg .hubIrqStat 0 ||| (1 <<< v))
    if (s.reg .hubIrqMask 0).getLsbD v then s else s.msix v

/-! ## Reports and ledger requests -/

/-- An INPUT report of this agent to the acting conductor: numbered, kept until acknowledged (14 R336, R339). -/
def State.report (s : State) (r : Report) : State :=
  let a := s.agent
  (({ s with agent := { a with aseq := a.aseq + 1, unacked := a.unacked ++ [(a.aseq, r)] } }).emit
    (.report r a.aseq)).ev U.hub 0x03

/-- Ask for a ledger commit; while PWR_FAIL_N is low it is refused, and its writer repeats it after power returns: the
request waits (16 R390, R395). -/
def State.askLedger (s : State) (type key : Nat) (payload : List Byte) (rseq : Option Nat := none) : State :=
  let l := s.ledger
  let s := { s with ledger := { l with queue := l.queue ++ [CommitReq.mk type key payload rseq 0] } }
  if s.phys.pwrFail then s.bump 31 else s.ev U.hub 0x05

/-- A fence or its release goes into the ledger's fence history (14 R352; 16 R388). [DESIGN CHOICE log 15] -/
def State.fenceRecord (s : State) (kind unit cause : Nat) (release : Bool) : State :=
  let n := s.ledger.runFence
  let s := { s with ledger := { s.ledger with runFence := n + 1 } }
  s.askLedger 6 (n % 65536) (leBytes 1 (Config.unitKind kind) ++ leBytes 1 0 ++ leBytes 2 unit ++
    leBytes 1 (Config.fenceCause cause) ++ leBytes 3 0 ++ leBytes 8 s.rackTime ++ leBytes 4 (s.rd F.ledgHoursHoursMain) ++
    leBytes 1 (if release then 1 else 0) ++ leBytes 27 0)

/-! ## Error records (17 R415 to R422) -/

/-- The 48 bytes of an error record (17 R415). [DEDUCED log 88] -/
def errBytes (r : ErrRec) : List Byte :=
  leBytes 2 r.code ++
  leBytes 1 (r.sev + (if r.multiple then 4 else 0) + (if r.injected then 8 else 0) + (if r.linked then 16 else 0)
    + (if r.superseded then 32 else 0) + (if r.escalated then 64 else 0)) ++ [0] ++
  leBytes 2 r.inst ++ leBytes 2 r.count ++ leBytes 8 r.rseq ++ leBytes 8 r.rtime ++ leBytes 8 r.lastRtime ++
  leBytes 8 r.info ++ leBytes 4 r.info2 ++ leBytes 4 r.chain

/-- An entry that the ring may not overwrite: an unacknowledged CONTAINED or FATAL_MODULE record (17 R417). -/
def ErrRec.holds (r : ErrRec) : Bool := 2 ≤ r.sev && !r.acked

/-- How many entries hold such records: ERR_STAT.CF_HELD. -/
def State.cfHeld (s : State) : Nat := (s.errs.filter fun e => e.2.holds).length

/-- Write a ring entry. [DEDUCED log 24] -/
def State.putErr (s : State) (idx : Nat) (r : ErrRec) : State :=
  let s := { s with errs := s.errs.insert idx r }
  s.wr F.errStatCfHeld s.cfHeld

def State.modErr (s : State) (idx : Nat) (g : ErrRec → ErrRec) : State :=
  match s.errs.find idx with
  | some r => s.putErr idx (g r)
  | none => s

/-- The first entry at or after `i` that may be written, among the next `n` (17 R417). [DEDUCED log 24] -/
def State.nextErrIdx (s : State) (i : Nat) : Nat → Option Nat
  | 0 => none
  | n + 1 =>
    if (s.errs.find (i % 512)).any ErrRec.holds then s.nextErrIdx (i + 1) n else some (i % 512)

/-- The oldest CONTAINED record whose commit is complete (17 R417). -/
def State.oldestCommitted (s : State) : Option Nat :=
  (s.errs.foldl (fun (b : Option (Nat × Nat)) e =>
    if e.2.sev = 2 && e.2.cseq ≠ 0 && (b.all fun x => e.2.rseq < x.2) then some (e.1, e.2.rseq) else b) none).map (·.1)

/-- Put a new record in the ring, or drop it (17 R417). -/
def State.ringPut (s : State) (r : ErrRec) : State :=
  if r.sev < 2 && 448 ≤ s.cfHeld then s.addSat F.errDropDropped 1
  else
    match s.nextErrIdx (s.rd F.errStatWriteIdx) 512 with
    | some i =>
      let s := s.onlyIf ((s.errs.find i).any fun o => o.sev < 2 && !o.acked) (·.addSat F.errDropDropped 1)
      let s := s.putErr i r
      s.wr F.errStatWriteIdx ((s.nextErrIdx (i + 1) 512).getD ((i + 1) % 512))
    | none =>
      let s := s.addSat F.errDropCfDropped 1
      match s.oldestCommitted with
      | some i => s.putErr i r
      | none => s

/-- Live streams end for a cause whose status the spec does not give: a free one of the terminal codes 3 to 8 (10 R260). -/
def State.endRunsFree (s : State) : State :=
  let d := s.draw
  let code := 3 + Config.freeNat d.1 % 6
  { d.2 with runs := s.runs.map fun (e : Nat × StreamRun) =>
      (e.1, if e.2.status = 1 || e.2.status = 2 then { e.2 with status := code, ending := none } else e.2) }

/-- 17 R414: slots stop on every fabric port, Ethernet ports go down, every core halts, every stream and fabric memory
write ends. The hub domain runs on; a conductor stops its heartbeats (COND mode is left to the partner's takeover). [DEDUCED log 89] -/
def State.fatalStop (s : State) : State :=
  let s := { s with phys := { s.phys with fatal := true } }
  let s := s.wr F.errStatFatal 1
  let s := s.each (List.range 8) fun s k => s.wr F.ethStatLink 0 k
  let s := { s with ctxs := s.ctxs.map fun (e : Nat × PipCtx) => (e.1, { e.2 with run := CtxRun.stopped, sends := [] }) }
  s.endRunsFree

/-- The open records that a detection on unit (class of `code`, `inst`) or in response to `cause` is nested in
(17 R419). -/
def State.nestedIn (s : State) (code inst : Nat) (cause : Option Nat) : List (Nat × ErrRec) :=
  s.errs.filter fun e => e.2.open_ && (cause = some e.2.rseq || (e.2.code / 1024 = code / 1024 && e.2.inst = inst))

/-- The newest of some records. -/
def newestOf (l : List (Nat × ErrRec)) : Option (Nat × ErrRec) :=
  l.foldl (fun b e => if b.all fun x => x.2.rseq < e.2.rseq then some e else b) none

/-- A new record: numbered, put in the ring, counted (18 R437), and sent where its severity says (17 R413). -/
def State.newRecord (s : State) (r : ErrRec) : State :=
  let r := { r with rseq := s.rseq, rtime := s.rackTime, lastRtime := s.rackTime }
  let s := { s with rseq := s.rseq + 1 }
  let s := (s.ringPut r).bump (32 + r.sev)
  let s := if 2 ≤ r.sev then (s.irq 44).askLedger 7 (s.ledger.runError % 65536) (errBytes r) (some r.rseq) else s
  let s := s.onlyIf (decide (2 ≤ r.sev)) fun s => { s with ledger := { s.ledger with runError := s.ledger.runError + 1 } }
  if r.sev = 3 then s.fatalStop else s

/-- A detection by detector `code` of unit `inst`: combined with an open record or recorded anew (17 R419 to R422,
R428, R429). `cause` is the RSEQ of the record whose response raised it. -/
def State.raise (s : State) (code inst : Nat) (info info2 : Nat := 0) (cause : Option Nat := none)
    (inj : Bool := false) (sev : Nat := severityOf code) : State :=
  if isErrPath code then
    s.newRecord { code := E.errPath, sev := 3, inst := 0, injected := inj, escalated := true,
                  info := code + 2 ^ 32 * ((cause.getD 0) % 2 ^ 32) }
  else
    let nested := s.nestedIn code inst cause
    let same := nested.filter fun e => e.2.code = code && e.2.inst = inst && (inj || !e.2.injected)
    match newestOf same with
    | some (i, _) =>
      s.modErr i fun r => { r with count := Nat.min (r.count + 1) 65535, multiple := true, lastRtime := s.rackTime,
                                   injected := r.injected && inj }
    | none =>
      match newestOf nested with
      | some (i, o) =>
        let s := s.onlyIf (decide (o.sev < sev)) fun s => s.modErr i fun r => { r with superseded := true }
        s.newRecord { code, sev, inst, info, info2, injected := inj, linked := true, chain := o.rseq % 2 ^ 32 }
      | none => s.newRecord { code, sev, inst, info, info2, injected := inj }

/-- Whether a die fires on its next counted event (17 R425, R426). [DEDUCED log 66] -/
def Die.fires (d : Die) : Bool :=
  match d.mode with
  | 1 => true
  | 2 => (d.count + 1) % (if d.n = 0 then 1 else d.n) = 0
  | _ => true

/-- One evaluation of a detector: the loaded die counts the event and may fire. Answers whether the evaluation fails and
whether that failure is injected (17 R425, R426, R429). [DEDUCED log 66] -/
def State.evaluate (s : State) (code inst : Nat) (real : Bool) : State × Bool × Bool :=
  match s.dice.find? fun d => d.code = code && (!d.filter || d.inst = inst) with
  | none => (s, real, false)
  | some d =>
    let fired := d.fires
    let rest := s.dice.filter fun e => e.code ≠ code
    let s := { s with dice := if fired && d.mode = 1 then rest
                              else s.dice.map fun (e : Die) => if e.code = code then { e with count := e.count + 1 } else e }
    let s := s.onlyIf fired fun s => (s.addSat F.errInjstatFired 1).wr F.errInjstatArmed s.dice.length
    (s, real || fired, fired && !real)

/-- Evaluate a detector and record its failure; answers whether it failed. [DEDUCED log 66] -/
def State.check (s : State) (code inst : Nat) (real : Bool) (info info2 : Nat := 0) (cause : Option Nat := none) :
    State × Bool :=
  let e := s.evaluate code inst real
  if e.2.1 then (e.1.raise code inst info info2 cause e.2.2, true) else (e.1, false)

/-- RSEQ of the record a response serves: the newest record. -/
def State.lastRseq (s : State) : Option Nat := if s.rseq ≤ 1 then none else some (s.rseq - 1)

end Sys2Proof.Machine
end

