-- ==== Sys2Proof/Machine/Buffer.lean ====
section
/-! DEFINITION. The shared packet buffer (04 R88 to R92, R96 to R98): cells, credits, allowances, token buckets and the
grant of shared cells. A buffer account is 16·input port + VC; input ports 0 to 143 are fabric ports, 144 + 7q + k the
internal ports of quadrant q: k = 0 to 2 the other quadrants in ascending order, 3 COLL, 4 MEM, 5 GATE, 6 HUB (R85). -/

namespace Sys2Proof.Machine

/-- The quadrant of an input port. -/
def portQuad (p : Nat) : Nat := if p < 144 then p / 36 else (p - 144) / 7

/-- The internal input port `k` of a quadrant. -/
def corePort (q k : Nat) : Nat := 144 + 7 * q + k

/-- The die-to-die input port of quadrant `to` that comes from quadrant `src`. -/
def d2dPort (to_ src : Nat) : Nat := corePort to_ (if src < to_ then src else src - 1)

/-- QSW_BUFRSV.IRES as it acts: at least 65. -/
def State.ires (s : State) (q : Nat) : Nat := Nat.max 65 (s.rd F.qswBufrsvIres q)

/-- QSW_BUFRSV.QMIN as it acts: at most 64. -/
def State.qmin (s : State) (q : Nat) : Nat := Nat.min 64 (s.rd F.qswBufrsvQmin q)

/-- Usable cells of a cell store: each retired bank takes its 8,192 cells (07 R163, R180). -/
def State.cellsOf (s : State) (q lo n : Nat) : Nat :=
  8192 * (n - (s.retired.filter fun b => 512 * q + lo ≤ b && b < 512 * q + lo + n).length)

/-- The shared pool's size: what the reserves leave (04 R89). -/
def State.sharedSize (s : State) (q : Nat) : Nat :=
  s.cellsOf q 384 64 - (39 * 3 * 65 + 43 * 6 * s.ires q + 43 * 6 * s.qmin q)

/-- Free cells of the shared pool: `F` of 04 R90. -/
def State.sharedFree (s : State) (q : Nat) : Nat := s.sharedSize q - s.shared.getD q 0

/-- ⌊α × F⌋ for the code of a class (04 R90, QSW_BUFCFG). -/
def State.alphaShare (s : State) (q tc : Nat) : Nat :=
  2 ^ bitsOf (s.reg .qswBufcfg q) (3 * tc) 3 * s.sharedFree q / 16

/-- QSW_BUFCFG.CAP as it acts, in cells. -/
def State.bufCap (s : State) (q : Nat) : Nat :=
  256 * (if s.rd F.qswBufcfgCap q = 0 then 128 else s.rd F.qswBufcfgCap q)

/-- The allowance of a main VC (04 R90). -/
def State.allowance (s : State) (q tc : Nat) : Nat :=
  Nat.min (s.ires q + s.alphaShare q tc) (s.bufCap q)

/-- Outstanding cells of an account: `O` of 04 R90. -/
def VcBuf.outstanding (b : VcBuf) (due : Nat) : Nat := b.credits + due + b.flits

/-- Credits granted and not yet returned, of an account. -/
def State.dueOf (s : State) (acct : Nat) : Nat := (s.txOf (acct / 16)).due.getD (acct % 16) 0

/-- The allowance an account stands at: as last recomputed, or by the formula where it never was. -/
def State.allowOf (s : State) (acct : Nat) : Nat :=
  if (s.vcb acct).allow = 0 then s.allowance (portQuad (acct / 16)) (acct % 16) else (s.vcb acct).allow

/-- Take one backing cell for an account: the ingress reserve first, then the shared pool; escape VCs have their own 65
(04 R89, R90). -/
def State.takeCell (s : State) (acct : Nat) : Option State :=
  let q := portQuad (acct / 16)
  let b := s.vcb acct
  if 8 ≤ acct % 16 then
    if b.resCells < 65 then some (s.putVcb acct { b with resCells := b.resCells + 1 }) else none
  else if b.resCells < s.ires q then some (s.putVcb acct { b with resCells := b.resCells + 1 })
  else if 0 < s.sharedFree q then
    some ({ s with shared := s.shared.mod q 0 (· + 1) }.putVcb acct { b with shCells := b.shCells + 1 })
  else none

/-- Give back one cell of an account: a shared cell if it holds any (04 R91). -/
def State.freeCell (s : State) (acct : Nat) : State :=
  let b := s.vcb acct
  if 0 < b.shCells then
    { s with shared := s.shared.mod (portQuad (acct / 16)) 0 (· - 1) }.putVcb acct { b with shCells := b.shCells - 1 }
  else s.putVcb acct { b with resCells := b.resCells - 1 }

/-- A flit charged to an account leaves it. -/
def State.dropFlit (s : State) (acct : Nat) : State :=
  (s.modVcb acct fun b => { b with flits := b.flits - 1 }).freeCell acct

/-- `n` flits charged to an account leave it. -/
def State.dropFlits (s : State) (acct n : Nat) : State := iter (·.dropFlit acct) n s

/-! ## Ingress rates (04 R96, R97) -/

/-- The member whose link a port is, by MEMBER_PORTS. -/
def State.memberOf (s : State) (p : Nat) : Option Nat :=
  ((s.tables.memberPorts.find? fun e => e.2 = p + 1)).map fun e => e.1 / 8

/-- The quadrant in which a member's links lie: all of them in one (04 R97). -/
def State.memberQuad (s : State) (m : Nat) : Nat :=
  match ((List.range 8).map fun l => s.tables.memberPorts.getD (8 * m + l) 0).find? fun e => e ≠ 0 with
  | some e => (e - 1) / 36 % 4
  | none => 0

/-- RATE, BURST and level of a member's bucket for a class, levels in 1/16 flit (04 R97). -/
def State.burst (s : State) (q m tc : Nat) : Nat :=
  Nat.max 65 (if tc = 3 then s.rd F.qswRateBurstTc3 (32 * q + m) else s.rd F.qswRateBurstTc5 (32 * q + m))

def State.level (s : State) (m tc : Nat) : Int := if tc = 3 then (s.bucket m).tc3 else (s.bucket m).tc5

def State.putLevel (s : State) (m tc : Nat) (v : Int) : State :=
  let v := if v < -524288 then -524288 else v
  s.modBucket m fun b => if tc = 3 then { b with tc3 := v } else { b with tc5 := v }

/-- A head received on a member's link debits its class's bucket by LEN + 1 flits at once, discarded or not (04 R97). -/
def State.debit (s : State) (port vc : Nat) (h : Flit) : State :=
  match s.memberOf port with
  | some m => if vc = 3 || vc = 5 then s.putLevel m vc (s.level m vc - 16 * (hget h H.len + 1 : Nat)) else s
  | none => s

/-- A head that the replay brings again is debited once only (02 R31). -/
def State.undebit (s : State) (port vc : Nat) (h : Flit) : State :=
  match s.memberOf port with
  | some m => if vc = 3 || vc = 5 then s.putLevel m vc (s.level m vc + 16 * (hget h H.len + 1 : Nat)) else s
  | none => s

/-- Whether 04 R96 and R97 let the module return a credit on a VC of a port. -/
def State.creditAllowed (s : State) (p vc : Nat) : Bool :=
  match s.memberOf p with
  | none => true
  | some m =>
    !(s.flag F.portIngctlHold p && (vc = 0 || vc = 1 || vc = 3 || vc = 5)) &&
    !((vc = 3 || vc = 5) && s.level m vc ≤ 0)

/-! ## The shared-cell arbitration (04 R90, R92) -/

/-- How many flits wait for a cell of an internal account. -/
def State.wanting (s : State) (acct : Nat) : Nat := (s.cellWait.filter fun e => e.1 = acct).length

/-- Whether an account may have a further credit (04 R90, R96, R97); a unit or a die-to-die path asks for no more than the flits
that wait. -/
def State.eligible (s : State) (acct : Nat) : Bool :=
  decide ((s.vcb acct).outstanding (s.dueOf acct) < s.allowOf acct) &&
  (if 144 ≤ acct / 16 then decide ((s.vcb acct).credits < s.wanting acct) else s.creditAllowed (acct / 16) (acct % 16))

/-- The waiting accounts of a quadrant that a freed cell may go to. -/
def State.waiters (s : State) (q : Nat) : List Nat :=
  (s.vcbuf.filter fun e => e.2.waits && portQuad (e.1 / 16) = q && s.eligible e.1).map (·.1)

/-- Whether another main VC of the quadrant waits for a shared cell (04 R92). -/
def State.othersWait (s : State) (acct : Nat) : Bool :=
  (s.waiters (portQuad (acct / 16))).any fun a => a ≠ acct

/-- Whether an account may take a cell now without waiting: its ingress reserve has one, or no other VC waits before it. -/
def State.mayTake (s : State) (acct : Nat) : Bool :=
  decide ((s.vcb acct).resCells < s.ires (portQuad (acct / 16))) || !s.othersWait acct

/-- One credit more for the far side of (port, VC), if 04 R90, R96 and R97 allow it: its backing cell is taken now. -/
def State.grantCredit (s : State) (p vc : Nat) : Option State :=
  let acct := 16 * p + vc
  let b := s.vcb acct
  if 8 ≤ vc then
    (if b.credits + b.flits < 65 then s.takeCell acct else none).map fun s =>
      s.modVcb acct fun b => { b with credits := b.credits + 1 }
  else if s.creditAllowed p vc && b.outstanding (s.dueOf acct) < s.allowOf acct && s.mayTake acct then
    (s.takeCell acct).map fun s => s.modVcb acct fun b => { b with credits := b.credits + 1, age := 0 }
  else none

/-- Grant up to `n` credits and count them. -/
def State.grantCredits (s : State) (p vc : Nat) : Nat → State × Nat
  | 0 => (s, 0)
  | n + 1 =>
    match s.grantCredit p vc with
    | some s' => let r := s'.grantCredits p vc n; (r.1, r.2 + 1)
    | none => (s, 0)

/-- The credits a slot returns on a VC: those granted by arbitration first, then new ones, at most 15 (02 R34), none while 04 R96 or
R97 withholds them. A main VC refused only for want of a shared cell waits (04 R92). -/
def State.returnCredits (s : State) (p vc : Nat) : State × Nat :=
  let acct := 16 * p + vc
  let d := if 8 ≤ vc || s.creditAllowed p vc then Nat.min 15 (s.dueOf acct) else 0
  let s := s.modTxOf p fun t => { t with due := t.due.mod vc 0 (· - d) }
  let s := s.modVcb acct fun b => { b with credits := b.credits + d }
  let r := s.grantCredits p vc (15 - d)
  let starved := vc < 6 && d + r.2 < 15 && r.1.eligible acct
  (r.1.modVcb acct fun b => if starved then { b with waits := true } else { b with waits := b.waits && 15 ≤ d + r.2 }, d + r.2)

/-- The class rank of 04 R92: TC4, TC3, TC5, TC1, TC2, TC0. -/
def classRank (tc : Nat) : Nat := [0, 2, 1, 4, 5, 3].getD tc 0

/-- Whether account `a` goes before `b` in the shared-cell arbitration: class rank, then round robin over input ports from
the one after `last`. -/
def grantBefore (last a b : Nat) : Bool :=
  let ra := classRank (a % 16)
  let rb := classRank (b % 16)
  ra > rb || (ra = rb && (a / 16 + 1024 - (last + 1)) % 1024 < (b / 16 + 1024 - (last + 1)) % 1024)

/-- Give one shared cell to a waiting account; the credit it backs is due to its far side, or held by its unit or path. The VC waits
on, its age zero, while its allowance leaves it short (04 R92, R98). -/
def State.grantShared (s : State) (acct : Nat) : State :=
  match s.takeCell acct with
  | some s =>
    let s := if acct / 16 < 144 then s.modTxOf (acct / 16) fun t => { t with due := t.due.mod (acct % 16) 0 (· + 1) }
      else s.modVcb acct fun b => { b with credits := b.credits + 1 }
    s.modVcb acct fun b => { b with age := 0, waits := s.eligible acct }
  | none => s

/-- 04 R92: freed shared cells go to the waiting VCs by rank, one at a time, while both last. -/
def State.sharedGrants (s : State) (q : Nat) : Nat → State
  | 0 => s
  | n + 1 =>
    match (s.waiters q).foldl (fun b a =>
        match b with
        | none => some a
        | some x => if grantBefore (s.arb.getD q 0) a x then some a else b) (none : Option Nat) with
    | none => s
    | some a =>
      if 0 < s.sharedFree q then
        State.sharedGrants ({ s.grantShared a with arb := s.arb.setD q 0 (a / 16) }) q n
      else s

/-! ## Cells on the way through (04 R86, R88, R89, R91) -/

/-- The account that a packet of arrival account `acct` holds in the quadrant of the output it is queued for, queue
`key` = 16·port + VC: its own, or the die-to-die input's for the VC it leaves on. [DESIGN CHOICE log 140] -/
def pathAcct (acct key : Nat) : Nat :=
  let q := portQuad (key / 16)
  if portQuad (acct / 16) = q then acct else 16 * d2dPort q (portQuad (acct / 16)) + key % 16

/-- Whether a charged packet crosses a die-to-die path to its output. -/
def Charge.crosses (c : Charge) (key : Nat) : Bool := portQuad (c.acct / 16) ≠ portQuad (key / 16)

/-- Flits of a packet that its output may send now. -/
def Charge.ready (c : Charge) (key : Nat) : Nat :=
  c.qn + c.far + (if c.due = 0 && c.near = 0 && !c.crosses key then c.drawn else 0)

/-- A cell of an internal account for one flit of a unit or a die-to-die path: one granted before, else one taken now under
04 R90. -/
def State.acquire (s : State) (acct : Nat) : Option State :=
  let b := s.vcb acct
  if 0 < b.credits then some (s.putVcb acct { b with credits := b.credits - 1, flits := b.flits + 1 })
  else if 8 ≤ acct % 16 || (b.outstanding 0 < s.allowOf acct && s.mayTake acct) then
    (s.takeCell acct).map fun s => s.modVcb acct fun b => { b with flits := b.flits + 1 }
  else none

/-- A flit charged in its output's quadrant goes to the queue reserve while that has room; the flit's own cell then returns
(04 R91). Payload on its way to a deposit path enters no queue. -/
def State.queueFlit (s : State) (key : Nat) (c : Charge) : State × Charge :=
  let k := 16 * (key / 16) + c.tc
  if !(c.deposit && 0 < c.qn + c.far) && s.qcharge.getD k 0 < s.qmin (portQuad (key / 16)) then
    (({ s with qcharge := s.qcharge.mod k 0 (· + 1) }).dropFlit (pathAcct c.acct key), { c with qn := c.qn + 1 })
  else (s, { c with far := c.far + 1 })

/-- Queue `n` flits in turn. -/
def State.queueFlits (s : State) (key : Nat) (c : Charge) : Nat → State × Charge
  | 0 => (s, c)
  | n + 1 => let r := s.queueFlit key c; r.1.queueFlits key r.2 n

/-- Flits that begin to wait for cells of an account, for a packet of queue `key`. -/
def State.awaitCells (s : State) (acct key n : Nat) : State :=
  { s with cellWait := s.cellWait ++ List.replicate n (acct, key) }

/-- Charge a packet that is put into queue `key`: the flits at its account of arrival go to the queue, or wait for the die-to-die
path; those still with a unit wait for the unit's cells. -/
def State.charge (s : State) (key : Nat) (c : Charge) : State × Charge :=
  let r := if c.crosses key then (s.awaitCells (pathAcct c.acct key) key c.near, c)
    else s.queueFlits key { c with near := 0 } c.near
  let s := r.1.awaitCells c.acct key c.due
  (if c.due = 0 && c.crosses key then s.awaitCells (pathAcct c.acct key) key c.drawn else s, r.2)

/-- One more flit of a packet has come to its account of arrival. -/
def State.chargeMore (s : State) (key : Nat) (c : Charge) : State × Charge :=
  if c.crosses key then (s.awaitCells (pathAcct c.acct key) key 1, { c with near := c.near + 1 }) else s.queueFlit key c

/-- Serve one waiting flit of a packet with a cell of account `a`; none where it must wait on. -/
def State.serveFlit (s : State) (a key : Nat) (c : Charge) : Option (State × Charge) :=
  (s.acquire a).map fun s =>
    if 0 < c.due && c.acct = a then
      let c := { c with due := c.due - 1 }
      if c.crosses key then
        (s.awaitCells (pathAcct a key) key (1 + if c.due = 0 then c.drawn else 0), { c with near := c.near + 1 })
      else s.queueFlit key c
    else if 0 < c.near then (s.dropFlit c.acct).queueFlit key { c with near := c.near - 1 }
    else s.queueFlit key { c with drawn := c.drawn - 1 }

/-- Whether a packet of queue `key` has a flit that waits for a cell of account `a`. -/
def Charge.wants (c : Charge) (a key : Nat) : Bool :=
  (0 < c.due && c.acct = a) || (c.crosses key && pathAcct c.acct key = a && (0 < c.near || (c.due = 0 && 0 < c.drawn)))

/-- The charge of the first packet of a queue that waits for a cell of account `a`, and how to put another in its place. -/
def State.findCharge (s : State) (a key : Nat) : Option (Charge × (State → Charge → State)) :=
  if key / 16 < 144 then
    match (s.outqOf key).findIdx? fun o => o.chg.wants a key with
    | none => none
    | some i => ((s.outqOf key)[i]?).map fun o => (o.chg, fun s c => s.modOutqOf key fun q => q.set i { o with chg := c })
  else
    match s.local_.findIdx? fun l => corePort l.quad l.core = key / 16 && l.chg.wants a key with
    | none => none
    | some i => (s.local_[i]?).map fun l => (l.chg, fun s c => { s with local_ := s.local_.set i { l with chg := c } })

/-- Serve the flits that wait for cells, first come first served on each account; a main VC that finds none waits for a shared
cell (04 R89, R92). -/
def State.serveCells (s : State) : State :=
  if s.cellWait = [] then s
  else
    let r := s.cellWait.foldl (fun (x : State × List Nat × List (Nat × Nat)) e =>
      if x.2.1.contains e.1 then (x.1, x.2.1, x.2.2 ++ [e])
      else
        match x.1.findCharge e.1 e.2 with
        | none => x
        | some (c, put) =>
          match x.1.serveFlit e.1 e.2 c with
          | some r => ((put r.1 r.2).modVcb e.1 fun b => { b with waits := false, age := 0 }, x.2.1, x.2.2)
          | none => (x.1.modVcb e.1 fun b => { b with waits := e.1 % 16 < 8 }, e.1 :: x.2.1, x.2.2 ++ [e]))
      ({ s with cellWait := [] }, [], [])
    { r.1 with cellWait := r.2.2 ++ r.1.cellWait }

/-- Freed shared cells go to the waiting VCs, and waiting flits move on: over the unit's cells, then over the path. -/
def State.moveCells (s : State) : State :=
  let s := if s.vcbuf.all fun e => !e.2.waits then s else s.each [0, 1, 2, 3] fun s q => s.sharedGrants q 258
  s.serveCells.serveCells

/-- Release the cell of the oldest unsent flit of a packet in queue `key` (04 R91). -/
def State.releaseOne (s : State) (key : Nat) (c : Charge) : State × Charge :=
  if 0 < c.qn then
    ({ s with qcharge := s.qcharge.mod (16 * (key / 16) + c.tc) 0 (· - 1) }, { c with qn := c.qn - 1 })
  else if 0 < c.far then (s.dropFlit (pathAcct c.acct key), { c with far := c.far - 1 })
  else (s, { c with drawn := c.drawn - 1 })

/-- Release every cell that a packet in queue `key` holds. -/
def State.releaseAll (s : State) (key : Nat) (c : Charge) : State :=
  (({ s with qcharge := s.qcharge.mod (16 * (key / 16) + c.tc) 0 (· - c.qn) }).dropFlits (pathAcct c.acct key) c.far).dropFlits
    c.acct c.near

/-- Put `f` flits of the output's quadrant and `n` of the queue reserve back on a packet's account of arrival, past the ingress reserve if
need be. [DESIGN CHOICE log 140] -/
def State.moveBack (s : State) (key : Nat) (c : Charge) (f n : Nat) : State :=
  let s := { s with qcharge := s.qcharge.mod (16 * (key / 16) + c.tc) 0 (· - n) }
  let moved := n + (if c.crosses key then f else 0)
  let s := if c.crosses key then s.dropFlits (pathAcct c.acct key) f else s
  s.modVcb c.acct fun b => { b with flits := b.flits + moved, resCells := b.resCells + moved }

/-- Put all that a packet in queue `key` has moved on back on its account of arrival. -/
def State.chargeBack (s : State) (key : Nat) (c : Charge) : State × Charge :=
  (s.moveBack key c c.far c.qn, { c with near := c.near + c.far + c.qn, far := 0, qn := 0 })

/-- Take the newest `n` flits of a packet in queue `key` out of its charge; they stay charged to its account of arrival. -/
def State.chargeTake (s : State) (key : Nat) (c : Charge) (n : Nat) : State × Charge :=
  let v := Nat.min n c.near
  let f := Nat.min (n - v) c.far
  let q := Nat.min (n - v - f) c.qn
  (s.moveBack key c f q, { c with near := c.near - v, far := c.far - f, qn := c.qn - q })

/-- Recompute the allowance of every main VC of a quadrant's ports (04 R90), then grant freed shared cells (R92). -/
def execAllowanceRecompute (quad : Nat) (s : State) : Host.Outcome State Fault Refusal :=
  let q := quad % 4
  let ports := (List.range 36).map (36 * q + ·) ++ (List.range 7).map (corePort q)
  let s := s.each ports fun s p => s.each (List.range 6) fun s tc =>
    s.modVcb (16 * p + tc) fun b => { b with allow := s.allowance q tc }
  .next (s.sharedGrants q 258).moveCells

/-- One TICK's refill of every token bucket, up to BURST (04 R97). -/
def execTokenBucketRefill (s : State) : Host.Outcome State Fault Refusal :=
  .next (s.each (List.range 32) fun s m =>
    let q := s.memberQuad m
    let up (tc : Nat) (rate : Nat) (s : State) : State :=
      let top : Int := 16 * (s.burst q m tc : Int)
      let v := s.level m tc + rate
      s.putLevel m tc (if v < top then v else top)
    up 5 (s.rd F.qswRateRateTc5 (32 * q + m)) (up 3 (s.rd F.qswRateRateTc3 (32 * q + m)) s))

end Sys2Proof.Machine
end

