-- ==== Sys2Proof/Machine/Repair.lean ====
section
/-! DEFINITION. Banks under their code (07 R174 to R179): what one checked read finds and records, the repair of columns, and what
asks for a bank's retirement. Banks are numbered as in 07 R163, 512·quadrant + bank. -/

namespace Sys2Proof.Machine

/-! ## Repair and retirement (07 R176 to R179) -/

/-- 24 h in ns. -/
def day : Nat := 86400000000000

/-- Ask for a bank's retirement; the response follows when the command's own effect is done. -/
def State.askRetire (s : State) (q b cause : Nat) : State :=
  if s.retired.contains (512 * q + b) || s.retireAsk.any (fun r => r.1 = q && r.2.1 = b) then s
  else { s with retireAsk := s.retireAsk ++ [(q, b, cause)] }

/-- The 16 bytes of a repair entry (07 R178). [DESIGN CHOICE log 17] -/
def repairBytes (r : Repair) : List Byte :=
  leBytes 1 r.kind ++ leBytes 1 r.quad ++ leBytes 2 r.bank ++ leBytes 1 r.sub ++ leBytes 1 r.spare ++ leBytes 2 r.column
    ++ leBytes 1 r.cause ++ leBytes 7 0

/-- Commit a repair entry to the ledger's repair map (16 R388, REPAIR). -/
def State.commitRepair (s : State) (r : Repair) : State :=
  (({ s with ledger := { s.ledger with repairs := s.ledger.repairs ++ [r] } })).askLedger 5 s.ledger.repairs.length
    (repairBytes r ++ leBytes 32 0)

/-- Put a repair in effect. -/
def State.installRepair (s : State) (r : Repair) : State :=
  let s := { s with spares := s.spares ++ [r] }
  if r.kind = 1 then s.addSat F.qbankStatFieldSpares 1 r.quad else s

/-- Give the column of a symbol position a field spare of its sub-array, sweep, and commit the entry; with no spare left the
bank is to be retired (07 R177, R179). The bit column is found by read-back: a free value within the symbol. [DESIGN CHOICE log 35] -/
def State.columnRepair (s : State) (q b sub sym : Nat) (inj : Bool) : State :=
  let used := s.spares.filter fun r => r.quad = q && r.bank = b && r.sub = sub && (r.kind = 1 || r.kind = 3)
  let s := { s with symTimes := s.symTimes.filter fun e => e.1 ≠ ((512 * q + b) * 8 + sub) * 128 + sym }
  match [0, 1].find? fun k => !used.any fun r => r.spare = k with
  | none => s.askRetire q b 2
  | some k =>
    let d := s.draw
    let r : Repair := { kind := 1, quad := q, bank := b, sub := sub, spare := k,
                        column := 8 * sym + Config.freeNat d.1 % 8, cause := 1, injected := inj }
    ((d.2.raise E.columnRepair (512 * q + b) (2 ^ 32 * r.column) 0 s.lastRseq inj).installRepair r).commitRepair r

/-- One corrected symbol at a place (07 R177). -/
def State.countSymbol (s : State) (q b row sym : Nat) (inj : Bool) : State :=
  let key := ((512 * q + b) * 8 + row / 1024) * 128 + sym
  let t := s.rackTime
  let times := (s.symTimes.filter fun e => e.1 ≠ key || t < e.2 + day) ++ [(key, t)]
  let s := { s with symTimes := times }
  let limit := Nat.max 2 (s.rd F.qbankRepaircfgColThreshold q)
  if limit ≤ (times.filter fun e => e.1 = key).length && s.flag F.qbankRepaircfgFieldRepair q then
    s.columnRepair q b (row / 1024) sym inj
  else s

/-- One uncorrectable read at a word (07 R179). -/
def State.countUe (s : State) (q b row : Nat) : State :=
  let key := (512 * q + b) * 8192 + row
  let t := s.rackTime
  let words := (s.ueWords.filter fun e => e.1 ≠ key && t < e.2 + day) ++ [(key, t)]
  let s := { s with ueWords := words }
  let n : Nat := State.rd s F.qbankRepaircfgRetireUe q
  let limit := if n = 0 then 2 else n
  if limit ≤ (words.filter fun e => e.1 / 8192 = 512 * q + b).length then s.askRetire q b 3 else s

/-! ## Reads under ECC (07 R174, R175) -/

/-- INFO of a bank record: store, row, column (17 R416). -/
def bankInfo (store row column : Nat) : Nat := store + 2 ^ 16 * row + 2 ^ 32 * column

/-- Whether accesses to a bank complete uncorrectable: it is fenced by a retirement in
progress, or retired (07 R180, R183). -/
def State.bankFenced (s : State) (q b : Nat) : Bool :=
  s.retired.contains (512 * q + b) || s.retireAsk.any fun r => r.1 = q && r.2.1 = b

/-- One checked read of row `row` of a bank: an uncorrectable read is recorded and counted, and so is a correction or what the
decoder takes for one. Answers whether the read was uncorrectable. [DESIGN CHOICE log 35] -/
def State.eccRead (s : State) (q b row store : Nat) (e : Ecc) : State × Bool :=
  let unit := 512 * q + b
  let u := s.evaluate E.bankUe unit (e = .ue || s.bankFenced q b)
  if u.2.1 then ((u.1.raise E.bankUe unit (bankInfo store row 0) 0 none u.2.2).countUe q b row, true)
  else
    let sym : Option Nat × State := match e with
      | .ce n => (some (n % 68), u.1)
      | .mis _ => let d := u.1.draw; (some (Config.freeNat d.1 % 68), d.2)
      | _ => (none, u.1)
    let c := sym.2.evaluate E.bankCe unit sym.1.isSome
    (if c.2.1 then
        ((c.1.raise E.bankCe unit (bankInfo store row (8 * sym.1.getD 0)) 0 none c.2.2).ev (U.bank q b) 0x07).countSymbol
          q b row (sym.1.getD 0) c.2.2
      else c.1, false)

/-- The first bank, the number of banks and the INFO code of a cell store: 2 packet buffer, 3 replay, 4 reorder (07 R163). -/
def cellStore (store : Nat) : Nat × Nat := if store = 2 then (384, 64) else if store = 3 then (448, 32) else (480, 32)

/-- Read one flit back from the cell of a cell store that held it, or check it on a die-to-die path, which keeps no records of its own
(04 R86): the flit as read, and whether it was uncorrectable. [DESIGN CHOICE log 35] -/
def State.cellRead (s : State) (q store : Nat) (r : CellRead) (f : Flit) : State × Flit × Bool :=
  let got := match r.ecc with | .mis g => g | _ => f
  if r.path then (s, got, r.ecc = .ue)
  else
    let c := cellStore store
    let x := s.eccRead q (c.1 + r.bank % c.2) (r.row % 8192) store r.ecc
    (x.1, got, x.2)

/-- Read the flits of a packet back in turn; answers whether any was uncorrectable. -/
def State.cellReads (s : State) (q store : Nat) (reads : List CellRead) (fs : List Flit) : State × List Flit × Bool :=
  (fs.zipIdx).foldl (fun (x : State × List Flit × Bool) e =>
    let r := x.1.cellRead q store (reads.getD e.2 {}) e.1
    (r.1, x.2.1 ++ [r.2.1], x.2.2 || r.2.2)) (s, [], false)

end Sys2Proof.Machine
end

