-- ==== Sys2Proof/Machine/Fabric.lean ====
section
/-! DEFINITION. Routing, spraying, escape, edge replay and reorder, casts (03), and the queues of the switch cores (04). -/

namespace Sys2Proof.Machine

/-! ## Ports and rolls -/

/-- Whether a fabric port carries packets: stage ACTIVE, and no fatal record has stopped the slots (11 R268, 17 R414). -/
def State.active (s : State) (p : Nat) : Bool := p < 144 && s.rd F.laneStatStage p = 5 && !s.phys.fatal

/-- What the plan assigns to a port of this module. -/
def State.portPlan (s : State) (p : Nat) : Option PortPlan := s.plan.ports.find (256 * s.self + p)

/-- Whether a port is a member link: one that the plan gives to an endpoint. -/
def State.isMemberPort (s : State) (p : Nat) : Bool := (s.portPlan p).any fun x => x.cls = 0

/-- The port of a table entry: entries are held as port + 1, and 0 is none (0xFF of 03 R56). -/
def State.entryPort (s : State) (e : Nat) : Option Nat := if e = 0 || !s.active (e - 1) then none else some (e - 1)

/-- Keep the ACTIVE ports that a list of table entries names, in ascending order. -/
def State.activeOf (s : State) (es : List Nat) : List Nat :=
  (List.range 144).filter fun p => es.contains (p + 1) && s.active p

/-- The ACTIVE member links of a member (03 R66). -/
def State.memberLinks (s : State) (m : Nat) : List Nat :=
  s.activeOf ((List.range 8).map fun l => s.tables.memberPorts.getD (8 * m + l) 0)

/-- The ACTIVE port of global link `l` to group `k`. -/
def State.globalPort (s : State) (k l : Nat) : Option Nat := s.entryPort (s.tables.globalPorts.getD (16 * k + l) 0)

/-- The ACTIVE global links to a group, of the link indices given. -/
def State.globalLinks (s : State) (k : Nat) (ls : List Nat) : List Nat :=
  s.activeOf (ls.map fun l => s.tables.globalPorts.getD (16 * k + l) 0)

/-- The ACTIVE crosslinks (03 R64). [DEDUCED log 29] -/
def State.crossLinks (s : State) : List Nat :=
  s.activeOf ((List.range 16).map fun x => s.tables.xlinkPorts.getD x 0)

/-- The rows and links of a slice; an entry with VALID = 0 holds none (04 R95). -/
def State.sliceRow (s : State) (sl g : Nat) : Bool :=
  (s.tables.sliceLset.getD sl 0).testBit 32 && (s.tables.sliceLset.getD sl 0).testBit g

def State.sliceLink (s : State) (sl l : Nat) : Bool :=
  (s.tables.sliceLset.getD sl 0).testBit 32 && (s.tables.sliceLset.getD sl 0).testBit (16 + l)

def State.sliceCol (s : State) (sl m : Nat) : Bool := (s.tables.sliceCols.getD sl 0).testBit m

/-- One step of a generator (03 R62). -/
def lfsrStep (v : BitVec 32) : BitVec 32 := if v.getLsbD 0 then (v >>> 1) ^^^ 0x80200003 else v >>> 1

/-- Load a generator at ACTIVE or when its QSW block leaves IDLE (03 R62). [DEDUCED log 82] -/
def State.loadLfsr (s : State) (g : Nat) : State :=
  let q := if g < 144 then g / 36 else (g - 144) / 4
  let v := BitVec.ofNat 32 (s.rd F.qswSpraycfgSeed q) ^^^ BitVec.ofNat 32 (s.self * 256) ^^^ BitVec.ofNat 32 g
  { s with lfsr := s.lfsr.setD g 0 (if v = 0 then 1 else v) }

/-- A roll: eight steps, then bits [5:0] (03 R62). [DEDUCED log 82] -/
def State.roll (s : State) (g : Nat) : Nat × State :=
  let v := iter lfsrStep 8 (s.lfsr.getD g 0)
  (v.toNat % 64, { s with lfsr := s.lfsr.setD g 0 v })

/-- The link that a roll selects among some usable ones (03 R62). -/
def State.rollAmong (s : State) (g : Nat) (ports : List Nat) : Option Nat × State :=
  if ports = [] then (none, s)
  else
    let r := s.roll g
    (ports[r.1 % ports.length]?, r.2)

/-- The generator of internal core port k (0 COLL, 1 MEM, 2 GATE, 3 HUB) of a quadrant (03 R62). -/
def coreGen (q k : Nat) : Nat := 144 + 4 * q + k

/-! ## Error units (17 R416) -/

def State.qswInfo (_s : State) (h : Flit) : Nat :=
  hget h H.src + 65536 * hget h H.dst + 2 ^ 32 * hget h H.tc + 2 ^ 35 * hget h H.plane

/-- Header bytes 0 to 7 and 8 to 11, the INFO of class LINK. -/
def linkInfo (h : Flit) : Nat := h.toNat % 2 ^ 64
def linkInfo2 (h : Flit) : Nat := h.toNat / 2 ^ 64 % 2 ^ 32

/-- A port's INSTANCE value in class QSW. -/
def qswUnit (p : Nat) : Nat := 256 * portQuad p + (if p < 144 then p else 255)

/-! ## Output queues -/

/-- The VC a packet leaves on: its class, or the next escape VC (03 R68); none beyond E2. -/
def nextVc (esc : Bool) (tc : Nat) (arr : Option Nat) : Option Nat :=
  if esc then
    match arr with
    | some 8 => some 9
    | some 9 => some 10
    | some 10 => none
    | _ => some 8
  else some tc

/-- Where the flits of a whole packet stand when it is put on an output or handed to a unit: in the shared buffer, charged to
an account; or with a unit behind core port 3 COLL to 6 HUB of a quadrant, which has yet to get cells for them (04 R89). A packet out of a
reorder store, and the copies of a cast, count as the HUB's. [DESIGN CHOICE log 140] -/
inductive Src where
  | cells (acct : Nat)
  | unit (quad core : Nat)
deriving DecidableEq, Repr

/-- Whether the payload a unit sends is drawn from a store and enters by no core port (07 R167, 10 R238). -/
def drawnType (h : Flit) (core : Nat) : Bool :=
  let t := hget h H.ptype
  (core = 3 && (t = PT.result || t = PT.contrib)) || (core = 4 && (t = PT.stream || t = PT.memRdRsp))

/-- Whether the payload of a packet for a unit leaves the buffer by a deposit path (07 R167, 10 R238). -/
def depositType (h : Flit) : Bool :=
  let t := hget h H.ptype
  t = PT.contrib || t = PT.memWr

/-- What the `n` flits of a packet hold at first. -/
def Src.charge (x : Src) (h : Flit) (n : Nat) : Charge :=
  match x with
  | .cells acct => { acct := acct, tc := hget h H.tc, near := n }
  | .unit q k =>
    let d := if drawnType h k then n - 1 else 0
    { acct := 16 * corePort q k + hget h H.tc, tc := hget h H.tc, due := n - d, drawn := d }

/-- Give up the cells of a packet that goes no further. -/
def State.dropSrc (s : State) (x : Src) (p : Packet) : State :=
  match x with
  | .cells acct => s.dropFlits acct (1 + p.pay.length)
  | .unit _ _ => s

/-- Put a packet at the end of an output queue, charging the flits it already has. -/
def State.enqueue (s : State) (port vc : Nat) (o : OutPkt) : State :=
  let key := 16 * port + vc
  let r := s.charge key o.chg
  (r.1.modOutqOf key fun q => q ++ [{ o with chg := r.2 }]).serveCells.serveCells

/-- Queue a whole packet. -/
def State.enqueuePkt (s : State) (port vc : Nat) (src : Src) (gen : Nat) (p : Packet) (flow : Option (Nat × Nat)) : State :=
  s.enqueue port vc { flits := p.hdr :: p.pay, crc := p.crc, whole := true, gen := gen,
                      chg := src.charge p.hdr (1 + p.pay.length), flow := flow }

/-! ## Routes -/

/-- The group a packet must reach: that of its destination endpoint or module. A copy of a column cast names its group as VIA of its
SPRAY_PATH, a direct path (R59), since its DST.group is reserved. [DESIGN CHOICE log 23] -/
def destGroup (h : Flit) : Nat :=
  if hget h H.mcast = 1 && hget h H.caxis = 1 then hget h H.spray / 16
  else if hget h H.dmod = 1 then hget h H.dst % 16 else hget h H.dst / 32 % 16

/-- Whether the packet's destination is a module of the other plane (03 R64). -/
def State.otherPlane (s : State) (h : Flit) : Bool :=
  hget h H.dmod = 1 && (hget h H.dst / 16 % 2 = 1) ≠ s.plane

/-- What a routing decision answers: the route, the header as it will leave, and which error record a discard makes. -/
structure Decision where
  route : Route
  hdr : Flit
  err : Option Nat := none
deriving DecidableEq, Repr

/-- Leave on a port by the class VC or the next escape VC; nothing leaves after E2. -/
def leaveOn (h : Flit) (arr : Option Nat) (port : Nat) : Decision :=
  match nextVc (hget h H.esc = 1) (hget h H.tc) arr with
  | some vc => { route := .forward port vc, hdr := h }
  | none => { route := .discard, hdr := h, err := some E.unreachable }

/-- The escape route (03 R68). `arr` is the VC of arrival, none for a packet that starts here. Every link of it, that to the third
group of ESC_VIA too, is the packet's LINK index where that is ACTIVE and a roll among the ACTIVE ones otherwise. [DEDUCED log 27] -/
def State.escapeRoute (s : State) (h : Flit) (gen : Nat) (arr : Option Nat) : Decision × State :=
  let h := hset h H.esc 1
  let d := destGroup h
  let dead : Decision := { route := .discard, hdr := h, err := some E.unreachable }
  if d = s.group then
    if hget h H.mcast = 1 then ({ route := .fanout, hdr := h }, s)
    else if hget h H.dmod = 0 then ({ route := .egress, hdr := h }, s)
    else if s.otherPlane h then
      let r := s.rollAmong gen s.crossLinks
      (match r.1 with | some p => leaveOn h arr p | none => dead, r.2)
    else ({ route := .local_, hdr := h }, s)
  else
    let pick (g : Nat) : Option Nat × State :=
      match s.globalPort g (hget h H.spray % 16) with
      | some p => (some p, s)
      | none => s.rollAmong gen (s.globalLinks g (List.range 16))
    match pick d with
    | (some p, s) => (leaveOn h arr p, s)
    | (none, s) =>
      let v := s.escVia.getD d 0
      if v / 16 % 2 = 1 && (arr.all fun a => a < 8) then
        match pick (v % 16) with
        | (some p, s) => (leaveOn h arr p, s)
        | (none, s) => (dead, s)
      else (dead, s)

/-- Whether a spray entry is in use, and the first port of its path (03 R59, R65). -/
def State.sprayPort (s : State) (sl d i : Nat) : Option (Nat × Nat) :=
  let e := s.tables.spray.getD (1024 * sl + 64 * d + i) 0
  if e / 256 % 2 = 0 then none
  else
    let via := e / 16 % 16
    let hop := if via = s.group || via = d then d else via
    (s.globalPort hop (e % 16)).map fun p => (e % 256, p)

/-- Step from entry `i` to the next in use, over all 64 (03 R65). -/
def State.spraySearch (s : State) (sl d i : Nat) : Nat → Option (Nat × Nat)
  | 0 => none
  | n + 1 =>
    match s.sprayPort sl d (i % 64) with
    | some r => some r
    | none => s.spraySearch sl d (i + 1) n

/-- The route at the ingress edge of a packet whose destination is in another group: a roll over the spray set, and the
escape route when no entry is in use, with the path field of the rolled entry (03 R62, R63, R65). [DEDUCED log 27] -/
def State.sprayRoute (s : State) (h : Flit) (gen : Nat) : Decision × State :=
  let sl := hget h H.slice
  let d := destGroup h
  let r := s.roll gen
  match r.2.spraySearch sl d r.1 64 with
  | some (path, p) => (leaveOn (hset h H.spray path) none p, r.2)
  | none => r.2.escapeRoute (hset h H.spray (r.2.tables.spray.getD (1024 * sl + 64 * d + r.1) 0 % 256)) gen none

/-- The route of one copy of a column cast that starts here, towards its group (03 R77): a roll over the ACTIVE direct links of the
slice's LINKS, else the escape route. [DESIGN CHOICE log 23] -/
def State.columnRoute (s : State) (h : Flit) (gen : Nat) : Decision × State :=
  let g := destGroup h
  let r := s.rollAmong gen (s.globalLinks g ((List.range 16).filter fun l => s.sliceLink (hget h H.slice) l))
  match r.1 with
  | some port =>
    let l := ((List.range 16).find? fun l => s.tables.globalPorts.getD (16 * g + l) 0 = port + 1).getD 0
    (leaveOn (hset h H.spray (16 * g + l)) none port, r.2)
  | none => r.2.escapeRoute h gen none

/-- The route of a packet that stands at this module (03 R59 to R68). `arr` is its VC of arrival; `ingress` marks its
ingress edge. A column cast fans out where it starts, and its copies in their groups (R77). -/
def State.routeOf (s : State) (h : Flit) (gen : Nat) (arr : Option Nat) (ingress : Bool) : Decision × State :=
  let d := destGroup h
  let h := if ingress && d = s.group && !(hget h H.mcast = 1 && hget h H.caxis = 1) then hset h H.spray (16 * s.group) else h
  let dead (e : Nat) (s : State) : Decision × State := ({ route := .discard, hdr := h, err := some e }, s)
  if hget h H.mcast = 1 && hget h H.caxis = 1 && ingress then ({ route := .fanout, hdr := h }, s)
  else if d = s.group then
    if hget h H.mcast = 1 then ({ route := .fanout, hdr := h }, s)
    else if hget h H.dmod = 0 then ({ route := .egress, hdr := h }, s)
    else if s.otherPlane h then
      let r := s.rollAmong gen s.crossLinks
      match r.1 with
      | some p => (leaveOn h arr p, r.2)
      | none => dead E.unreachable r.2
    else ({ route := .local_, hdr := h }, s)
  else if hget h H.esc = 1 then s.escapeRoute h gen arr
  else if ingress then s.sprayRoute h gen
  else if hget h H.spray / 16 = s.group then
    let l := hget h H.spray % 16
    match s.globalPort d l with
    | some p => (leaveOn h arr p, s)
    | none =>
      match ((List.range 15).map fun i => (l + 1 + i) % 16).findSome? fun k =>
          if s.sliceLink (hget h H.slice) k then s.globalPort d k else none with
      | some p => (leaveOn h arr p, s)
      | none => s.escapeRoute h gen arr
  else dead E.routeMiss s

/-! ## Flows and their edges -/

/-- `a` modulo 2^16 lies in the half range at or before `b` (03 R70). -/
def seqLe (a b : Nat) : Bool := (b + 65536 - a % 65536) % 65536 < 32768

/-- Whether a packet type takes part in flows: E2E_ACK and E2E_NACK do not (03 R58). -/
def sequenced (h : Flit) : Bool := hget h H.ptype ≠ PT.e2eAck && hget h H.ptype ≠ PT.e2eNack

/-- The flow quadrant of a flow (03 R461): that of the destination member's links for a unicast flow to an endpoint, and
FSRC mod 4 otherwise. -/
def State.flowQuad (s : State) (f : FlowId) : Nat :=
  if f.dmod || f.cast ≠ 0 then f.src % 4 else s.memberQuad (f.dst % 32)

/-- The module at the ingress edge of a flow (03 R55): the source module, or the module of the source's group. -/
def ingressModule (f : FlowId) : Nat :=
  if f.smod then f.src else f.src / 32 % 16 + (if f.plane then 16 else 0)

/-- The module at the egress edge of a unicast flow. -/
def egressModule (f : FlowId) : Nat :=
  if f.dmod then f.dst else f.dst / 32 % 16 + (if f.plane then 16 else 0)

/-- The header of an E2E_ACK or E2E_NACK about a flow (02 R46, R52). [DEDUCED log 20] -/
def State.e2eHdr (s : State) (f : FlowId) (ptype dst : Nat) (dmod : Bool) (aseq : Nat) : Flit :=
  mkHdr [(H.ptype, ptype), (H.tc, 4), (H.dst, dst), (H.src, s.self), (H.plane, if s.plane then 1 else 0),
    (H.dmod, if dmod then 1 else 0), (H.smod, 1), (H.fsrc, f.src), (H.fdst, f.dst), (H.ftc, f.tc),
    (H.fsmod, if f.smod then 1 else 0), (H.fdmod, if f.dmod then 1 else 0), (H.kind, if f.cast = 0 then 0 else 1),
    (H.aseq, aseq)]

/-- The flow an E2E_ACK or E2E_NACK names. Its plane is this module's, where its packets started; in a FLOW_ERROR from the ingress edge
it is the plane of the packet, which may have crossed over. A KIND 1 packet names a cast flow; its axis is that of the flow this
module holds. [DEDUCED log 20] -/
def flowNamed (s : State) (h : Flit) : FlowId :=
  let f (c : Nat) : FlowId :=
    { src := hget h H.fsrc, dst := hget h H.fdst, smod := hget h H.fsmod = 1, dmod := hget h H.fdmod = 1, tc := hget h H.ftc
      plane := if hget h H.ptype = PT.e2eNack && hget h H.ncause = 4 then hget h H.plane = 1 else s.plane, cast := c }
  if hget h H.kind = 0 then f 0
  else if (s.inFlows.find (flowKey (f 2))).isSome || (s.egFlows.find (flowKey (f 2))).isSome then f 2
  else f 1

/-! ## Packets for the units of this module, and packets outside any flow -/

/-- The quadrant and core port of the unit that takes a packet (03 R64, R461; 04 R85): the slot's COLL, the flow quadrant's MEM for
memory requests, the sending Ethernet port's GATE, and HUB for the rest, an E2E_ACK or E2E_NACK in the quadrant of its flow's replay
entries. -/
def State.consumer (s : State) (h : Flit) : Nat × Nat :=
  let t := hget h H.ptype
  if t = PT.contrib || t = PT.result || t = PT.collCtrl then (hget h H.slot / 1024 % 4, 3)
  else if t = PT.memWr || t = PT.memRdReq then (s.flowQuad (flowOf h), 4)
  else if t = PT.gate then ((s.tables.tunnels.getD (hget h H.tunnel) {}).port / 2 % 4, 5)
  else if t = PT.e2eAck || t = PT.e2eNack then
    let f := flowNamed s h
    ((((s.inFlow (flowKey f)).entries.head?).map (·.quad)).getD (s.flowQuad f), 6)
  else (s.flowQuad (flowOf h), 6)

/-- Hand a packet to the unit of this module that takes it. -/
def State.toLocal (s : State) (p : Packet) (src : Src) : State :=
  let u := s.consumer p.hdr
  let n := 1 + p.pay.length
  let c := { src.charge p.hdr n with deposit := depositType p.hdr }
  let r := s.charge (16 * corePort u.1 u.2 + c.acct % 16) c
  let s : State := { r.1 with local_ := r.1.local_ ++ [{ pkt := p, quad := u.1, core := u.2, chg := r.2 }] }
  s.serveCells.serveCells

/-- The queue of a packet for a unit: its core port, and the VC it came by. -/
def LocalPkt.key (l : LocalPkt) : Nat := 16 * corePort l.quad l.core + l.chg.acct % 16

/-- Release the cells of a packet that a unit has taken. -/
def State.freeLocal (s : State) (l : LocalPkt) : State := s.releaseAll l.key l.chg

/-- Deliver a packet to a member of this group over one of its ACTIVE links, rolled with a generator (03 R66). -/
def State.toMember (s : State) (m gen : Nat) (arr : Option Nat) (p : Packet) (src : Src) : Option State :=
  let r := s.rollAmong gen (s.memberLinks m)
  match r.1, nextVc (hget p.hdr H.esc = 1) (hget p.hdr H.tc) arr with
  | some port, some vc => some (r.2.enqueuePkt port vc src gen p none)
  | _, _ => none

/-- A notice to an endpoint of this group: on one of its ACTIVE member links, or on the first that returns (02 R43). It is delivered
there, with no roll (03 R461). -/
def State.notify (s : State) (m : Nat) (p : Packet) : State :=
  match s.memberLinks m with
  | port :: _ => s.enqueuePkt port 4 (.unit (port / 36) 6) (coreGen (port / 36) 3) p none
  | [] => { s with notices := s.notices ++ [(m, p)] }

/-- Send an unsequenced packet of TC4 (E2E_ACK, E2E_NACK) to a module, from the HUB core port of a quadrant. -/
def State.sendCtl (s : State) (p : Packet) (q : Nat) : State :=
  if hget p.hdr H.dst = s.self then s.toLocal p (.unit q 6)
  else
    let r := s.routeOf p.hdr (coreGen q 3) none true
    match r.1.route with
    | .forward port vc => r.2.enqueuePkt port vc (.unit q 6) (coreGen q 3) { p with hdr := r.1.hdr } none
    | _ => (match r.1.err with
            | some e => r.2.raise e (qswUnit (corePort q 6)) (s.qswInfo p.hdr) 0
            | none => r.2)

/-- Send E2E_ACK for a flow with ASEQ the highest sequence delivered in order (03 R71). [DEDUCED log 20] -/
def State.sendAck (s : State) (k : Nat) : State :=
  let f := keyFlow k
  let e := s.egFlow k
  let aseq := (e.expect + 65535) % 65536
  let s := s.putEgFlow k { e with sinceAck := 0, acked := aseq }
  s.sendCtl (mkPacketF (s.e2eHdr f PT.e2eAck (ingressModule f) true aseq) []) (s.flowQuad f)

/-- Send E2E_NACK for a sequence of a flow to its ingress edge; `count` adds one to its RCOUNT (03 R72, R73, R76). [DEDUCED log 20] -/
def State.sendNack (s : State) (k seq cause : Nat) (count : Bool) : State :=
  let f := keyFlow k
  let s := s.modEgFlow k fun e =>
    { e with nacks := if count then e.nacks.mod seq 0 (· + 1) else e.nacks }
  let rc := (s.egFlow k).nacks.getD seq 0
  let h := hsets (s.e2eHdr f PT.e2eNack (ingressModule f) true seq) [(H.ncause, cause), (H.rcount, Nat.min rc 255)]
  s.sendCtl (mkPacketF h []) (s.flowQuad f)

/-- A packet's header as its endpoint sent it: the mutable fields zero, HCRC kept (02 R47, R52). -/
def asSent (h : Flit) : Flit := hset (checkImage h) H.hcrc (hget h H.hcrc)

/-- E2E_NACK to the source endpoint of a packet, carrying its header flit; cause 3 INGRESS_CHECK or 4 FLOW_ERROR
(02 R43, R52; 03 R76). -/
def State.tellSource (s : State) (h : Flit) (cause : Nat) : State :=
  let f := flowOf h
  let nh := hset (s.e2eHdr f PT.e2eNack f.src false (hget h H.flowSeq)) H.ncause cause
  s.notify (f.src % 32) (mkPacketF nh [asSent h])

/-! ## Flows at the ingress edge -/

/-- QSW_E2ECFG2 fields as they act. -/
def State.replayLimit (s : State) (q : Nat) : Nat :=
  if s.rd F.qswE2ecfg2ReplayLimit q = 0 then 8 else s.rd F.qswE2ecfg2ReplayLimit q

def State.flowWindow (s : State) (q : Nat) : Nat :=
  Nat.max 16 (Nat.min 16384 (s.rd F.qswE2ecfg2FlowWindow q))

/-- Cells of the replay store in use in a quadrant. -/
def State.replayUsed (s : State) (q : Nat) : Nat :=
  s.inFlows.foldl (fun n e => n + ((e.2.entries.filter fun r => r.quad = q).map fun r => 1 + hget r.pkt.hdr H.len).sum) 0

/-- Whether a flow may take another packet now (03 R70). -/
def State.flowRoom (s : State) (k q cells : Nat) : Bool :=
  (s.inFlow k).entries.length < s.flowWindow q && s.replayUsed q + cells ≤ s.cellsOf q 448 32

/-- Assign the next FLOW_SEQ of a flow and open its replay entry (03 R70; 02 R43 for numbers given back). -/
def State.sequence (s : State) (k : Nat) (p : Packet) (gen q : Nat) (complete : Bool) (origin : Origin) : Nat × State :=
  let f := s.inFlow k
  let seq := f.givenBack.headD f.next
  let p := { p with hdr := hset p.hdr H.flowSeq seq }
  let f := { f with
    next := if f.givenBack = [] then (f.next + 1) % 65536 else f.next
    groups := f.groups ||| (if hget p.hdr H.mcast = 1 && hget p.hdr H.caxis = 1 then hget p.hdr H.cmask % 65536 else 0)
    givenBack := f.givenBack.drop 1
    entries := f.entries ++ [{ seq := seq, pkt := p, gen := gen, quad := q, complete := complete, origin := origin }] }
  (seq, s.putInFlow k f)

/-- Change one replay entry. -/
def State.modEntry (s : State) (k seq : Nat) (g : Replay → Replay) : State :=
  s.modInFlow k fun f => { f with entries := f.entries.map fun r => if r.seq = seq then g r else r }

def State.entry? (s : State) (k seq : Nat) : Option Replay := (s.inFlow k).entries.find? fun r => r.seq = seq

/-- Free one replay entry; with `giveBack` its sequence goes to the flow's next packet (02 R43). -/
def State.freeEntry (s : State) (k seq : Nat) (giveBack : Bool) : State :=
  s.modInFlow k fun f => { f with
    entries := f.entries.filter fun r => r.seq ≠ seq
    givenBack := if giveBack then f.givenBack ++ [seq] else f.givenBack }

/-- Tell the unit that originated a packet what became of it. -/
def State.tellUnit (s : State) (r : Replay) (ok : Bool) (leaf : Nat) (ue : Bool := false) : State :=
  if r.origin = .endpoint then s
  else { s with unitEvents := s.unitEvents ++ [{ origin := r.origin, hdr := r.pkt.hdr, ok := ok, leaf := leaf, ue := ue }] }

/-- CMASK of a cast: 32 members of a row cast, 16 groups of a column cast, whose bits [31:16] are ignored (02 R52). -/
def castMask (h : Flit) : Nat := if hget h H.caxis = 1 then hget h H.cmask % 65536 else hget h H.cmask

/-- The leaves of a cast: bit i of CMASK, as 2-bit statuses that still read 0. -/
def maskLeft (mask leaf : Nat) : Nat :=
  (List.range 32).foldl (fun m i => if mask.testBit i && leaf / 4 ^ i % 4 = 0 then m + 2 ^ i else m) 0

/-- Set every leaf of `mask` that still reads 0 to FAILED (3). -/
def failLeft (mask leaf : Nat) : Nat :=
  (List.range 32).foldl (fun l i => if mask.testBit i && l / 4 ^ i % 4 = 0 then l + 3 * 4 ^ i else l) leaf

/-- End a flow with FLOW_ERROR at its ingress edge (03 R76, R79): NACK to the egress edge, or to every fan-out module of a cast flow, a
notice for every retained packet of an endpoint, the originating unit told otherwise, the flow reset, FLOW_ERROR recorded. The NACK leaves
by the HUB generator of the flow quadrant, as the egress edge's own would. [DEDUCED log 20] -/
def State.endFlow (s : State) (k : Nat) (failed : Flit) : State :=
  let f := keyFlow k
  let fl := s.inFlow k
  let s := { s with inFlows := s.inFlows.erase k }
  let q := s.flowQuad f
  let targets := if f.cast = 2 then
      (List.range 16).filter (fun g => (fl.groups ||| castMask failed).testBit g) |>.map fun g => g + (if f.plane then 16 else 0)
    else if f.cast = 1 then [f.dst / 32 % 16 + (if f.plane then 16 else 0)]
    else [(egressModule f)]
  let s := targets.foldl (fun s t =>
    s.sendCtl (mkPacketF (hset (s.e2eHdr f PT.e2eNack t true (hget failed H.flowSeq)) H.ncause 4) [asSent failed]) q) s
  let s := fl.entries.foldl (fun s r =>
    let leaf := if f.cast = 0 then 0 else failLeft (castMask r.pkt.hdr) r.leaf
    if r.origin = .endpoint then
      s.onlyIf (f.cast = 0 || (List.range 32).any fun i => leaf / 4 ^ i % 4 = 3) fun s => s.tellSource r.pkt.hdr 4
    else s.tellUnit r false leaf) s
  s.raise E.flowError (256 * (fl.entries.headD { seq := 0, pkt := ⟨failed, [], 0⟩, gen := 0, quad := q }).quad + 255)
    (s.qswInfo failed) (hget failed H.flowSeq)

/-- A cast's entry is free once every masked leaf is nonzero; a FAILED leaf is told to the source endpoint, and the merged LEAF_STATUS to
a unit (03 R78, R79). -/
def State.castDone (s : State) (k seq : Nat) : State :=
  match s.entry? k seq with
  | none => s
  | some r =>
    if maskLeft (castMask r.pkt.hdr) r.leaf ≠ 0 then s
    else
      let s := s.freeEntry k seq false
      if r.origin = .endpoint then
        (if (List.range 32).any fun i => r.leaf / 4 ^ i % 4 = 3 then s.tellSource r.pkt.hdr 4 else s)
      else s.tellUnit r true r.leaf

/-- Merge leaf statuses into a cast's entry. -/
def State.mergeLeaves (s : State) (k seq leaf : Nat) : State :=
  (s.modEntry k seq fun r => { r with leaf := (List.range 32).foldl (fun n i =>
    if n / 4 ^ i % 4 = 0 then n + leaf / 4 ^ i % 4 * 4 ^ i else n) r.leaf }).castDone k seq

/-- Drop a packet for which there is no route, at whatever stage it is (03 R84): recorded; at its ingress edge the leaves of a cast copy in
its group are FAILED, and the flow of a unicast packet from an endpoint ends. A unit's own packet is left to the timeouts. -/
def State.noRoute (s : State) (err : Nat) (h : Flit) (p : Nat) (flow : Option (Nat × Nat)) : State :=
  let s := s.raise err (qswUnit p) (s.qswInfo h)
  match flow with
  | some (k, seq) =>
    match s.entry? k seq with
    | none => s
    | some r =>
      if err ≠ E.unreachable then s
      else if hget h H.mcast = 1 then
        s.mergeLeaves k seq (failLeft (if hget h H.caxis = 1 then 2 ^ destGroup h else castMask h) 0)
      else if r.origin = .endpoint then s.endFlow k (hset h H.flowSeq seq) else s
  | none => s

/-- Send the copies of a column cast from its ingress edge (03 R77), one to each masked group but the own one; a copy without a route
is discarded as UNREACHABLE with its leaf FAILED. Each copy is sent as from the edge's HUB. [DESIGN CHOICE log 23] -/
def State.columnCopies (s : State) (p : Packet) (gen q k : Nat) (flow : Nat × Nat) (mask : Nat) : State :=
  ((List.range 16).filter fun g => mask.testBit g && g ≠ s.group).foldl (fun s g =>
    let r := s.columnRoute (hset p.hdr H.spray (16 * g)) gen
    match r.1.route with
    | .forward port vc => r.2.enqueuePkt port vc (.unit q k) gen { p with hdr := r.1.hdr } (some flow)
    | _ => r.2.noRoute E.unreachable r.1.hdr (corePort q k) (some flow)) s

/-! ## Delivery at the egress edge and fan-out -/

/-- Whether this module holds an endpoint fenced (14 R352). -/
def State.epFenced (s : State) (ep : Nat) : Bool := s.agent.epFenced.contains ep

/-- The leaves this module serves of a cast packet: members of a row cast, its own group's one of a column cast; each
with the bit of CMASK that names it. [DEDUCED log 28] -/
def State.leavesHere (s : State) (h : Flit) : List (Nat × Nat) :=
  if hget h H.caxis = 1 then
    (if (castMask h).testBit s.group then [(s.group, hget h H.dst % 32)] else [])
  else ((List.range 32).filter fun m => (castMask h).testBit m).map fun m => (m, m)

/-- Replicate a cast packet to the leaves of `todo` and answer the statuses reached: ACKED 1, PRUNED 2, 0 for a leaf that
cannot be reached now (03 R77 to R79). [DESIGN CHOICE log 23] -/
def State.replicate (s : State) (p : Packet) (gen q : Nat) (arr : Option Nat) (todo : List (Nat × Nat)) : State × Nat :=
  todo.foldl (fun r l =>
    if r.1.epFenced (32 * s.group + l.2) then (r.1, r.2 + 2 * 4 ^ l.1)
    else
      match r.1.toMember l.2 gen arr p (.unit q 6) with
      | some s' => (s', r.2 + 4 ^ l.1)
      | none => (r.1.raise E.unreachable (qswUnit (corePort q 6)) (r.1.qswInfo p.hdr), r.2)) (s, 0)

/-- Acknowledge a cast packet with the statuses of its leaves here (03 R78). -/
def State.ackCast (s : State) (k seq castId leaf : Nat) : State :=
  let f := keyFlow k
  let h := hsets (s.e2eHdr f PT.e2eAck (ingressModule f) true seq) [(H.ackCastId, castId), (H.leafStatus, leaf)]
  s.sendCtl (mkPacketF h []) (s.flowQuad f)

/-- Deliver a cast packet in its turn. [DEDUCED log 28] -/
def State.deliverCast (s : State) (k : Nat) (p : Packet) (gen q : Nat) (arr : Option Nat) : State :=
  let seq := hget p.hdr H.flowSeq
  let r := s.replicate p gen q arr (s.leavesHere p.hdr)
  let mask := (s.leavesHere p.hdr).foldl (fun m l => m + 2 ^ l.1) 0
  let s := if maskLeft mask r.2 = 0 then r.1
    else r.1.modEgFlow k fun e => { e with casts := e.casts ++ [{ seq := seq, castId := hget p.hdr H.castId, mask := mask, leaf := r.2 }] }
  s.ackCast k seq (hget p.hdr H.castId) r.2

/-- A cast packet whose sequence was delivered before: leaves still open get it, every other leaf discards it, and the
module acknowledges again (03 R78). -/
def State.repeatCast (s : State) (k : Nat) (p : Packet) (gen q : Nat) (arr : Option Nat) : State :=
  let seq := hget p.hdr H.flowSeq
  match (s.egFlow k).casts.find? fun c => c.seq = seq with
  | some c =>
    let todo := (s.leavesHere p.hdr).filter fun l => c.leaf / 4 ^ l.1 % 4 = 0
    let r := s.replicate p gen q arr todo
    let leaf := c.leaf + r.2
    let s := r.1.modEgFlow k fun e => { e with casts := (e.casts.filter fun c => c.seq ≠ seq) ++
      (if maskLeft c.mask leaf = 0 then [] else [{ c with leaf := leaf }]) }
    s.ackCast k seq (hget p.hdr H.castId) leaf
  | none =>
    s.ackCast k seq (hget p.hdr H.castId) ((s.leavesHere p.hdr).foldl (fun n l =>
      n + (if s.epFenced (32 * s.group + l.2) then 2 else 1) * 4 ^ l.1) 0)

/-- Deliver one packet of a flow in its turn; none where its endpoint is fenced or has no ACTIVE link (03 R66). -/
def State.deliver (s : State) (k : Nat) (p : Packet) (gen q : Nat) (arr : Option Nat) (src : Src) : Option State :=
  if hget p.hdr H.mcast = 1 then some ((s.dropSrc src p).deliverCast k p gen q arr)
  else if hget p.hdr H.dmod = 1 then some (s.toLocal p src)
  else if s.epFenced (hget p.hdr H.dst) then none
  else s.toMember (hget p.hdr H.dst % 32) gen arr p src

/-- Discard a packet that cannot be delivered: for an endpoint that is not fenced, as UNREACHABLE (03 R66). Its sequence stays
expected. -/
def State.notDelivered (s : State) (p : Packet) (unit : Nat) (src : Src) : State :=
  let s := s.dropSrc src p
  if s.epFenced (hget p.hdr H.dst) then s else s.raise E.unreachable (qswUnit unit) (s.qswInfo p.hdr)

/-- Cells of the reorder store in use in a quadrant. -/
def State.reorderUsed (s : State) (q : Nat) : Nat :=
  s.egFlows.foldl (fun n e => n + ((e.2.held.filter fun h => h.quad = q).map fun h =>
    match h.pkt with | some p => 1 + p.pay.length | none => 0).sum) 0

/-- A sequence has been heard of; the gap timer runs while it lies at or beyond the expected one (03 R72). -/
def EgFlow.hear (e : EgFlow) (seq : Nat) : EgFlow :=
  { e with seen := match e.seen with
    | some x => if seqLe x seq then some seq else some x
    | none => some seq }

/-- Whether a gap of a flow is known, so that its gap timer runs (03 R72). -/
def EgFlow.gapOn (e : EgFlow) : Bool := e.seen.isSome

/-- The expected sequence has been delivered or voided: on to the next, with an acknowledgement at each 32nd delivery of a unicast
flow (03 R71). -/
def State.advance (s : State) (k : Nat) : State :=
  let e := s.egFlow k
  let next := (e.expect + 1) % 65536
  let e := { e with expect := next, sinceAck := e.sinceAck + 1, nacks := e.nacks.setD e.expect 0 0
                    seen := match e.seen with | some x => if seqLe next x then some x else none | none => none }
  let s := s.putEgFlow k e
  if 32 ≤ e.sinceAck && (keyFlow k).cast = 0 then s.sendAck k else s

/-- Deliver what is held in sequence (03 R72). `held` gives the reads of the reorder store; a packet that reads uncorrectable there is
space-dropped (07 R175). -/
def State.deliverHeld (s : State) (k : Nat) (held : List (Nat × CellRead)) : Nat → State
  | 0 => s
  | n + 1 =>
    let e := s.egFlow k
    match e.held.find? fun h => h.seq = e.expect with
    | some h =>
      let s := s.putEgFlow k { e with held := e.held.filter fun x => x.seq ≠ h.seq }
      match h.pkt with
      | none => (s.advance k).deliverHeld k held n
      | some p =>
        let r := s.cellReads h.quad 4 ((held.filter fun x => x.1 = h.seq).map (·.2)) (p.hdr :: p.pay)
        if r.2.2 then r.1.modEgFlow k fun e => { e with dropped := h.seq :: e.dropped }
        else
          let p : Packet := { hdr := r.2.1.headD p.hdr, pay := r.2.1.drop 1, crc := p.crc }
          match r.1.deliver k p h.gen h.quad (some h.vc) (.unit h.quad 6) with
          | some s => (s.advance k).deliverHeld k held n
          | none => r.1.notDelivered p (corePort h.quad 6) (.unit h.quad 6)
    | none => s

/-- After a delivery: what is held in sequence, and at once a request for a sequence that was space-dropped (03 R72, R73). -/
def State.afterDelivery (s : State) (k : Nat) (held : List (Nat × CellRead)) : State :=
  let s := s.deliverHeld k held (s.egFlow k).held.length
  let e := s.egFlow k
  if e.dropped.contains e.expect then
    (s.modEgFlow k fun x => { x with dropped := x.dropped.filter (· ≠ e.expect) }).sendNack k e.expect 1 false
  else s

/-- A packet of a flow reaches its egress edge, fan-out or destination module whole and good; a voided sequence number
comes with no packet (02 R42; 03 R71 to R73, R78). A second copy of a packet that is held out of order is discarded, with no
acknowledgement, for it has not been delivered. [DEDUCED log 28] -/
def State.arrive (s : State) (k seq : Nat) (p : Option Packet) (gen q vc : Nat) (src : Src) (held : List (Nat × CellRead)) : State :=
  let e := s.egFlow k
  let drop (s : State) : State := match p with | some p => s.dropSrc src p | none => s
  if seq = e.expect then
    match p with
    | none => (s.advance k).afterDelivery k held
    | some p =>
      match s.deliver k p gen q (some vc) src with
      | some s => (s.advance k).afterDelivery k held
      | none => s.notDelivered p gen src
  else if seqLe seq ((e.expect + 65535) % 65536) then
    match p with
    | some p =>
      if hget p.hdr H.mcast = 1 then (s.dropSrc src p).repeatCast k p gen q (some vc) else (s.dropSrc src p).sendAck k
    | none => s
  else if e.held.any fun h => h.seq = seq then drop s
  else
    let s := drop s
    let cells := match p with | some p => 1 + p.pay.length | none => 0
    if s.reorderUsed q + cells ≤ s.cellsOf q 480 32 then
      s.putEgFlow k { e.hear seq with held := e.held ++ [{ seq := seq, pkt := p, gen := gen, vc := vc, quad := q }] }
    else s.putEgFlow k { e.hear seq with dropped := seq :: e.dropped }

/-- A stomped packet at its egress edge (02 R42): SCAUSE 5 voids its sequence, any other asks for it again at once. -/
def State.arriveStomped (s : State) (k seq cause gen q vc : Nat) (held : List (Nat × CellRead)) : State :=
  if cause = 5 then s.arrive k seq none gen q vc (.unit q 6) held
  else if seqLe seq (((s.egFlow k).expect + 65535) % 65536) then s
  else (s.sendNack k seq 2 true).modEgFlow k fun e => e.hear seq

/-- A packet already delivered in its turn is lost on its way to the endpoint: its sequence is expected again, unless it has been
acknowledged, and those delivered after it count as received. [DESIGN CHOICE log 141] -/
def State.undeliver (s : State) (h : Flit) : State :=
  let k := flowKey (flowOf h)
  let e := s.egFlow k
  let seq := hget h H.flowSeq
  let last := (e.expect + 65535) % 65536
  if hget h H.mcast = 1 || hget h H.dmod = 1 || !seqLe seq last || seqLe seq e.acked then s
  else
    let after := (List.range ((last + 65536 - seq) % 65536)).map fun i => (seq + 1 + i) % 65536
    let void (n : Nat) : Held := { seq := n, pkt := none, gen := 0, vc := 0, quad := s.flowQuad (keyFlow k) }
    s.putEgFlow k { e.hear (if after = [] then seq else last) with expect := seq, held := after.map void ++ e.held }

/-! ## Sending a sequenced packet of this module -/

/-- Route a sequenced packet from its ingress edge and queue it (03 R55, R59 to R66, R77). `port` is the core port index of
04 R85 (3 COLL to 6 HUB); the header carries its FLOW_SEQ. -/
def State.sendRouted (s : State) (k seq : Nat) (p : Packet) (gen q port : Nat) (src : Src) : State :=
  let mask := castMask p.hdr
  let flow := (k, seq)
  let vc := hget p.hdr H.tc
  if hget p.hdr H.mcast = 1 && hget p.hdr H.caxis = 1 then
    let s := s.columnCopies p gen q port flow mask
    if mask.testBit s.group then s.arrive k seq (some { p with hdr := hset p.hdr H.spray (16 * s.group) }) gen q vc src []
    else s.dropSrc src p
  else
    let r := s.routeOf p.hdr gen none true
    let p := { p with hdr := r.1.hdr }
    match r.1.route with
    | .forward pt v => r.2.enqueuePkt pt v src gen p (some flow)
    | .discard => (r.2.dropSrc src p).noRoute (r.1.err.getD E.unreachable) p.hdr (corePort q port) (some flow)
    | .undecided => r.2
    | _ => r.2.arrive k seq (some p) gen q vc src []

/-- Sequence, retain and route a packet of a unit of this module (03 R55, R70, R461). -/
def State.launch (s : State) (p : Packet) (q port : Nat) (origin : Origin) : State :=
  let k := flowKey (flowOf p.hdr)
  let gen := coreGen q (port - 3)
  let r := s.sequence k p gen q true origin
  r.2.sendRouted k r.1 { p with hdr := hset p.hdr H.flowSeq r.1 } gen q port (.unit q port)

/-- Whether the flow of a packet has room for it now, nothing of the flow waiting before it. -/
def State.roomFor (s : State) (p : Packet) (q : Nat) : Bool :=
  let k := flowKey (flowOf p.hdr)
  s.flowRoom k q (1 + p.pay.length) && !s.heldPkts.any fun x => flowKey (flowOf x.hdr) = k

/-- Originate a packet of a flow from a unit of this module: SRC, SMOD and PLANE are the module's. A packet for the module
itself goes to its unit at once; one that its flow has no room for waits (03 R70). -/
def State.originate (s : State) (h : Flit) (bytes : List Byte) (q port : Nat) (origin : Origin) : State :=
  let h := hsets h [(H.src, s.self), (H.smod, 1), (H.plane, if s.plane then 1 else 0)]
  let p := mkPacket h bytes
  if hget h H.dmod = 1 && hget h H.dst = s.self then s.toLocal p (.unit q port)
  else if s.roomFor p q then s.launch p q port origin
  else { s with heldPkts := s.heldPkts ++ [{ hdr := h, bytes := bytes, quad := q, port := port, origin := origin }] }

/-- Send the waiting packets whose flows have room again, in order. -/
def State.drainHeld (s : State) : State :=
  if s.heldPkts = [] then s
  else
    let r := s.heldPkts.foldl (fun (acc : State × List HeldPkt) x =>
      let p := mkPacket x.hdr x.bytes
      let k := flowKey (flowOf p.hdr)
      if acc.1.flowRoom k x.quad (1 + p.pay.length) && !acc.2.any fun y => flowKey (flowOf y.hdr) = k then
        (acc.1.launch p x.quad x.port x.origin, acc.2)
      else (acc.1, acc.2 ++ [x])) ({ s with heldPkts := [] }, [])
    { r.1 with heldPkts := r.2 ++ r.1.heldPkts }

/-- Resend a retained packet with a new roll of the generator of its first roll (03 R62, R74, R75); a cast is narrowed to
the leaves not yet reported (R78). -/
def State.resend (s : State) (k : Nat) (r : Replay) : State :=
  let h := hsets r.pkt.hdr [(H.hops, 0), (H.esc, 0)]
  let h := if hget h H.mcast = 1 then hset h H.cmask (maskLeft (castMask h) r.leaf) else h
  let p : Packet := if hget h H.mcast = 1 then
      (let h := hset h H.hcrc (hcrcOf h)
       { hdr := h, pay := r.pkt.pay, crc := e2eCrc h r.pkt.pay })
    else { r.pkt with hdr := h }
  let port := if r.gen < 144 then 6 else 3 + (r.gen - 144) % 4
  s.sendRouted k r.seq p r.gen r.quad port (.unit r.quad port)

/-- Read a retained packet back from the replay store and resend it; where it reads uncorrectable its entry is freed, a result is told to its
slot, and any other packet ends its flow with FLOW_ERROR (07 R175). -/
def State.resendRead (s : State) (k : Nat) (r : Replay) (reads : List CellRead) : State :=
  let x := s.cellReads r.quad 3 reads (r.pkt.hdr :: r.pkt.pay)
  let s := x.1
  if x.2.2 then
    match r.origin with
    | .result _ _ _ => (s.freeEntry k r.seq false).tellUnit r false (failLeft (castMask r.pkt.hdr) r.leaf) true
    | _ => s.endFlow k r.pkt.hdr
  else s.resend k { r with pkt := { r.pkt with hdr := x.2.1.headD r.pkt.hdr, pay := x.2.1.drop 1 } }

/-- A replay of one entry for a NACK or a timeout: the flow ends where the count would exceed REPLAY_LIMIT (03 R76). -/
def State.replay (s : State) (k : Nat) (r : Replay) (reads : List CellRead) : State :=
  if s.replayLimit r.quad < r.nacks + r.resends then s.endFlow k r.pkt.hdr
  else if r.complete then s.resendRead k r reads
  else s

end Sys2Proof.Machine
end

