-- ==== Sys2Proof/Machine/Flags.lean ====
section
/-! DEFINITION. The arithmetic flags of an instance (06 R148), as the bits of AFLAGS and of the instance record. -/

namespace Sys2Proof.Machine

/-- A set of flags: bit 0 OVERFLOW, 1 INF_OUT, 2 NAN_IN, 3 INVALID, 4 INT_SAT, 5 INT_WRAP, 6 MX_ALIGN_LOSS, 7 IMPOSED. -/
abbrev Flags := BitVec 16

def Flags.overflow : Flags := 0x01
def Flags.infOut : Flags := 0x02
/-- [DEDUCED log 39] -/
def Flags.nanIn : Flags := 0x04
def Flags.invalid : Flags := 0x08
def Flags.intSat : Flags := 0x10
def Flags.intWrap : Flags := 0x20
def Flags.mxAlignLoss : Flags := 0x40
def Flags.imposed : Flags := 0x80

/-- The flag `f` when a condition holds. -/
def flagIf (c : Bool) (f : Flags) : Flags := if c then f else 0

end Sys2Proof.Machine
end

