-- ==== Sys2Proof/Machine/Operands.lean ====
section
/-! DEFINITION. Number formats and exact arithmetic (06): the eight formats, rounding, the results of one add, multiply,
fused multiply-add, divide and square root, comparisons, conversions, MX blocks, and words of lanes. -/

namespace Sys2Proof.Machine

/-! ## Formats (06 R137) -/

/-- A floating-point format: bits, mantissa bits, bias, the magnitude code of the largest finite value, the codes of
infinity and of the canonical NaN where it has them. -/
structure Fmt where
  bits : Nat
  man : Nat
  bias : Nat
  maxCode : Nat
  inf : Option Nat
  nan : Option Nat
deriving DecidableEq, Repr

def Fmt.fp32 : Fmt := ⟨32, 23, 127, 0x7F7FFFFF, some 0x7F800000, some 0x7FC00000⟩
def Fmt.bf16 : Fmt := ⟨16, 7, 127, 0x7F7F, some 0x7F80, some 0x7FC0⟩
def Fmt.fp16 : Fmt := ⟨16, 10, 15, 0x7BFF, some 0x7C00, some 0x7E00⟩
def Fmt.e4m3 : Fmt := ⟨8, 3, 7, 0x7E, none, some 0x7F⟩
def Fmt.e5m2 : Fmt := ⟨8, 2, 15, 0x7B, some 0x7C, some 0x7E⟩
def Fmt.e3m2 : Fmt := ⟨6, 2, 3, 0x1F, none, none⟩
def Fmt.e2m1 : Fmt := ⟨4, 1, 1, 0x7, none, none⟩

/-- The element format of a FORMAT code; INT32 (7) has none. -/
def fmtOf : Nat → Option Fmt
  | 0 => some .fp32
  | 1 => some .bf16
  | 2 => some .fp16
  | 3 => some .e4m3
  | 4 => some .e5m2
  | 5 => some .e3m2
  | 6 => some .e2m1
  | _ => none

/-- Whether a FORMAT code is an MX format. -/
def isMx (f : Nat) : Bool := f = 5 || f = 6

/-- Element width in bytes of a format; an MX element counts as one byte (06 R140, R141). -/
def fmtBytes : Nat → Nat
  | 0 => 4
  | 1 => 2
  | 2 => 2
  | 7 => 4
  | _ => 1

/-- Lanes of a 64-byte word (08 R189). -/
def lanesOf : Nat → Nat
  | 0 => 16
  | 7 => 16
  | 1 => 32
  | 2 => 32
  | _ => 64

/-! ## Exact values -/

/-- An exact value: (−1)^neg × m × 2^e, an infinity, or NaN. -/
inductive Num where
  | fin (neg : Bool) (m : Nat) (e : Int)
  | inf (neg : Bool)
  | nan
deriving DecidableEq, Repr

/-- The value of a code (06 R137, R139). -/
def decodeFp (f : Fmt) (c : Nat) : Num :=
  let neg := c / 2 ^ (f.bits - 1) % 2 = 1
  let mag := c % 2 ^ (f.bits - 1)
  if f.inf = some mag then .inf neg
  else if f.maxCode < mag then .nan
  else
    let ex := mag / 2 ^ f.man
    let fr := mag % 2 ^ f.man
    if ex = 0 then .fin neg fr (1 - (f.bias : Int) - f.man)
    else .fin neg (2 ^ f.man + fr) ((ex : Int) - f.bias - f.man)

/-- Shift an integer right by `k` places and round to nearest, ties to even; a negative `k` shifts left. -/
def shiftRne (m : Nat) (k : Int) : Nat :=
  if k ≤ 0 then m * 2 ^ (-k).toNat
  else
    let d := 2 ^ k.toNat
    let q := m / d
    let r := m % d
    if 2 * r < d then q else if d < 2 * r then q + 1 else q + q % 2

/-- The magnitude code of m × 2^e rounded to a format with an unbounded exponent range (06 R144). -/
def roundMag (f : Fmt) (m : Nat) (e : Int) : Nat :=
  if m = 0 then 0
  else
    let emin : Int := 1 - (f.bias : Int) - f.man
    let q : Int := max ((Nat.log2 m : Int) + e - f.man) emin
    let n := shiftRne m (q - e)
    -- the exponent field of the unit 2^q is q − emin, plus 1 once the leading bit is present
    (q - emin).toNat * 2 ^ f.man + n

/-- What an overflow of a finite result gives: the largest finite value, or infinity where `toInf` (06 R144). -/
def overflowTo (f : Fmt) (toInf : Bool) : Nat × Flags :=
  match toInf, f.inf with
  | true, some i => (i, Flags.infOut)
  | _, _ => (f.maxCode, Flags.overflow)

/-- The code of an exact value in a format, rounded once: NaN becomes the canonical NaN (06 R139, R144, R158). An infinity
in a format without one saturates with OVERFLOW. -/
def roundFp (f : Fmt) (toInf : Bool) (x : Num) : Nat × Flags :=
  let sgn (neg : Bool) (c : Nat) : Nat := if neg then c + 2 ^ (f.bits - 1) else c
  match x with
  | .nan => (f.nan.getD 0, 0)
  | .inf neg =>
    match f.inf with
    | some i => (sgn neg i, 0)
    | none => (sgn neg f.maxCode, Flags.overflow)
  | .fin neg m e =>
    let c := roundMag f m e
    if f.maxCode < c then let o := overflowTo f toInf; (sgn neg o.1, o.2) else (sgn neg c, 0)

/-! ## One operation on exact values -/

/-- A signed dyadic as an integer in units of 2^`g`, `g` at most its exponent. -/
def atUnit (neg : Bool) (m : Nat) (e g : Int) : Int :=
  (if neg then -1 else 1) * (m * 2 ^ (e - g).toNat : Nat)

/-- The exact sum, with the sign of a zero result (06 R144, R145). -/
def addNum : Num → Num → Num × Flags
  | .nan, _ => (.nan, Flags.nanIn)
  | _, .nan => (.nan, Flags.nanIn)
  | .inf a, .inf b => if a = b then (.inf a, 0) else (.nan, Flags.invalid)
  | .inf a, _ => (.inf a, 0)
  | _, .inf b => (.inf b, 0)
  | .fin na ma ea, .fin nb mb eb =>
    let g := min ea eb
    let t := atUnit na ma ea g + atUnit nb mb eb g
    if t = 0 then (.fin (na && nb) 0 0, 0) else (.fin (t < 0) t.natAbs g, 0)

def negNum : Num → Num
  | .fin n m e => .fin (!n) m e
  | .inf n => .inf (!n)
  | .nan => .nan

/-- The exact product. -/
def mulNum : Num → Num → Num × Flags
  | .nan, _ => (.nan, Flags.nanIn)
  | _, .nan => (.nan, Flags.nanIn)
  | .inf a, .inf b => (.inf (a != b), 0)
  | .inf a, .fin nb mb _ => if mb = 0 then (.nan, Flags.invalid) else (.inf (a != nb), 0)
  | .fin na ma _, .inf b => if ma = 0 then (.nan, Flags.invalid) else (.inf (na != b), 0)
  | .fin na ma ea, .fin nb mb eb => (.fin (na != nb) (ma * mb) (ea + eb), 0)

/-- The exact value of acc + a × b (06 R162). -/
def fmaNum (acc a b : Num) : Num × Flags :=
  let p := mulNum a b
  let r := addNum acc p.1
  if acc = .nan || a = .nan || b = .nan then (.nan, Flags.nanIn) else (r.1, if p.1 = .nan then p.2 else r.2)

/-- a ÷ b with enough bits, and a sticky bit, that one rounding to FP32 is correct (08 R191, VDIV). -/
def divNum : Num → Num → Num × Flags
  | .nan, _ => (.nan, Flags.nanIn)
  | _, .nan => (.nan, Flags.nanIn)
  | .inf _, .inf _ => (.nan, Flags.invalid)
  | .inf a, .fin nb _ _ => (.inf (a != nb), 0)
  | .fin na _ _, .inf b => (.fin (na != b) 0 0, 0)
  | .fin na ma ea, .fin nb mb eb =>
    if mb = 0 then (if ma = 0 then (.nan, Flags.invalid) else (.inf (na != nb), 0))
    else
      let q := ma * 2 ^ 80 / mb
      let sticky := if ma * 2 ^ 80 % mb = 0 then 0 else 1
      (.fin (na != nb) (2 * q + sticky) (ea - eb - 81), 0)

/-- Bits of an integer square root, from the highest. -/
def sqrtBits (n : Nat) : Nat → Nat → Nat
  | 0, r => r
  | k + 1, r => let c := r + 2 ^ k; sqrtBits n k (if c * c ≤ n then c else r)

/-- √a in the same way (08 R191, VSQRT). -/
def sqrtNum : Num → Num × Flags
  | .nan => (.nan, Flags.nanIn)
  | .inf true => (.nan, Flags.invalid)
  | .inf false => (.inf false, 0)
  | .fin neg m e =>
    if m = 0 then (.fin neg 0 0, 0)
    else if neg then (.nan, Flags.invalid)
    else
      let odd := e % 2 ≠ 0
      let m := (if odd then 2 * m else m) * 2 ^ 80
      let e := (if odd then e - 1 else e) - 80
      let r := sqrtBits m 64 0
      let sticky := if r * r = m then 0 else 1
      (.fin false (2 * r + sticky) (e / 2 - 1), 0)

/-- Compare exact values: −0 below +0 (06 R147). Answers whether `a` is below `b`; NaN answers false. -/
def ltNum : Num → Num → Bool
  | .nan, _ => false
  | _, .nan => false
  | .inf a, .inf b => a && !b
  | .inf a, _ => a
  | _, .inf b => !b
  | .fin na ma ea, .fin nb mb eb =>
    let g := min ea eb
    let x := atUnit na ma ea g
    let y := atUnit nb mb eb g
    if x = 0 && y = 0 then na && !nb else x < y

/-- Whether two values are equal as numbers: −0 equals +0; NaN equals nothing. -/
def eqNum : Num → Num → Bool
  | .nan, _ => false
  | _, .nan => false
  | .inf a, .inf b => a = b
  | .fin na ma ea, .fin nb mb eb => let g := min ea eb; atUnit na ma ea g = atUnit nb mb eb g
  | _, _ => false

/-! ## INT32 (06 R146) -/

/-- The signed value of 32 bits. -/
def sint32 (c : Nat) : Int := (BitVec.ofNat 32 c).toInt

/-- An exact integer as 32 bits: wrapped, or clamped where `sat`. -/
def int32Of (sat : Bool) (v : Int) : Nat × Flags :=
  if -(2 ^ 31 : Int) ≤ v && v ≤ 2 ^ 31 - 1 then ((BitVec.ofInt 32 v).toNat, 0)
  else if sat then ((if v < 0 then 0x80000000 else 0x7FFFFFFF), Flags.intSat)
  else ((BitVec.ofInt 32 v).toNat, Flags.intWrap)

/-- The nearest integer to an exact value, ties to even; none for NaN and infinities. -/
def nearestInt (neg : Bool) (m : Nat) (e : Int) : Int := (if neg then -1 else 1) * (shiftRne m (-e) : Nat)

/-! ## Lanes of a word (08 R189; 06 R140, R143) -/

/-- Where lane `i` of a format lies in a word: its lowest bit and its width. -/
def laneAt (f i : Nat) : Nat × Nat :=
  match f with
  | 0 => (32 * i, 32)
  | 7 => (32 * i, 32)
  | 1 => (16 * i, 16)
  | 2 => (16 * i, 16)
  | 5 => (256 * (i / 32) + 6 * (i % 32), 6)
  | 6 => (256 * (i / 32) + 4 * (i % 32), 4)
  | _ => (8 * i, 8)

def laneGet (f : Nat) (w : Flit) (i : Nat) : Nat :=
  (BitVec.extractLsb' (laneAt f i).1 (laneAt f i).2 w).toNat

def laneSet (f : Nat) (w : Flit) (i v : Nat) : Flit :=
  let p := laneAt f i
  (w &&& ~~~((BitVec.allOnes p.2).setWidth 512 <<< p.1)) ||| ((BitVec.ofNat p.2 v).setWidth 512 <<< p.1)

/-- A word from its lanes. -/
def wordOfLanes (f : Nat) (ls : List Nat) : Flit :=
  (ls.zipIdx).foldl (fun w e => laneSet f w e.2 e.1) 0

/-- Build a word lane by lane, joining the flags. -/
def mapLanes (f : Nat) (g : Nat → Nat × Flags) : Flit × Flags :=
  (List.range (lanesOf f)).foldl (fun (r : Flit × Flags) i =>
    let x := g i
    (laneSet f r.1 i x.1, r.2 ||| x.2)) (0, 0)

/-- The scale byte of block `b` of a word of two block cells. -/
def scaleGet (w : Flit) (b : Nat) : Nat := (BitVec.extractLsb' (256 * b + 192) 8 w).toNat

def scaleSet (w : Flit) (b v : Nat) : Flit :=
  (w &&& ~~~((0xFF : Flit) <<< (256 * b + 192))) ||| ((BitVec.ofNat 512 (v % 256)) <<< (256 * b + 192))

/-! ## MX blocks (06 R138, R156, R157) -/

/-- emax of an MX element format. -/
def mxEmax (f : Nat) : Int := if f = 5 then 4 else 2

/-- A block: its scale byte and its 32 element codes. -/
abbrev Block32 := Nat × List Nat

def blockGet (f : Nat) (w : Flit) (b : Nat) : Block32 :=
  (scaleGet w b, (List.range 32).map fun i => laneGet f w (32 * b + i))

def blockSet (f : Nat) (w : Flit) (b : Nat) (x : Block32) : Flit :=
  scaleSet ((x.2.zipIdx).foldl (fun w e => laneSet f w (32 * b + e.2) e.1) w) b x.1

/-- Element format of an MX code. -/
def mxFmt (f : Nat) : Fmt := if f = 5 then .e3m2 else .e2m1

/-- The exact values of a block (06 R138, R158). -/
def blockNums (f : Nat) (x : Block32) : List Num :=
  if x.1 = 0xFF then x.2.map fun _ => .nan
  else x.2.map fun c => match decodeFp (mxFmt f) c with
    | .fin n m e => .fin n m (e + x.1 - 127)
    | v => v

/-- The larger of two magnitudes. -/
def maxMag : Num → Num → Num
  | .fin na ma ea, .fin nb mb eb =>
    let g := min ea eb
    if (atUnit false ma ea g) < (atUnit false mb eb g) then .fin nb mb eb else .fin na ma ea
  | a, _ => a

def Num.isFinite : Num → Bool
  | .fin .. => true
  | _ => false

def Num.isZero : Num → Bool
  | .fin _ m _ => m = 0
  | _ => false

/-- Quantise 32 exact values to one block (06 R156). -/
def quantize (f : Nat) (vs : List Num) : Block32 × Flags :=
  if vs.any fun v => !v.isFinite then ((0xFF, vs.map fun _ => 0), Flags.nanIn)
  else if vs.all Num.isZero then ((0x7F, vs.map fun _ => 0), 0)
  else
    match vs.foldl maxMag (.fin false 0 0) with
    | .fin _ m e =>
      let s : Int := (Nat.log2 m : Int) + e - mxEmax f + 127
      let s := if 254 < s then 254 else if s < 0 then 0 else s
      let es := vs.map fun v => match v with
        | .fin n m e => roundFp (mxFmt f) false (.fin n m (e - (s - 127)))
        | _ => (0, 0)
      ((s.toNat, es.map (·.1)), es.foldl (fun a x => a ||| x.2) 0)
    | _ => ((0xFF, vs.map fun _ => 0), Flags.nanIn)

/-- An element on the grid of 2^(S − 127 − 12): the signed integer, and whether it rounded. -/
def onGrid (f : Nat) (shift : Nat) (c : Nat) : Bool × Nat × Bool :=
  match decodeFp (mxFmt f) c with
  | .fin n m e =>
    let k : Int := (shift : Int) - 12 - e
    let q := shiftRne m k
    (n, q, decide (0 < k) && decide (q * 2 ^ k.toNat ≠ m))
  | _ => (false, 0, false)

/-- The same block in the same MX format: its bits, a NaN block canonical. -/
def copyBlock (x : Block32) : Block32 × Flags :=
  if x.1 = 0xFF then ((0xFF, x.2.map fun _ => 0), Flags.nanIn) else (x, 0)

/-- Add two blocks (06 R157). -/
def addBlocks (f : Nat) (a b : Block32) : Block32 × Flags :=
  if a.1 = 0xFF || b.1 = 0xFF then ((0xFF, a.2.map fun _ => 0), Flags.nanIn)
  else
    let s := max a.1 b.1
    let xs := a.2.map (onGrid f (s - a.1))
    let ys := b.2.map (onGrid f (s - b.1))
    let sums := (xs.zip ys).map fun p =>
      let t := atUnit p.1.1 p.1.2.1 0 0 + atUnit p.2.1 p.2.2.1 0 0
      if t = 0 then Num.fin (p.1.1 && p.2.1) 0 0 else Num.fin (t < 0) t.natAbs ((s : Int) - 139)
    let r := quantize f sums
    (r.1, r.2 ||| flagIf (xs.any (·.2.2) || ys.any (·.2.2)) Flags.mxAlignLoss)

/-! ## Whole words -/

/-- How a result that overflows or an integer sum is completed: E5M2_INF, and INT_MODE = SATURATE. -/
structure ArithMode where
  e5Inf : Bool := false
  sat : Bool := false
deriving DecidableEq, Repr

/-- One result lane of a floating-point format from an exact value with its own flags. -/
def lane1 (f : Nat) (md : ArithMode) (x : Num × Flags) : Nat × Flags :=
  match fmtOf f with
  | some ft => let r := roundFp ft (md.e5Inf && f = 4) x.1; (r.1, r.2 ||| x.2)
  | none => (0, x.2)

/-- The exact value of a lane of a format that is not MX. -/
def laneNum (f : Nat) (w : Flit) (i : Nat) : Num :=
  match fmtOf f with
  | some ft => decodeFp ft (laneGet f w i)
  | none => let v := sint32 (laneGet f w i); .fin (v < 0) v.natAbs 0

/-- Elementwise add of two words (06 R144, R146, R157); `neg` subtracts. [DEDUCED log 39] -/
def addWord (f : Nat) (md : ArithMode) (neg : Bool) (a b : Flit) : Flit × Flags :=
  if isMx f then
    let flip (x : Block32) : Block32 := if neg then (x.1, x.2.map fun c => c ^^^ 2 ^ ((mxFmt f).bits - 1)) else x
    let r0 := addBlocks f (blockGet f a 0) (flip (blockGet f b 0))
    let r1 := addBlocks f (blockGet f a 1) (flip (blockGet f b 1))
    (blockSet f (blockSet f 0 0 r0.1) 1 r1.1, r0.2 ||| r1.2)
  else if f = 7 then
    mapLanes 7 fun i =>
      let y := sint32 (laneGet 7 b i)
      int32Of md.sat (sint32 (laneGet 7 a i) + if neg then -y else y)
  else mapLanes f fun i =>
    let y := laneNum f b i
    lane1 f md (addNum (laneNum f a i) (if neg then negNum y else y))

/-- A first arrival: NaNs canonicalised, a NaN block among them, nothing rounded; other MX cells and INT32 unchanged
(06 R139, R149, R157; 07 R172). [DEDUCED log 39] -/
def firstWord (f : Nat) (w : Flit) : Flit × Flags :=
  if isMx f then
    let canon (w : Flit) (b : Nat) : Flit := if scaleGet w b = 0xFF then blockSet f w b (copyBlock (blockGet f w b)).1 else w
    (canon (canon w 0) 1, flagIf (scaleGet w 0 = 0xFF || scaleGet w 1 = 0xFF) Flags.nanIn)
  else
    match fmtOf f with
    | none => (w, 0)
    | some ft => mapLanes f fun i =>
        let c := laneGet f w i
        if decodeFp ft c = .nan then (ft.nan.getD 0, Flags.nanIn) else (c, 0)

/-- Elementwise maximum or minimum (06 R147). [DEDUCED log 37] -/
def maxMinWord (f : Nat) (isMin : Bool) (a b : Flit) : Flit × Flags :=
  mapLanes f fun i =>
    let x := laneNum f a i
    let y := laneNum f b i
    if x = .nan || y = .nan then ((((fmtOf f).bind (·.nan)).getD 0), Flags.nanIn)
    else
      let takeB := if isMin then ltNum y x else ltNum x y
      (laneGet f (if takeB then b else a) i, 0)

/-! ## EXACT accumulators (06 R151 to R153) -/

/-- Add one accumulator code to another. `w` is 32 or 64 bits. The non-finite states absorb. -/
def accAdd (w a b : Nat) : Nat × Flags :=
  let nan := 2 ^ (w - 1)
  if w = 32 then
    if b = nan || a = nan then (nan, flagIf (b = nan) Flags.nanIn) else ((a + b) % 2 ^ w, 0)
  else
    let pinf := 2 ^ 63 - 1
    let ninf := 2 ^ 63 + 1
    if b = nan || a = nan then (nan, flagIf (b = nan) Flags.nanIn)
    else if (a = pinf && b = ninf) || (a = ninf && b = pinf) then (nan, Flags.invalid)
    else if a = pinf || a = ninf then (a, 0)
    else if b = pinf || b = ninf then (b, 0)
    else ((a + b) % 2 ^ w, 0)

/-- XACC on a word: 16 accumulators of 32 bits or 8 of 64 (07 R171). -/
def xaccWord (w : Nat) (a b : Flit) : Flit × Flags :=
  (List.range (512 / w)).foldl (fun (r : Flit × Flags) i =>
    let g (v : Flit) : Nat := v.toNat / 2 ^ (w * i) % 2 ^ w
    let x := accAdd w (g a) (g b)
    (r.1 ||| (BitVec.ofNat 512 x.1 <<< (w * i)), r.2 ||| x.2)) (0, 0)

/-- The EXACT store expansion X of a format (05 R105). -/
def exactX (f : Nat) : Nat := if f = 3 then 4 else if f = 4 then 8 else 2

/-- The accumulator width of a format. -/
def accWidth (f : Nat) : Nat := if f = 3 then 32 else 64

/-- One contribution element in accumulator units. -/
def toAcc (f c : Nat) : Nat × Flags :=
  if f = 7 then ((BitVec.ofInt 64 (sint32 c)).toNat, 0)
  else
    let w := accWidth f
    match decodeFp (if f = 3 then .e4m3 else .e5m2) c with
    | .nan => (2 ^ (w - 1), Flags.nanIn)
    | .inf neg => (if neg then 2 ^ 63 + 1 else 2 ^ 63 - 1, 0)
    | .fin neg m e =>
      let v : Int := atUnit neg m e (if f = 3 then -9 else -16)
      ((v % (2 ^ w : Int)).toNat, 0)

/-- The accumulator words that one contribution word expands into (07 R171). -/
def expandWord (f : Nat) (w : Flit) : List Flit × Flags :=
  let cs := (List.range (64 / fmtBytes f)).map fun i => toAcc f (laneGet f w i)
  let per := 512 / accWidth f
  ((List.range (exactX f)).map fun k =>
    ((List.range per).foldl (fun (v : Flit) i =>
      v ||| (BitVec.ofNat 512 ((cs.getD (k * per + i) (0, 0)).1) <<< (accWidth f * i))) 0),
   cs.foldl (fun a x => a ||| x.2) 0)

/-- The final conversion of an accumulator to its format (06 R152, R153): the non-finite states give the canonical NaN and the
infinities, whatever E5M2_INF says. -/
def accFinal (f : Nat) (md : ArithMode) (acc : Nat) : Nat × Flags :=
  let w := accWidth f
  let v : Int := (BitVec.ofNat w acc).toInt
  if f = 7 then int32Of md.sat v
  else if acc = 2 ^ (w - 1) then (if f = 3 then 0x7F else 0x7E, 0)
  else if f = 4 && acc = 2 ^ 63 - 1 then (0x7C, 0)
  else if f = 4 && acc = 2 ^ 63 + 1 then (0xFC, 0)
  else if f = 3 then roundFp .e4m3 false (.fin (v < 0) v.natAbs (-9))
  else roundFp .e5m2 md.e5Inf (.fin (v < 0) v.natAbs (-16))

/-- The result word that X accumulator words convert to. -/
def accWords (f : Nat) (md : ArithMode) (ws : List Flit) : Flit × Flags :=
  let w := accWidth f
  let per := 512 / w
  (List.range (64 / fmtBytes f)).foldl (fun (r : Flit × Flags) i =>
    let z := accFinal f md ((ws.getD (i / per) 0).toNat / 2 ^ (w * (i % per)) % 2 ^ w)
    (laneSet f r.1 i z.1, r.2 ||| z.2)) (0, 0)

/-! ## Conversions (06 R158) -/

/-- Convert an exact value to a lane of a format that is not MX; conversions into E5M2 saturate. -/
def convertTo (f : Nat) (x : Num) : Nat × Flags :=
  match fmtOf f with
  | some ft => roundFp ft false x
  | none =>
    match x with
    | .nan => (0, Flags.invalid)
    | .inf neg => (if neg then 0x80000000 else 0x7FFFFFFF, Flags.intSat)
    | .fin n m e => int32Of true (nearestInt n m e)

/-- Whether a conversion of a lane has a NaN input, which raises NAN_IN. [DEDUCED log 39] -/
def nanFlag (x : Num) : Flags := flagIf (x = .nan) Flags.nanIn

/-- Convert one lane code between formats that are not MX; the same format copies the bits, NaNs canonicalised. -/
def convertLane (src dst : Nat) (x : Num) (code : Nat) : Nat × Flags :=
  if src = dst then (if x = .nan then (((fmtOf dst).bind (·.nan)).getD 0, Flags.nanIn) else (code, 0))
  else let r := convertTo dst x; (r.1, r.2 ||| nanFlag x)

end Sys2Proof.Machine
end

