-- ==== Sys2Proof/Machine/Banks.lean ====
section
/-! DEFINITION. The reduction store (07): store addresses, interleave and relocation, words with their tag under ECC, the
bank operations of R171, repair of columns, and what asks for a bank's retirement. -/

namespace Sys2Proof.Machine

/-! ## Places (07 R164, R181) -/

/-- Where staging starts in the quadrant bank space (07 R165). -/
def stgOffset : Nat := 0x08000000

/-- A bank and a row of a quadrant. -/
structure Place where
  bank : Nat
  row : Nat
deriving DecidableEq, Repr

/-- Whether a bank space address lies in staging. -/
def inStg (a : Nat) : Bool := stgOffset ≤ a

/-- The logical bank and row of a bank space address (07 R164); the bank is a physical number, staging from 256. -/
def logicalPlace (a : Nat) : Place :=
  if inStg a then { bank := 256 + (a - stgOffset) / 64 % 128, row := (a - stgOffset) / 8192 % 8192 }
  else { bank := a / 64 % 256, row := a / 16384 % 8192 }

/-- The retired banks of a quadrant's store, ascending. -/
def State.retiredIn (s : State) (q lo n : Nat) : List Nat :=
  ((List.range n).map (lo + ·)).filter fun b => s.retired.contains (512 * q + b)

/-- The banks whose words a store has relocated, ascending: of its retired banks the first 16 of a reduction store and the first 8 of a
staging store. A further one takes the collective function out of service and installs no relocation (07 R182). -/
def State.relocated (s : State) (q lo n : Nat) : List Nat :=
  let first := ((s.retired.filter fun u => 512 * q + lo ≤ u && u < 512 * q + lo + n).reverse).take (n / 16)
  ((List.range n).map (lo + ·)).filter fun b => first.contains (512 * q + b)

/-- The bank and row that hold a word (07 R181). -/
def State.placeOf (s : State) (q a : Nat) : Place :=
  let p := logicalPlace a
  let lo := if inStg a then 256 else 0
  let n := if inStg a then 128 else 256
  let gone := s.relocated q lo n
  match gone.findIdx? (· = p.bank) with
  | none => p
  | some j =>
    let top := 8192 - (8192 / n) * gone.length
    let k := j * top + p.row
    let live := ((List.range n).map (lo + ·)).filter fun b => !gone.contains b
    { bank := live.getD (k % live.length) p.bank, row := top + k / live.length }

/-- Whether an address lies below its store's current top (07 R165, QBANK_TOP). -/
def State.bankInRange (s : State) (q a : Nat) : Bool :=
  if inStg a then a - stgOffset < s.rd F.qbankTopStgRows q * 8192 else a < s.rd F.qbankTopRedRows q * 16384

/-- The key of a word in the table of words. -/
def bankKey (q a : Nat) : Nat := 2 ^ 40 * q + a / 64

/-! ## Words without an access -/

/-- WRITE: word := operand, tag cleared (07 R171, R172). -/
def State.bankSet (s : State) (q a : Nat) (f : Flit) (poison : Bool := false) : State :=
  s.putBankWord (bankKey q a) { data := f, poison := poison, empty := false }

/-- CLEAR: zero data, EMPTY. -/
def State.bankClear (s : State) (q a : Nat) : State := s.putBankWord (bankKey q a) {}

/-- CLEAR the `n` bytes from `a`. -/
def State.bankClearArea (s : State) (q a n : Nat) : State :=
  let lo := bankKey q a
  { s with banks := s.banks.filter fun e => e.1 < lo || lo + n / 64 ≤ e.1 }

/-- WRITE zeros over an area: an accumulator starts at zero (07 R172). -/
def State.bankZeroArea (s : State) (q a n : Nat) : State :=
  s.each (List.range (n / 64)) fun s k => s.bankSet q (a + 64 * k) 0

/-- Set `n` bits of a word from bit `lo`, its tag cleared: the deposit path's map entries and bitmap bits (09 R225). [DEDUCED log 40] -/
def State.bankPoke (s : State) (q a lo n v : Nat) : State :=
  let w := (s.bankWord (bankKey q a)).data
  s.bankSet q a ((w &&& ~~~((BitVec.allOnes n).setWidth 512 <<< lo)) ||| ((BitVec.ofNat n v).setWidth 512 <<< lo))

/-! ## Reads under ECC (07 R174, R175) -/

/-- The counter unit of a bank place. -/
def bankUnit (q : Nat) (p : Place) : Nat := U.bank q (p.bank)

/-- Read the word at a bank space address: the word as it stands after the read, and whether the read was uncorrectable or
the word poisoned. An uncorrectable word is written back poisoned with zero data; a miscorrected one with its wrong data. [DESIGN CHOICE log 35] -/
def State.bankRead (s : State) (q a : Nat) (e : Ecc) : State × BankWord :=
  let p := s.placeOf q a
  let w := s.bankWord (bankKey q a)
  let s := s.onlyIf (decide (p ≠ logicalPlace a)) fun s => s.ev (bankUnit q p) 0x08
  let r := s.eccRead q p.bank p.row (if inStg a then 1 else 0) e
  if r.2 then (r.1.bankSet q a 0 true, { data := 0, poison := true, empty := false })
  else
    match e with
    | .mis f => (r.1.bankSet q a f w.poison, { w with data := f, empty := false })
    | _ => (r.1, w)

/-- READ: an EMPTY word answers zero data, a poisoned one zero data and POISON. -/
def State.bankReadWord (s : State) (q a : Nat) (e : Ecc) : State × BankWord :=
  (s.ev (bankUnit q (s.placeOf q a)) 0x02).bankRead q a e

/-- WRITE by a master. -/
def State.bankWrite (s : State) (q a : Nat) (f : Flit) (poison : Bool := false) : State :=
  (s.ev (bankUnit q (s.placeOf q a)) 0x03).bankSet q a f poison

/-- One atomic (07 R171, R172): `first` is what an EMPTY word takes, `f` combines the old data and the operand. Answers the
old word and the flags. [DEDUCED log 37] -/
def State.bankRmw (s : State) (q a : Nat) (e : Ecc) (first : Flit → Flit × Flags) (f : Flit → Flit → Flit × Flags)
    (x : Flit) : State × BankWord × Flags :=
  let r := (s.ev (bankUnit q (s.placeOf q a)) 0x01).bankRead q a e
  let w := r.2
  if w.poison then (r.1, w, 0)
  else
    let y := if w.empty then first x else f w.data x
    (r.1.bankSet q a y.1, w, y.2)

/-- ADD.f on a word; INT32 by the mode (07 R171). -/
def State.bankAdd (s : State) (q a : Nat) (e : Ecc) (f : Nat) (md : ArithMode) (x : Flit) : State × BankWord × Flags :=
  s.bankRmw q a e (firstWord f) (addWord f md false) x

/-- XACC32 or XACC64. -/
def State.bankXacc (s : State) (q a : Nat) (e : Ecc) (w : Nat) (x : Flit) : State × BankWord × Flags :=
  s.bankRmw q a e (fun y => (y, 0)) (xaccWord w) x

end Sys2Proof.Machine
end

