-- ==== Sys2Proof/Machine/Mem.lean ====
section
/-! DEFINITION. Fabric memory (10): addresses and channels, words under inline ECC, poison, the region checks, and the
memory requests of the fabric (02 R53). -/

namespace Sys2Proof.Machine

/-! ## The byte store -/

/-- One byte of fabric memory; an unlisted byte is the zero of the zero-fill (10 R242). [DEDUCED log 7] -/
def Memory.read (m : List Host.Cell) (a : Nat) : Byte := Tab.getD m a 0

/-- Write one byte, keeping the canonical form. -/
def Memory.write (m : List Host.Cell) (a : Nat) (b : Byte) : List Host.Cell := Tab.setD m a 0 b

/-- Write bytes at rising addresses. -/
def Memory.writes (m : List Host.Cell) (a : Nat) : List Byte → List Host.Cell
  | [] => m
  | b :: bs => Memory.writes (Memory.write m a b) (a + 1) bs

/-- The canonical form: addresses rising, no listed zero. [DEDUCED log 7] -/
def Memory.wf (m : List Host.Cell) : Bool := Tab.wf 0 m

/-- The `n` bytes from an address. -/
def Memory.slice (m : List Host.Cell) (a n : Nat) : List Byte := (List.range n).map fun i => Memory.read m (a + i)

/-- The bytes of a word of 64 bytes, by word number. -/
def Memory.word (m : List Host.Cell) (w : Nat) : Flit := flitOf (Memory.slice m (64 * w) 64)

/-- Every listed byte from an address on. -/
def Memory.range (m : List Host.Cell) (a n : Nat) : List Host.Cell := m.filter fun e => a ≤ e.1 && e.1 < a + n

/-! ## Channels (10 R237) -/

/-- The channel of an address. -/
def memChannel (a : Nat) : Nat :=
  (a / 2 ^ 8 % 64) ^^^ (a / 2 ^ 14 % 64) ^^^ (a / 2 ^ 20 % 64) ^^^ (a / 2 ^ 26 % 64) ^^^ (a / 2 ^ 32 % 64)
    ^^^ (a / 2 ^ 38 % 64) ^^^ (a / 2 ^ 44 % 16)

/-- The channel-local address of an address. -/
def memLocal (a : Nat) : Nat := a / 2 ^ 14 % 2 ^ 34 * 256 + a % 256

/-- The address that a channel and a channel-local address name. -/
def memAddr (ch l : Nat) : Nat :=
  let hi := l / 256 * 2 ^ 14
  let x := ch ^^^ memChannel hi
  hi + x * 256 + l % 256

/-- The first address above usable fabric memory (10 R236). -/
def State.memTop (s : State) : Nat := s.rd F.memcTopTop

/-- Fabric memory is in service. -/
def State.memReady (s : State) : Bool := s.rd F.memcStatState = 1

/-! ## Words under ECC (10 R239 to R241) -/

/-- What a read of one word answers: its data and whether it is poisoned. -/
abbrev WordRead := Flit × Bool

/-- Store a word. -/
def State.putMemWord (s : State) (w : Nat) (f : Flit) (poison : Bool) : State :=
  { s with mem := Memory.writes s.mem (64 * w) (flitBytes f)
           memPoison := if poison then (if s.memPoison.contains w then s.memPoison else w :: s.memPoison)
                        else s.memPoison.filter (· ≠ w) }

/-- Poison a word where it stands. -/
def State.poisonMemWord (s : State) (w : Nat) : State :=
  if s.memPoison.contains w then s else { s with memPoison := w :: s.memPoison }

/-- Whether a read of fabric memory is uncorrectable: the code corrects errors within 3 symbols and detects more (10 R239). -/
def memUncorrectable (e : Ecc) : Bool :=
  match e with
  | .ue => true
  | .ce n => 3 < n
  | _ => false

/-- Decode one word as it was taken: `at_` is what the array held. An uncorrectable word answers a free value; a
miscorrection answers, and writes back, its wrong data. [DESIGN CHOICE log 35] -/
def State.decodeMemWord (s : State) (w : Nat) (at_ : WordRead) (e : Ecc) : State × WordRead :=
  let ch := memChannel (64 * w)
  let loc := memLocal (64 * w)
  let u := s.evaluate E.memUe ch (at_.2 || memUncorrectable e)
  if u.2.1 then
    let s := (u.1.raise E.memUe ch loc 0 none u.2.2).ev (U.mem ch) 0x08
    let d := s.draw
    (d.2.poisonMemWord w, Config.freeFlit d.1, true)
  else
    let syms : Nat × State := match e with
      | .ce n => (n, u.1)
      | .mis _ => let d := u.1.draw; (Config.freeNat d.1 % 3 + 1, d.2)
      | _ => (0, u.1)
    let c := syms.2.evaluate E.memCe ch (syms.1 ≠ 0)
    let s := if c.2.1 then (c.1.raise E.memCe ch loc syms.1 none c.2.2).ev (U.mem ch) 0x07 else c.1
    match e with
    | .mis f => (s.putMemWord w f false, f, false)
    | _ => (s, at_.1, false)

/-- Read one word. [DESIGN CHOICE log 35] -/
def State.readMemWord (s : State) (w : Nat) (e : Ecc) : State × WordRead :=
  (s.ev (U.mem (memChannel (64 * w))) 0x01).decodeMemWord w (Memory.word s.mem w, s.memPoison.contains w) e

/-- The word numbers that `n` bytes from `a` touch. -/
def wordsOf (a n : Nat) : List Nat := if n = 0 then [] else (List.range ((a + n - 1) / 64 - a / 64 + 1)).map (a / 64 + ·)

/-- Read words in turn, each with its ECC outcome; answers the words and whether any is poisoned. [DEDUCED log 34] -/
def State.readWords (s : State) (ws : List Nat) (reads : List Ecc) : State × List Flit × Bool :=
  (ws.zipIdx).foldl (fun (r : State × List Flit × Bool) (e : Nat × Nat) =>
    let x := r.1.readMemWord e.1 (reads.getD e.2 .clean)
    (x.1, r.2.1 ++ [x.2.1], r.2.2 || x.2.2)) (s, [], false)

/-- Read `n` bytes from `a`. -/
def State.readMem (s : State) (a n : Nat) (reads : List Ecc) : State × List Byte × Bool :=
  let r := s.readWords (wordsOf a n) reads
  (r.1, ((r.2.1.flatMap flitBytes).drop (a % 64)).take n, r.2.2)

/-- Write the part of `bytes` (from address `a`) that lies in word `w`: a whole word in one write, a part by a read,
merge and write back, poisoned where the read is uncorrectable (10 R240). -/
def State.writeMemPart (s : State) (w a : Nat) (bytes : List Byte) (poison : Bool) (e : Ecc) : State :=
  let lo := Nat.max a (64 * w)
  let hi := Nat.min (a + bytes.length) (64 * w + 64)
  let part := (bytes.drop (lo - a)).take (hi - lo)
  let ch := U.mem (memChannel (64 * w))
  if hi - lo = 64 then (s.putMemWord w (flitOf part) poison).ev ch 0x02
  else
    let r := s.decodeMemWord w (Memory.word s.mem w, s.memPoison.contains w) e
    let old := flitBytes r.2.1
    (r.1.putMemWord w (flitOf (old.take (lo - 64 * w) ++ part ++ old.drop (hi - 64 * w))) (poison || r.2.2)).ev ch 0x03

/-- Write bytes from address `a`; `reads` gives the ECC outcome of each word it touches. -/
def State.writeMem (s : State) (a : Nat) (bytes : List Byte) (poison : Bool) (reads : List Ecc) : State :=
  ((wordsOf a bytes.length).zipIdx).foldl (fun s (e : Nat × Nat) =>
    s.writeMemPart e.1 a bytes poison (reads.getD e.2 .clean)) s

/-! ## Access (02 R53; 10 R247, R248) -/

/-- Whether a byte range lies in one valid region of a slice that permits the access. -/
def State.regionOk (s : State) (slice a n : Nat) (write : Bool) : Bool :=
  s.tables.regions.any fun e =>
    e.2.mode.testBit 2 && e.2.mode.testBit (if write then 1 else 0) && e.2.slice = slice &&
    e.2.base * 2 ^ 19 ≤ a && a + n ≤ (e.2.base + e.2.size) * 2 ^ 19

/-- MSTATUS of a request, before any data is read: 0 OK, 1 ADDR_RANGE, 2 ADDR_CROSS, 4 ACCESS_DENIED. [DEDUCED log 36] -/
def State.mstatusOf (s : State) (h : Flit) (write : Bool) : Nat :=
  let f := hget h H.faddr
  let a := f % 2 ^ 48
  let n := hget h H.bytes
  if f / 2 ^ 48 ≠ s.self || s.memTop < a + n then 1
  else if 4096 < a % 4096 + n then 2
  else if hget h H.smod = 1 && hget h H.slice = 0 then 0
  else if s.regionOk (hget h H.slice) a n write then 0
  else 4

/-- Whether the packet at place `i` among the arrivals may be taken: all its flits are at its unit, and no earlier packet of its flow
still waits, so that a unit takes the packets of one flow in FLOW_SEQ order (03 R461, 10 R246). -/
def State.takeable (s : State) (i : Nat) (l : LocalPkt) : Bool :=
  l.chg.due = 0 && l.chg.near = 0 &&
  !((s.local_.take i).any fun e => sequenced e.pkt.hdr && hget e.pkt.hdr H.tc = hget l.pkt.hdr H.tc && flowOf e.pkt.hdr = flowOf l.pkt.hdr)

/-- The first waiting packet that a test accepts out of the module's own arrivals, taken out with its cells still held. -/
def State.takeWhole (s : State) (t : LocalPkt → Bool) : Option (LocalPkt × State) :=
  match ((s.local_.zipIdx).find? fun e => t e.1 && s.takeable e.2 e.1) with
  | some (l, i) => some (l, { s with local_ := s.local_.eraseIdx i })
  | none => none

/-- Take the first waiting packet that a test accepts; its cells are released. Answers the packet and its unit's quadrant. -/
def State.takeLocal (s : State) (t : Flit → Bool) : Option (Packet × Nat × State) :=
  (s.takeWhole fun l => t l.pkt.hdr).map fun r => (r.1.pkt, r.1.quad, r.2.freeLocal r.1)

def isType (t : Nat) (h : Flit) : Bool := hget h H.ptype = t

/-- One half of a quadrant's memory staging area, that of the streaming engine or that of memory requests (10 R238). -/
def stagingHalf : Nat := 2097152

/-- Payload bytes that stand in a half of a quadrant's staging area: those of packets that wait to be drawn, and the rooms reserved for
reads in flight (03 R64). -/
def State.stagingUsed (s : State) (q : Nat) (stream : Bool) : Nat :=
  let mine (h : Flit) : Bool := isType PT.stream h = stream
  let drawn := s.outq.foldl (fun n e => n + ((e.2.filter fun o =>
    o.chg.acct / 16 = corePort q 4 && mine (o.flits.headD 0)).map fun o => 64 * o.chg.drawn).sum) 0
  let held := ((s.heldPkts.filter fun x => x.quad = q && x.port = 4 && mine x.hdr).map fun x => x.bytes.length).sum
  drawn + held + if stream then 0 else ((s.memReads.filter fun r => r.quad = q).map fun r => hget r.req H.bytes).sum

/-- Take the first waiting memory request of a type for which its quadrant's staging area has room (03 R64, 10 R238). -/
def State.takeRequest (s : State) (t : Nat) : Option (Packet × Nat × State) :=
  (s.takeWhole fun l => isType t l.pkt.hdr && s.stagingUsed l.quad false + hget l.pkt.hdr H.bytes ≤ stagingHalf).map fun r =>
    (r.1.pkt, r.1.quad, r.2.freeLocal r.1)

/-- Answer a memory request with a MEM_RD_RSP from the MEM core port of a quadrant. -/
def State.answerMem (s : State) (req : Flit) (q status : Nat) (bytes : List Byte) : State :=
  s.originate (mkHdr [(H.ptype, PT.memRdRsp), (H.tc, hget req H.tc), (H.poison, if status = 3 then 1 else 0),
    (H.dst, hget req H.src), (H.dmod, hget req H.smod), (H.slice, hget req H.slice), (H.faddr, hget req H.faddr),
    (H.cpl, if hget req H.ptype = PT.memWr then 1 else 0), (H.tag, hget req H.tag), (H.bytes, hget req H.bytes),
    (H.mstatus, status)]) bytes q 4 .other

/-- MEM_WR_RECEIVE: the first waiting MEM_WR is checked, written, and completed if it asks for it (02 R53, R248). -/
def execMemWrReceive (reads : List Ecc) (s : State) : Host.Outcome State Fault Refusal :=
  .next (match s.takeRequest PT.memWr with
    | none => s
    | some (p, q, s) =>
      let st := s.mstatusOf p.hdr true
      let s := s.onlyIf (st = 0) fun s =>
        s.writeMem (hget p.hdr H.faddr % 2 ^ 48) ((payBytes p).take (hget p.hdr H.bytes)) (hget p.hdr H.poison = 1) reads
      s.onlyIf (hget p.hdr H.cpl = 1) fun s => s.answerMem p.hdr q st [])

/-- MEM_RD_REQ_RECEIVE: the first waiting MEM_RD_REQ is checked and its read taken, which sees every write made so far
(02 R53, 10 R246). [DEDUCED log 34] -/
def execMemRdReqReceive (s : State) : Host.Outcome State Fault Refusal :=
  .next (match s.takeRequest PT.memRdReq with
    | none => s
    | some (p, q, s) =>
      let st := s.mstatusOf p.hdr false
      if st ≠ 0 then s.answerMem p.hdr q st []
      else
        let a := hget p.hdr H.faddr % 2 ^ 48
        let ws := (wordsOf a (hget p.hdr H.bytes)).map fun w => (Memory.word s.mem w, s.memPoison.contains w)
        { s with memReads := s.memReads ++ [{ tag := s.nextMemTag, req := p.hdr, quad := q, words := ws }]
                 nextMemTag := s.nextMemTag + 1 })

/-- The words of a read in flight, decoded; a word that has been written since keeps what was written. -/
def State.decodeRead (s : State) (r : MemRead) (reads : List Ecc) : State × List Flit × Bool :=
  let a := hget r.req H.faddr % 2 ^ 48
  (r.words.zipIdx).foldl (fun (acc : State × List Flit × Bool) (e : WordRead × Nat) =>
    let w := a / 64 + e.2
    let s := acc.1.ev (U.mem (memChannel (64 * w))) 0x01
    let x := s.decodeMemWord w e.1 (reads.getD e.2 .clean)
    let same := Memory.word s.mem w = e.1.1 && s.memPoison.contains w = e.1.2
    let s' := if same then x.1 else { x.1 with mem := s.mem, memPoison := s.memPoison }
    (s', acc.2.1 ++ [x.2.1], acc.2.2 || x.2.2)) (s, [], false)

/-- MEM_READ_COMPLETE: a read finishes and its MEM_RD_RSP is sent, with POISON and POISONED where a word was
uncorrectable (02 R44, R53). [DEDUCED log 34] -/
def execMemReadComplete (tag : Nat) (reads : List Ecc) (s : State) : Host.Outcome State Fault Refusal :=
  .next (match s.memReads.find? fun r => r.tag = tag with
    | none => s
    | some r =>
      let s := { s with memReads := s.memReads.filter fun x => x.tag ≠ tag }
      let d := s.decodeRead r reads
      let bytes := ((d.2.1.flatMap flitBytes).drop (hget r.req H.faddr % 64)).take (hget r.req H.bytes)
      d.1.answerMem r.req r.quad (if d.2.2 then 3 else 0) bytes)

/-- MEM_RD_RSP_RECEIVE: a response to a request of this module goes into the room its request reserved (03 R64); a
response that no request awaits is dropped. -/
def execMemRdRspReceive (s : State) : Host.Outcome State Fault Refusal :=
  .next (match s.takeLocal (isType PT.memRdRsp) with
    | none => s
    | some (p, _, s) =>
      let tag := hget p.hdr H.tag
      if s.ownReqs.contains tag then
        { s with ownReqs := s.ownReqs.filter (· ≠ tag)
                 ownRsps := s.ownRsps ++ [(tag, hget p.hdr H.mstatus, payBytes p)] }
      else s)

/-! ## Start, refresh, scrub (10 R242 to R244) -/

/-- MEMORY_INIT_COMPLETE: every channel has been trained; with none failed the zero-fill is done and memory is READY, with
one failed memory is FAILED (10 R242, R245). [DEDUCED log 7] -/
def State.memoryInit (s : State) (failed : List Nat) : State :=
  if !s.flag F.hubIdStatMainOn || s.rd F.memcStatState ≠ 0 then s
  else
    let bad := ((List.range 64).filter fun c => failed.contains c || (s.rd F.memcStatChFailed (c / 16)).testBit (c % 16))
    let s := { s with mem := [], memPoison := [], memReads := [] }
    let s := s.each (List.range 4) fun s q => s.wr F.memcStatInitBusy 0 q
    if bad = [] then
      s.each (List.range 4) fun s q => (s.wr F.memcStatState 1 q).wr F.memcTopTop 0xEE6B280000 q
    else
      let s := s.each (List.range 4) fun s q => s.wr F.memcStatState 2 q
      let s := s.each bad fun s c => s.wr F.memcStatChFailed (s.rd F.memcStatChFailed (c / 16) ||| 2 ^ (c % 16)) (c / 16)
      s.each bad fun s c => s.raise E.memChannelFailed c

/-- REFRESH: a channel issues one refresh command (10 R243, 04 R101). -/
def execRefresh (ch : Nat) (s : State) : Host.Outcome State Fault Refusal :=
  .next (if ch < 64 && s.flag F.hubIdStatMainOn then
      ({ s with refreshes := s.refreshes.setD ch 0 (s.refreshes.getD ch 0 + 1) }).ev (U.mem ch) 0x06
    else s)

/-- Words of one channel: 16 GB of 64 bytes. -/
def scrubWords : Nat := 250000000

/-- One scrub read of a channel and the advance of its pass (10 R244). -/
def State.scrub (s : State) (ch : Nat) (e : Ecc) : State :=
  let pos := s.scrubPos.getD ch 0
  let w := memAddr ch (64 * pos) / 64
  let s := ((s.ev (U.mem ch) 0x04).decodeMemWord w (Memory.word s.mem w, s.memPoison.contains w) e).1
  { s with scrubPos := s.scrubPos.setD ch 0 ((pos + 1) % scrubWords)
           scrubMark := s.scrubMark.setD ch 0 (s.scrubClock.getD (ch / 16) 0) }

/-- MEMC_SCRUB.PERIOD as it acts, in hours. -/
def State.scrubHours (s : State) (q : Nat) : Nat :=
  let p := s.rd F.memcScrubPeriod q
  if p = 0 then 24 else Nat.min 168 p

/-- For how many TICK a channel's next scrub read has been due: a pass of all words takes PERIOD, 1,440 TICK a word for each hour.
`scrubClock` counts the TICKs in which a quadrant's scrub runs. [DESIGN CHOICE log 146] -/
def State.scrubAge (s : State) (ch : Nat) : Nat :=
  s.scrubClock.getD (ch / 16) 0 - s.scrubMark.getD ch 0 - 1440 * s.scrubHours (ch / 16)

/-- SCRUB_READ: runs while memory is READY and the channel's scrub is enabled. -/
def execScrubRead (ch : Nat) (e : Ecc) (s : State) : Host.Outcome State Fault Refusal :=
  .next (if ch < 64 && s.memReady && s.flag F.memcScrubEn (ch / 16) then s.scrub ch e else s)

end Sys2Proof.Machine
end

