-- ==== Sys2Proof/Machine/Collective.lean ====
section
/-! DEFINITION. Collective instances (05): groups and ranks, bindings and their areas, the checks of a contribution, its
deposit, chunks, the chess clock, faults of chunks, and the end of an instance. -/

namespace Sys2Proof.Machine

/-! ## Groups and ranks (05 R107, R108) -/

/-- N: the rank count at definition. -/
def Group.count (g : Group) : Nat := g.dfn.rowExt * g.dfn.colExt

/-- The torus row (a group number of the rack) of row `i` of the group. -/
def State.rowOf (s : State) (g : Group) (i : Nat) : Nat :=
  (g.r0 + g.dfn.rowOff + i * g.dfn.rowStride) % Nat.max 1 s.plan.g

/-- The member position of column `j` of the group. -/
def State.colOf (s : State) (g : Group) (j : Nat) : Nat :=
  (g.c0 + g.dfn.colOff + j * g.dfn.colStride) % Nat.max 1 s.plan.m

/-- The endpoint of a rank (01 R7; 05 R107). -/
def State.rankEp (s : State) (g : Group) (r : Nat) : Nat :=
  32 * s.rowOf g (r / Nat.max 1 g.dfn.colExt) + s.colOf g (r % Nat.max 1 g.dfn.colExt)

/-- The non-vacant ranks, ascending. -/
def Group.live (g : Group) : List Nat := (List.range g.count).filter fun r => !g.vacant.contains r

/-- The non-vacant ranks whose endpoints lie in torus row `row`. -/
def State.liveIn (s : State) (g : Group) (row : Nat) : List Nat := g.live.filter fun r => s.rankEp g r / 32 = row

/-- The torus rows of a group, vacant ones among them. -/
def State.groupRows (s : State) (g : Group) : List Nat := (List.range g.dfn.rowExt).map (s.rowOf g)

/-- The torus rows of a group with a non-vacant rank. -/
def State.rowsOf (s : State) (g : Group) : List Nat := (s.groupRows g).filter fun x => !(s.liveIn g x).isEmpty

/-- A set of ranks as a bitmap. -/
def rankBits (rs : List Nat) : Nat := rs.foldl (fun b r => b ||| 2 ^ r) 0

/-- The binding of a slot with its group. -/
def State.bindingOf (s : State) (slot : Nat) : Option (Binding × Group) :=
  match (s.slot slot).bound with
  | none => none
  | some b => (s.groups.find b.group).map fun g => (b, g)

/-- The home module of a slot held here. -/
def State.homeOf (s : State) (slot : Nat) : Nat := (s.slot slot).helper.getD s.self

/-- The modules that hold helper slots of a binding homed here: those of all the group's rows (05 R103). [DESIGN CHOICE log 75] -/
def State.helpersOf (s : State) (g : Group) : List Nat :=
  ((s.groupRows g).filter (· ≠ s.group)).map fun r => r + (if s.plane then 16 else 0)

/-- This module holds the slot for another home (05 R103, R116). -/
def State.isHelper (s : State) (slot : Nat) : Bool := (s.slot slot).helper.isSome

/-- The contributors of an instance at this module: ranks, and helper partials as 512 + row (05 R110, R116). -/
def State.contributors (s : State) (slot : Nat) (b : Binding) (g : Group) : List Nat :=
  if b.stages = 1 then g.live
  else if s.isHelper slot then s.liveIn g s.group
  else s.liveIn g s.group ++ ((s.rowsOf g).filter (· ≠ s.group)).map (512 + ·)

/-- The ranks a contributor stands for. -/
def State.ranksOfKey (s : State) (g : Group) (key : Nat) : List Nat := if key < 512 then [key] else s.liveIn g (key - 512)

/-! ## Bindings and areas (05 R104, R105; 09 R227) -/

/-- Whether an operation reduces in the banks or on a core (05 R104). -/
def Binding.reduces (b : Binding) : Bool := b.op ≤ 2

/-- The inbox row of 08 R199: MAX, MIN, COMBINE and custom. -/
def Binding.toInbox (b : Binding) : Bool := (b.reduces && (b.reducer = 1 || b.reducer = 2)) || b.op = 7 || b.op = 15

/-- X of 05 R105. -/
def Binding.x (b : Binding) : Nat := if b.disc = 2 then exactX b.format else 1

/-- Elements in a full chunk (06 R140, R141). -/
def Binding.chunkElems (b : Binding) : Nat := b.chunk / fmtBytes b.format

/-- Records in a full chunk: a record never straddles a chunk (06 R159). -/
def Binding.chunkRecords (b : Binding) : Nat := b.chunk / Nat.max 1 b.record

def ceilDiv (a b : Nat) : Nat := (a + b - 1) / Nat.max 1 b

/-- Chunks of an instance; a join's chunk is chunk 0. -/
def Binding.chunks (b : Binding) : Nat :=
  if b.op = 6 then Nat.max 1 (ceilDiv b.tokensMax b.chunkRecords)
  else if b.op = 7 then Nat.max 1 (ceilDiv b.capacity b.chunkRecords)
  else Nat.max 1 (ceilDiv b.elems b.chunkElems)

/-- Elements of chunk `c` of a vector. -/
def Binding.elemsIn (b : Binding) (c : Nat) : Nat := Nat.min b.chunkElems (b.elems - c * b.chunkElems)

/-- Wire flits of one MX block group (06 R141). -/
def mxGroup (f : Nat) : Nat := if f = 6 then 17 else 25

/-- Element bytes of one MX block. -/
def mxBlock (f : Nat) : Nat := if f = 6 then 16 else 24

/-- Wire flits of `n` elements (06 R140, R141). -/
def wireFlits (f n : Nat) : Nat :=
  if isMx f then
    let blocks := ceilDiv n 32
    blocks / 64 * mxGroup f + (if blocks % 64 = 0 then 0 else 1 + ceilDiv (blocks % 64 * mxBlock f) 64)
  else ceilDiv (n * fmtBytes f) 64

/-- Records that chunk `c` of a source's or destination's share may hold; the last chunk holds the remainder (06 R159). -/
def Binding.recordsIn (b : Binding) (c : Nat) : Nat :=
  Nat.min b.chunkRecords ((if b.op = 6 then b.tokensMax else b.capacity) - c * b.chunkRecords)

/-- Bytes of chunk `c` in the contribution format. -/
def Binding.bytesIn (b : Binding) (c : Nat) : Nat :=
  if b.op = 6 || b.op = 7 then b.recordsIn c * b.record else b.elemsIn c * fmtBytes b.format

/-- Reduction store bytes of one instance. -/
def Binding.resBytes (b : Binding) : Nat := b.inflight * b.chunk * b.x

/-- Staging bytes of one instance, of `n` ranks (05 R105). [DEDUCED log 46] -/
def Binding.stgBytes (b : Binding) (n : Nat) : Nat :=
  if b.op = 6 then n * (if b.disc = 1 then b.tokensMax else b.capacity) * b.record
  else if b.op = 7 then n * b.outRows * b.record
  else if b.retain then b.inflight * b.chunk * n
  else if b.disc = 1 then b.inflight * b.chunk * (n - 1)
  else if b.disc = 0 && b.format ≠ 7 then b.chunk * (n - 1)
  else 0

/-- The rank count whose staging a slot here reserves: all ranks at a home, the own group's at a helper. -/
def State.stgRanks (s : State) (slot : Nat) (g : Group) : Nat :=
  if s.isHelper slot then ((List.range g.count).filter fun r => s.rankEp g r / 32 = s.group).length else g.count

/-- The position of a step's areas (09 R227). -/
def Binding.pos (b : Binding) (step : Nat) : Nat := (step + 65536 - b.step0) % 65536 % Nat.max 1 b.depth

/-- RES_BASE of an instance. -/
def State.resBase (s : State) (slot step : Nat) (b : Binding) : Nat := (s.slot slot).redBase + b.pos step * b.resBytes

/-- STG_BASE of an instance in quadrant bank space, or 0 (08 R188). -/
def State.stgBase (s : State) (slot step : Nat) (b : Binding) (g : Group) : Nat :=
  let n := b.stgBytes (s.stgRanks slot g)
  if n = 0 then 0 else stgOffset + (s.slot slot).stgBase + b.pos step * n

/-- The descriptor hash a slot expects (05 R117). -/
def descHashOf (b : Binding) (gepoch : Nat) : BitVec 32 :=
  crc32c (leBytes 1 (b.disc + 4 * (b.op + 16 * b.reducer)) ++ leBytes 1 b.format ++ leBytes 2 b.group ++ leBytes 2 gepoch
    ++ leBytes 2 b.root ++ leBytes 8 b.elems ++ leBytes 4 (if b.op = 6 || b.op = 7 then b.capacity else 0) ++ leBytes 12 0)

/-! ## Shares (05 R104, R114; 09 R223) -/

/-- How much a contributor's share of a chunk holds: nothing, `n` flits at offsets from `lo` to below `lo + span`, or what
the contributor chooses. -/
inductive Share where
  | empty
  | flits (lo span n : Nat)
  | any
deriving DecidableEq, Repr

/-- The elements of rank `r`'s segment of a vector in chunk `c` (05 R104): the first, from the chunk's start, and the number. -/
def Binding.segElems (b : Binding) (n r c : Nat) : Nat × Nat :=
  let seg := b.elems / Nat.max 1 n
  let lo := Nat.max (r * seg) (c * b.chunkElems)
  let hi := Nat.min ((r + 1) * seg) ((c + 1) * b.chunkElems)
  if lo < hi then (lo - c * b.chunkElems, hi - lo) else (0, 0)

/-- The wire flits of that segment: the first and the number. -/
def Binding.segment (b : Binding) (n r c : Nat) : Nat × Nat :=
  let e := b.segElems n r c
  if e.2 = 0 then (0, 0) else (wireFlits b.format e.1, wireFlits b.format e.2)

/-- A whole chunk of a vector as it travels. -/
def Binding.fullShare (b : Binding) (c : Nat) : Share :=
  let n := wireFlits b.format (b.elemsIn c)
  .flits 0 n n

/-- A join of chunk 0, and nothing in later chunks (05 R104; 09 R223). -/
def joinShare (c : Nat) : Share := if c = 0 then .flits 0 0 0 else .empty

/-- The share of rank `r` in chunk `c`. [DEDUCED log 44] -/
def Binding.rankShare (b : Binding) (n r c : Nat) : Share :=
  if b.op = 5 || (b.op = 4 && r ≠ b.root) then joinShare c
  else if b.op = 6 || b.op = 15 then .any
  else if b.op = 7 then let f := b.recordsIn c * b.record / 64; .flits 0 f f
  else if b.op = 3 then
    let p := b.segment n r c
    if p.2 = 0 then .empty else .flits p.1 p.2 p.2
  else b.fullShare c

/-- The share of the partial of a helper with ranks `rs`: what its ranks gather, a whole chunk, or its accumulators (06 R153;
09 R219, R223). [DEDUCED log 44] -/
def Binding.partialShare (b : Binding) (n : Nat) (rs : List Nat) (c : Nat) : Share :=
  if b.op = 5 || (b.op = 4 && !rs.contains b.root) then joinShare c
  else if b.op = 6 || b.op = 7 || b.op = 15 then .any
  else if b.op = 3 then
    let ps := (rs.map fun r => b.segment n r c).filter fun p => p.2 ≠ 0
    let lo := ps.foldl (fun a p => Nat.min a p.1) (ps.headD (0, 0)).1
    if ps = [] then .empty else .flits lo (ps.foldl (fun a p => Nat.max a (p.1 + p.2)) 0 - lo) (ps.map fun p => p.2).sum
  else if b.disc = 2 then
    let f := ceilDiv (b.elemsIn c * fmtBytes b.format * b.x) 64
    .flits 0 f f
  else b.fullShare c

/-- The share of contributor `key` in chunk `c`. -/
def State.shareOf (s : State) (b : Binding) (g : Group) (key c : Nat) : Share :=
  if 1024 ≤ key then .any
  else if key < 512 then b.rankShare g.count key c
  else b.partialShare g.count (s.ranksOfKey g key) c

/-- Key of a share. -/
def shareKey (c key : Nat) : Nat := 2048 * c + key

/-- Whether a contributor's share of a chunk stands in the stores: deposited whole, or empty. -/
def State.shareDone (s : State) (b : Binding) (g : Group) (i : Instance) (c key : Nat) : Bool :=
  s.shareOf b g key c = .empty || i.complete.contains (shareKey c key)

/-- Whether the home knows a rank's share of a chunk to be complete (05 R114, R116, R120): received whole, empty, or, behind a
helper, in its partial or in the arrival bitmap the helper reported, unless the partial was refused (R110). [DEDUCED log 133] -/
def State.rankIn (s : State) (b : Binding) (g : Group) (i : Instance) (c r : Nat) : Bool :=
  let row := s.rankEp g r / 32
  b.rankShare g.count r c = .empty ||
  (if b.stages = 1 || row = s.group then i.recv.contains (shareKey c r)
   else
     let k := shareKey c (512 + row)
     i.recv.contains k || (!i.refused.contains k && (i.helperBits.getD k 0).testBit r))

/-- The oldest chunk that is not complete for every non-vacant rank (05 R120). -/
def State.oldestOpen (s : State) (b : Binding) (g : Group) (i : Instance) : Nat → Nat → Option Nat
  | _, 0 => none
  | c, n + 1 => if g.live.all (s.rankIn b g i c) then s.oldestOpen b g i (c + 1) n else some c

/-! ## Packets of an instance (02 R52; 05 R133, R135; 08 R200) -/

/-- The collective block of a packet of a slot's step. -/
def State.collHdr (s : State) (slot step : Nat) (b : Binding) (g : Group) (disc ptype : Nat) : Flit :=
  mkHdr [(H.ptype, ptype), (H.tc, 1), (H.slice, g.dfn.slice), (H.group, b.group), (H.gepoch, g.gepoch), (H.slot, slot),
    (H.step, step), (H.format, b.format), (H.disc, disc), (H.op, b.op), (H.reducer, b.reducer),
    (H.descHash, (s.slot slot).hash.toNat)]

/-- Send one packet to a rank. -/
def State.toRank (s : State) (slot : Nat) (g : Group) (r : Nat) (h : Flit) (bytes : List Byte) (o : Origin) : State :=
  s.originate (hsets h [(H.rank, r), (H.dst, s.rankEp g r)]) bytes (slot / 1024) 3 o

/-- Send one packet by row or column multicast to every non-vacant rank: one column cast when the group has one column,
otherwise one row cast for each row (08 R200). Answers how many packets went. -/
def State.toRanks (s : State) (slot : Nat) (g : Group) (rows : List Nat) (h : Flit) (bytes : List Byte) (o : Origin) :
    State × Nat :=
  let h := hsets h [(H.rank, 0x1FF), (H.mcast, 1)]
  let cast (s : State) (fs : List (HF × Nat)) : State :=
    ({ s with nextCast := (s.nextCast + 1) % 65536 }).originate (hsets h ((H.castId, s.nextCast) :: fs)) bytes
      (slot / 1024) 3 o
  if g.dfn.colExt = 1 then
    (if rows = [] then (s, 0)
     else (cast s [(H.dst, s.colOf g 0), (H.caxis, 1), (H.cmask, rankBits rows)], 1))
  else
    (rows.foldl (fun s row =>
      cast s [(H.dst, 32 * row), (H.caxis, 0), (H.cmask, rankBits ((s.liveIn g row).map fun r => s.rankEp g r % 32))]) s,
     rows.length)

/-- The CCODE of a terminal status, and whether its COLL_CTRL carries a bitmap (05 R135). -/
def ccodeOf (status : Nat) : Nat := if status ≤ 1 then 3 else if status = 0x0102 then 4 else 1

def hasBitmap (status : Nat) : Bool :=
  status = 0x0103 || status = 0x0100 || status = 0x0105 || status = 0x0102 || status = 0x0101

/-- A NOTICE to the sender of a contribution that is refused (05 R110): the collective block of the contribution, but CHUNK and
DESC_HASH, which are zero. [DESIGN CHOICE log 144] -/
def State.noticeTo (s : State) (h : Flit) (status : Nat) (newGepoch : Nat) : State :=
  let f := [H.slice, H.group, H.gepoch, H.slot, H.step, H.rank, H.format, H.disc, H.op, H.reducer]
  s.originate (hsets (mkHdr (f.map fun x => (x, hget h x)))
    [(H.ptype, PT.collCtrl), (H.tc, 1), (H.dst, hget h H.src), (H.ccode, 3), (H.status, status), (H.nrank, 0x1FF),
     (H.newGepoch, newGepoch)]) [] (hget h H.slot / 1024) 3 .notice

/-! ## What a helper tells, and the flags of an instance (05 R116; 06 R148) -/

/-- A helper's report to its home; nothing at a home (05 R116). [DESIGN CHOICE log 48] -/
def State.tellHome (s : State) (slot step : Nat) (m : HelperMsg) : State :=
  match (s.slot slot).helper with
  | some home => s.emit (.helper home { module := s.self, slot := slot, step := step, msg := m })
  | none => s

/-- Join flags, and add dropped tokens, to an instance's record (06 R148, R161); a helper tells the home what is new. -/
def State.addFlags (s : State) (slot step : Nat) (f : Flags) (dropped : Nat := 0) : State :=
  match s.inst? slot step with
  | none => s
  | some i =>
    let s := s.putInst slot step { i with flags := i.flags ||| f, dropped := i.dropped + dropped }
    if i.flags ||| f = i.flags && dropped = 0 then s else s.tellHome slot step (.flags f.toNat dropped)

/-! ## Contexts that leave (08 R203) -/

/-- The number of a context. -/
def ctxNum (x : CtxId) : Nat := 4 * x.core + x.ctx

/-- A context is off its instance: its AFLAGS join the record (08 R188), and `f` is what else changes there. -/
def State.leaveInst (s : State) (x : CtxId) (c : PipCtx) (f : Instance → Instance) : State :=
  let s := s.addFlags c.slot c.step (c.aflags.setWidth 16)
  match s.inst? c.slot c.step with
  | none => s
  | some i =>
    s.putInst c.slot c.step (f { i with ctx := if i.ctx = some x then none else i.ctx
                                        recCtx := if i.recCtx = some x then none else i.recCtx })

/-- Free a stopped context once nothing of it is outstanding; its AFLAGS join the instance record (08 R188, R203). -/
def State.freeIfIdle (s : State) (x : CtxId) : State :=
  let c := s.ctx (ctxNum x)
  if c.run = .stopped && c.bankOps = 0 && c.dmas.all (fun d => d.status.isSome) && c.sends = [] then
    (s.putCtx (ctxNum x) {}).leaveInst x c id
  else s

/-- Stop a context: it issues nothing more, and sends not yet drawn are dropped. -/
def State.stopCtx (s : State) (x : CtxId) : State :=
  (s.modCtx (ctxNum x) fun c => if c.run = .free then c else { c with run := .stopped, sends := [] }).freeIfIdle x

/-! ## Ends (05 R126 to R128, R133, R134) -/

/-- INFO of a COLL record (17 R416). -/
def collInfo (step status nrank gepoch : Nat) : Nat := step + 2 ^ 16 * status + 2 ^ 32 * nrank + 2 ^ 48 * gepoch

/-- The record of an instance's end by a status other than COMPLETE (05 R136; 17 R424). -/
def State.recordEnd (s : State) (slot step status nrank gepoch chunk : Nat) : State :=
  if status = 0x0104 then s.raise E.instanceFaulted slot (collInfo step status nrank gepoch) chunk s.lastRseq
  else if 1 < status then s.raise E.instanceAbort slot (collInfo step status nrank gepoch) chunk
  else s

/-- Release the buffer cells of a contribution that has been deposited, or is not to be (07 R167). -/
def State.freeDeposit (s : State) (slot : Nat) (d : Deposit) : State :=
  s.releaseAll (16 * corePort (slot / 1024) 3 + d.chg.acct % 16) d.chg

/-- Release the cells of every contribution that an instance holds waiting. -/
def State.freeWaiting (s : State) (slot : Nat) (i : Instance) : State := i.waiting.foldl (fun s d => s.freeDeposit slot d) s

/-- Commit a terminal status: the first one stands, and a later cause is only recorded (05 R134). At a helper the cause is
reported to the home, which decides (05 R116). [DEDUCED log 29] -/
def State.endInst (s : State) (slot step status nrank bitmap chunk : Nat) : State :=
  match s.inst? slot step with
  | none => s
  | some i =>
    if i.status.isSome then s.recordEnd slot step status nrank i.gepoch chunk
    else
      match (s.slot slot).helper with
      | some _ => s.tellHome slot step (.failed status nrank bitmap chunk)
      | none =>
        let s := s.freeWaiting slot i
        let s := s.putInst slot step { i with state := .ending, status := some status, nrank := nrank, bitmap := bitmap,
                                              chunkField := chunk, waiting := [], descs := [] }
        let s := s.recordEnd slot step status nrank i.gepoch chunk
        let s := match i.ctx with | some x => s.stopCtx x | none => s
        match i.recCtx with | some x => s.stopCtx x | none => s

/-- End every live instance that a test accepts. -/
def State.endInsts (s : State) (t : Nat → Nat → Instance → Bool) (status nrank bitmap : Nat) : State :=
  (s.insts.filter fun e => t (e.1 / 65536) (e.1 % 65536) e.2).foldl
    (fun s e => s.endInst (e.1 / 65536) (e.1 % 65536) status nrank bitmap 0) s

/-- The live instances of a quadrant's slots end with a status. -/
def State.endQuad (s : State) (q status : Nat) : State :=
  s.endInsts (fun slot _ _ => slot / 1024 = q) status 0x1FF 0

/-- Announce a chunk fault to every rank (05 R126, R135). -/
def State.sendChunkFault (s : State) (slot step status c : Nat) : State :=
  match s.bindingOf slot, s.inst? slot step with
  | some (b, g), some i =>
    let h := hsets (s.collHdr slot step b g i.disc PT.collCtrl)
      [(H.ccode, 2), (H.status, status), (H.nrank, 0x1FF), (H.chunk, c)]
    ((s.toRanks slot g (s.rowsOf g) h [] .notice).1).bump 20
  | _, _ => s

/-- Whether an instance's contributions are retained: RETAIN with an executed discipline other than NATIVE (05 R127). -/
def Instance.retained (i : Instance) (b : Binding) : Bool := b.retain && i.disc ≠ 0

/-- A chunk that cannot be recomputed: the instance ends FAULTED after the CHUNK_FAULT (05 R128). -/
def State.chunkLost (s : State) (slot step c : Nat) : State :=
  (s.sendChunkFault slot step 0x0104 c).endInst slot step 0x0104 0x1FF 0 c

/-- A chunk found unusable (05 R126 to R128; 08 R202; 09 R221). `own` says that the program reported it and recomputes the
chunk itself; otherwise a recovery context does, where a library program that reduces, gathers or broadcasts runs the instance.
A second fault of a chunk ends the instance. [DEDUCED log 136] -/
def State.chunkFault (s : State) (slot step c : Nat) (own : Bool) : State :=
  match s.bindingOf slot, s.inst? slot step with
  | some (b, _), some i =>
    if i.status.isSome then s
    else if i.retained b && !i.faulted.contains c && (own || (1 ≤ b.program && b.program ≤ 6)) then
      (s.putInst slot step { i with faulted := c :: i.faulted, recovered := true,
                                    recovering := if own then i.recovering else i.recovering ++ [c],
                                    resent := i.resent.filter (· ≠ c) }).sendChunkFault slot step 0x0206 c
    else s.chunkLost slot step c
  | _, _ => s

/-- Commit COMPLETE once the program has ended and every result packet is answered (05 R133; 08 R202). -/
def State.tryComplete (s : State) (slot step : Nat) : State :=
  match s.inst? slot step with
  | none => s
  | some i =>
    if i.status.isNone && i.programDone && i.results = [] && i.recovering = [] && i.recCtx.isNone then
      (if s.isHelper slot then s else s.endInst slot step (if i.recovered then 1 else 0) 0x1FF 0 0)
    else s

/-! ## Chunks that open (07 R172; 08 R202; 09 R220) -/

/-- Open a chunk: its area is cleared, zeros for EXACT. -/
def State.openChunk (s : State) (slot step : Nat) (b : Binding) (c : Nat) : State :=
  match s.inst? slot step with
  | none => s
  | some i =>
    if i.opened.contains c || b.chunks ≤ c then s
    else
      let q := slot / 1024
      let a := s.resBase slot step b + c % Nat.max 1 i.flight * b.chunk * b.x
      let s := s.putInst slot step { i with opened := c :: i.opened }
      if i.disc = 2 then s.bankZeroArea q a (b.chunk * b.x) else s.bankClearArea q a (b.chunk * b.x)

/-- The sends of an instance's contexts that are not yet drawn. -/
def State.queued (s : State) (i : Instance) : List Send :=
  ([i.ctx, i.recCtx].filterMap id).flatMap fun x => (s.ctx (ctxNum x)).sends

/-- CHUNK of an MSEND descriptor (08 R200). -/
def dChunk (d : BitVec 64) : Nat := bitsOf d 38 24

/-- Whether every result packet of a chunk has been sent and answered, and no recovery of it is due (09 R220). -/
def State.settled (s : State) (i : Instance) (c : Nat) : Bool :=
  i.results.getD c 0 = 0 && !i.recovering.contains c && (s.queued i).all fun d => dChunk d.desc ≠ c

/-- Open what may open: chunk c + F once chunk c is reported done, and with RETAIN once its results are answered. [DEDUCED log 41] -/
def State.openNext (s : State) (slot step : Nat) : State :=
  match s.bindingOf slot, s.inst? slot step with
  | some (b, _), some i =>
    if i.status.isSome then s
    else
      (i.done.filter fun c => !(i.retained b) || s.settled i c).foldl
        (fun s c => s.openChunk slot step b (c + i.flight)) s
  | _, _ => s

/-! ## Start (05 R111; 06 R155) -/

/-- Whether an instance that starts now runs imposed ORDERED (06 R154). [DEDUCED log 47] -/
def State.imposes (s : State) (slot : Nat) (b : Binding) (g : Group) : Bool :=
  b.disc = 0 && ((b.format ≤ 6 && b.reduces && b.reducer = 0) || b.op = 8) &&
  (0 < (s.slot slot).imposedLeft || (s.slot slot).verify || g.dfn.slice = 0)

/-- Start the instance of a step: chess clock armed, its first chunks open. -/
def State.startInst (s : State) (slot step : Nat) (b : Binding) (g : Group) : State :=
  let imp := s.imposes slot b g
  let f := if imp then 1 else b.inflight
  let q := slot / 1024
  let s := s.modSlot slot fun x => { x with imposedLeft := x.imposedLeft - 1 }
  let s := s.putInst slot step { gepoch := g.gepoch, disc := if imp then 1 else b.disc, imposed := imp, flight := f,
                                 arrived := s.tick, order := s.instCount, flags := if imp then Flags.imposed else 0 }
  let s := ({ s with instCount := s.instCount + 1 }).ev (U.dealer q) 0x05
  let s := s.onlyIf imp fun s => (s.ev (U.dealer q) 0x06).bump 21
  s.each (List.range f) fun s c => s.openChunk slot step b c

/-! ## The checks (05 R110, R112, R118) -/

/-- The status that the checks before the descriptor give a contribution; none when all pass. -/
def State.contribStatus (s : State) (h : Flit) : Option Nat :=
  let slot := hget h H.slot
  let step := hget h H.step
  match s.bindingOf slot with
  | none => some 0x0203
  | some (b, g) =>
    let r := hget h H.rank
    let st := s.slot slot
    if st.closing then some 0x0203 else
    let member : Bool :=
      if hget h H.smod = 1 then
        !s.isHelper slot && b.stages = 2 && hget h H.src / 16 = (if s.plane then 1 else 0) && hget h H.src ≠ s.self &&
        (s.rowsOf g).contains (hget h H.src % 16)
      else
        r < g.count && !g.vacant.contains r && s.rankEp g r = hget h H.src &&
        (b.stages = 1 || s.rankEp g r / 32 = s.group)
    let ahead := (step + 65536 - st.base) % 65536
    if hget h H.gepoch ≠ g.gepoch then some 0x0200
    else if !member then some 0x0204
    else if g.suspended then some 0x0205
    else match st.ended.find? fun e => e.step = step with
      | some e => some e.status
      | none => if ahead < b.depth then none else if ahead < 32768 then some 0x0202 else some 0x0201

/-- Whether a contribution's descriptor matches (05 R118). A helper partial carries the discipline executed, `disc`. -/
def State.descOk (s : State) (h : Flit) (slot : Nat) (b : Binding) (disc : Nat) : Bool :=
  hget h H.descHash = (s.slot slot).hash.toNat && hget h H.op = b.op && hget h H.reducer = b.reducer &&
  hget h H.format = b.format && (hget h H.disc = b.disc || (hget h H.smod = 1 && hget h H.disc = disc))

/-- A join that is no share: the first contribution only, of a rank or of a helper whose ranks have no share of chunk 0 (05
R104; 09 R223). -/
def State.isJoin (s : State) (h : Flit) (b : Binding) (g : Group) (key : Nat) : Bool :=
  hget h H.len = 0 && hget h H.chunk = 0 && hget h H.foff = 0 && hget h H.last = 1 && key < 1024 &&
  (match s.shareOf b g key 0 with
   | .empty => true
   | .flits _ _ n => n ≠ 0 && key < 512
   | .any => key < 512)

/-- The key of a send in the record of 08 R214: its chunk, target and KIND. -/
def sentKey (chunk target kind : Nat) : Nat := (chunk * 1024 + target) * 4 + kind

/-- Whether a chunk has been released to a rank: it is reported done, or its last result packet to the rank has gone (05 R113). -/
def Instance.released (i : Instance) (c r : Nat) : Bool :=
  i.done.contains c || i.lastSent.contains (sentKey c r 0) || i.lastSent.contains (sentKey c 0x1FF 1)

/-- Whether a chunk is open, or was released to the ranks of a contributor and waits only for the CHUNK_DONE of the chunk
INFLIGHT before it (05 R113; 06 R155; 08 R202). [DEDUCED log 41] -/
def Instance.takes (i : Instance) (b : Binding) (ranks : List Nat) (c : Nat) : Bool :=
  c < b.chunks && !i.done.contains c &&
  (i.opened.contains c ||
    (i.flight ≤ c && i.opened.contains (c - i.flight) && ranks.all (i.released (c - i.flight))))

/-- Whether a contribution breaks 05 R113 or R114: a chunk that is not open, a complete share, or flits outside it. [DEDUCED log 42] -/
def State.breaksShare (s : State) (key : Nat) (b : Binding) (g : Group) (i : Instance) (p : Packet) : Bool :=
  let h := p.hdr
  let c := hget h H.chunk
  let n := p.pay.length
  let got := i.shares.getD (shareKey c key) 0 + n
  !i.takes b (s.ranksOfKey g key) c || i.recv.contains (shareKey c key) || (match s.shareOf b g key c with
    | .empty => true
    | .flits lo span m => (n ≠ 0 && (hget h H.foff < lo || lo + span < hget h H.foff + n)) || m < got ||
        (hget h H.last = 1 && got ≠ m)
    | .any => false)

/-- The shares of a contributor that its LAST in chunk `c` completes, `got` flits having come: that of the chunk, and in a
DISPATCH step those of all later chunks where the chunk is not full, for the source's list then ends there. [DEDUCED log 44] -/
def Binding.completes (b : Binding) (key c got : Nat) : List Nat :=
  if b.op = 6 && got < b.recordsIn c * b.record / 64 then (List.range (b.chunks - c)).map fun j => shareKey (c + j) key
  else [shareKey c key]

/-- Take a contribution that passed every check into its share; a helper tells the home of a share that has arrived (05 R116).
 [DEDUCED log 41] -/
def State.takeContrib (s : State) (slot step key : Nat) (b : Binding) (i : Instance) (l : LocalPkt) : State :=
  let p := l.pkt
  let h := p.hdr
  let c := hget h H.chunk
  let k := shareKey c key
  let got := i.shares.getD k 0 + p.pay.length
  let last := hget h H.last = 1
  let s := s.putInst slot step { i with
      shares := i.shares.setD k 0 got
      recv := if last then b.completes key c got ++ i.recv else i.recv
      waiting := i.waiting ++ [{ key := key, chunk := c, foff := hget h H.foff, last := last,
                                 poison := hget h H.poison = 1, drank := hget h H.drank, flits := p.pay, chg := l.chg }] }
  if last && key < 512 then s.tellHome slot step (.arrived c [key]) else s

/-- A join: the rank has been heard. In a DISPATCH step it has no token at all, and its shares are complete. [DEDUCED log 44] -/
def State.takeJoin (s : State) (slot step key : Nat) (b : Binding) (i : Instance) : State :=
  if b.op = 6 && !i.recv.contains (shareKey 0 key) then
    let ks := b.completes key 0 0
    s.putInst slot step { i with recv := ks ++ i.recv, complete := ks ++ i.complete }
  else s

/-- Missing ranks contribute before their fence, a helper's as it reports: their verification is cancelled (05 R121). [DEDUCED log 133] -/
def Instance.heard (i : Instance) (ranks : List Nat) : Instance :=
  if i.state = .verifying && i.missing.any ranks.contains then
    let left := i.missing.filter fun r => !ranks.contains r
    { i with missing := left, state := if left ≠ [] then .verifying else if i.ctx.isSome then .running else .open_ }
  else i

/-- COMBINE whose DISPATCH step did not end COMPLETE, or whose pair table is gone (05 R132; 07 R183). -/
def State.pairBad (s : State) (b : Binding) (step : Nat) : Bool :=
  b.op = 7 && !((s.slot b.pair).ended.any fun e => e.step = step && e.status ≤ 1 && e.pair)

/-- Ranks of an instance are heard of; the conductor learns of missing ranks that are so no longer (05 R121). -/
def State.hear (s : State) (slot step : Nat) (ranks : List Nat) : State :=
  match s.inst? slot step with
  | none => s
  | some i =>
    let j := i.heard ranks
    let s := s.putInst slot step j
    if j.missing = i.missing then s else s.report (.missingRanks s.self slot step j.missing)

/-- The discipline that an instance executes, or would if it started now (06 R155). -/
def State.discOf (s : State) (slot step : Nat) (b : Binding) (g : Group) : Nat :=
  match s.inst? slot step with
  | some i => i.disc
  | none => if s.imposes slot b g then 1 else b.disc

/-- A helper partial that fails its checks at the home: no NOTICE; the ranks it carried count as missing until a good partial
comes (05 R110). -/
def State.refusePartial (s : State) (h : Flit) (slot step status : Nat) : State :=
  let s := (s.raise E.contribRefused slot (collInfo step status (hget h H.rank) (hget h H.gepoch)) (hget h H.chunk)).bump 19
  match s.inst? slot step with
  | none => s
  | some i =>
    let k := shareKey (hget h H.chunk) (512 + hget h H.src % 16)
    s.putInst slot step { i with refused := if i.refused.contains k then i.refused else k :: i.refused }

/-- A contribution whose earlier checks passed: the descriptor is checked, the instance starts if it must, and the
contribution is taken. What breaks a rule after a status is committed is only recorded. Only a contribution that is to be deposited
keeps its buffer cells. [DEDUCED log 42, 43] -/
def State.acceptContrib (s : State) (slot step key : Nat) (b : Binding) (g : Group) (l : LocalPkt) : State :=
  let p := l.pkt
  let fresh := (s.inst? slot step).isNone
  let good := s.descOk p.hdr slot b (s.discOf slot step b g)
  if !good && hget p.hdr H.smod = 1 then (s.freeLocal l).refusePartial p.hdr slot step 0x0100
  else
    let s := if fresh then s.startInst slot step b g else s
    match s.inst? slot step with
    | none => s.freeLocal l
    | some i =>
      let offend := rankBits (s.ranksOfKey g key)
      if !good then (s.freeLocal l).endInst slot step 0x0100 key (2 ^ key) (hget p.hdr H.chunk)
      else if fresh && s.pairBad b step then (s.freeLocal l).endInst slot step 0x0105 0x1FF offend 0
      else if !s.isJoin p.hdr b g key && s.breaksShare key b g i p then
        (s.freeLocal l).endInst slot step 0x0105 0x1FF offend (hget p.hdr H.chunk)
      else if i.status.isSome then s.freeLocal l
      else
        let s := (s.putInst slot step (if i.first.contains key then i else { i with first := key :: i.first })).hear slot step
          (s.ranksOfKey g key)
        match s.inst? slot step with
        | some i =>
          if s.isJoin p.hdr b g key then (s.freeLocal l).takeJoin slot step key b i else s.takeContrib slot step key b i l
        | none => s.freeLocal l

/-- A message of a peer program: a COLL_CONTRIB from a module that is no helper of the binding, to a slot whose program
declares a PEER channel (08 R200, R208). [DEDUCED log 49] -/
def State.peerChan (s : State) (h : Flit) : Option Nat :=
  match s.bindingOf (hget h H.slot) with
  | none => none
  | some (b, _) =>
    if hget h H.smod = 0 || b.stages = 2 then none
    else
      match s.programs.find? fun p => p.cls = b.program with
      | none => none
      | some p => (p.channels.findIdx? fun ch => bitsOf (ch.setWidth 64) 0 2 = 1 && bitsOf (ch.setWidth 64) 2 2 = 2)

/-- COLL_CONTRIB_RECEIVE: the first waiting COLL_CONTRIB is checked and taken for its deposit, or refused with a NOTICE
(05 R110). A refused helper partial gets no NOTICE. -/
def State.doCollContribReceive (s : State) : State :=
  (match s.takeWhole fun l => isType PT.contrib l.pkt.hdr with
    | none => s
    | some (l, s) =>
      let p := l.pkt
      let h := p.hdr
      let slot := hget h H.slot
      let step := hget h H.step
      if (s.peerChan h).isSome then
        match s.inst? slot step with
        | some i =>
          let d : Deposit := { key := 1024, chunk := hget h H.chunk, foff := hget h H.foff, last := hget h H.last = 1,
                               poison := hget h H.poison = 1, drank := 0, flits := p.pay, chg := l.chg }
          s.putInst slot step { i with waiting := i.waiting ++ [d] }
        | none => s.freeLocal l
      else
        match s.contribStatus h with
        | some st =>
          let s := s.freeLocal l
          let g := ((s.bindingOf slot).map fun x => x.2.gepoch).getD 0
          if hget h H.smod = 1 then s.refusePartial h slot step st
          else
            let s := (s.raise E.contribRefused slot (collInfo step st (hget h H.rank) (hget h H.gepoch)) (hget h H.chunk)).bump 19
            s.noticeTo h st (if st = 0x0200 then g else 0)
        | none =>
          match s.bindingOf slot with
          | none => s.freeLocal l
          | some (b, g) =>
            s.acceptContrib slot step (if hget h H.smod = 1 then 512 + hget h H.src % 16 else hget h H.rank) b g l)

/-! ## Deposits (07 R167; 08 R199; 09 R222, R225) -/

/-- The arithmetic mode of a binding. -/
def Binding.mode (b : Binding) : ArithMode := { e5Inf := b.e5m2Inf, sat := b.intSat }

/-- How many non-vacant ranks this module's rows count below a contributor: k of 08 R199. -/
def State.rowIndex (s : State) (slot : Nat) (g : Group) (key : Nat) : Nat :=
  let r := (s.ranksOfKey g key).headD 0
  ((if s.isHelper slot then s.liveIn g s.group else g.live).filter (· < r)).length

/-- Wire flits of an MX share as words of block cells: the byte offset of each word in the chunk's area, and the word. The
scale flit of a group comes first; a group that the packet does not begin has a free scale (06 R141, R143). [DESIGN CHOICE log 45] -/
def mxWords (f foff : Nat) (flits : List Flit) (free : Flit) : List (Nat × Flit) :=
  let gs := mxGroup f
  let bs := mxBlock f
  let lastG := (foff + flits.length - 1) / gs
  ((List.range (lastG + 1 - foff / gs)).map (foff / gs + ·)).flatMap fun gi =>
    let at_ (t : Nat) : Option Flit := if gi * gs + t < foff then none else flits[gi * gs + t - foff]?
    let scale := (at_ 0).getD free
    let area := ((List.range (gs - 1)).map fun t => at_ (t + 1))
    let have_ := (area.takeWhile Option.isSome).length * 64
    let bytes := area.flatMap fun x => flitBytes (x.getD 0)
    let cell (k : Nat) : List Byte :=
      (bytes.drop (bs * k)).take bs ++ leBytes (24 - bs) 0 ++ [(flitBytes scale).getD k 0] ++ leBytes 7 0
    ((List.range 32).filter fun w => 2 * w * bs + bs ≤ have_).map fun w =>
      (2048 * gi + 64 * w, flitOf (cell (2 * w) ++ (if (2 * w + 2) * bs ≤ have_ then cell (2 * w + 1) else leBytes 32 0)))

/-- The words a packet brings, each with its byte offset in a chunk's row. -/
def State.shareWords (s : State) (b : Binding) (raw : Bool) (d : Deposit) : List (Nat × Flit) :=
  if isMx b.format && !raw then mxWords b.format d.foff d.flits (Config.freeFlit s.fresh)
  else (d.flits.zipIdx).map fun e => (64 * (d.foff + e.2), e.1)

/-- Apply one deposit step to each word, joining the flags. A poisoned packet poisons the words it would have reached. [DEDUCED log 40] -/
def State.depositEach (s : State) (q base : Nat) (ws : List (Nat × Flit)) (poison : Bool) (reads : List Ecc)
    (f : State → Nat → Flit → Ecc → State × Flags) : State × Flags :=
  (ws.zipIdx).foldl (fun (r : State × Flags) (e : (Nat × Flit) × Nat) =>
    if poison then (r.1.bankSet q (base + e.1.1) 0 true, r.2)
    else
      let x := f r.1 (base + e.1.1) e.1.2 (reads.getD e.2 .clean)
      (x.1, r.2 ||| x.2)) (s, 0)

/-- A bank read whose ECC outcome is the next of those that a command brings. -/
def State.readNext (s : State) (q a : Nat) (reads : List Ecc) : State × BankWord × List Ecc :=
  let r := s.bankReadWord q a (reads.headD .clean)
  (r.1, r.2, reads.tail)

/-- What BLD answers (08 R195). -/
def BankWord.value (w : BankWord) : Flit := if w.poison || w.empty then 0 else w.data

/-! ### The pair table of a DISPATCH step (09 R225) -/

/-- Where the slot map entry of destination `d`, slot `k` lies, and its ORIGIN and WEIGHT. -/
def mapAddr (b : Binding) (res d k : Nat) : Nat := res + 4 * (d * b.capacity + k)

def originAddr (b : Binding) (n res d k : Nat) : Nat := res + 4 * n * b.capacity + 8 * (d * b.capacity + k)

/-- Bytes of one source's placed/dropped bitmap. -/
def Binding.mapBytes (b : Binding) : Nat := 64 * ceilDiv b.tokensMax 512

/-- Where the bitmap of source `r` lies; that of source N is the pad record. -/
def bitmapAddr (b : Binding) (n res r : Nat) : Nat := res + (12 * n * b.capacity + 63) / 64 * 64 + r * b.mapBytes

/-- Give token `t` of source `r` the next free slot of its destination, with the map entry, ORIGIN, WEIGHT and bitmap bit,
or drop it (05 R130; 09 R225). `head` holds ORIGIN and WEIGHT. Answers the slot. -/
def State.placeToken (s : State) (slot step : Nat) (b : Binding) (g : Group) (r t dst : Nat) (head : Flit) : State × Option Nat :=
  match s.inst? slot step with
  | none => (s, none)
  | some i =>
    let q := slot / 1024
    let res := s.resBase slot step b
    let k := i.slotsUsed.getD dst 0
    if b.tokensMax ≤ t || g.count ≤ dst || g.vacant.contains dst || b.capacity ≤ k then (s.addFlags slot step 0 1, none)
    else
      let s := s.putInst slot step { i with slotsUsed := i.slotsUsed.setD dst 0 (k + 1) }
      let poke (s : State) (a bits v : Nat) : State := s.bankPoke q (a / 64 * 64) (8 * (a % 64)) bits v
      let s := poke s (mapAddr b res dst k) 32 (r + 512 + 65536 * t)
      let s := poke s (originAddr b g.count res dst k) 64 (head.toNat % 2 ^ 64)
      (s.bankPoke q (bitmapAddr b g.count res r + t / 512 * 64) (t % 512) 1 1, some k)

/-- The records of a deposit: each with its index in the share of its contributor (06 R159). -/
def Binding.records (b : Binding) (d : Deposit) : List (Nat × List Flit) :=
  let rf := Nat.max 1 (b.record / 64)
  (List.range (d.flits.length / rf)).map fun j =>
    (d.chunk * b.chunkRecords + d.foff / rf + j, (d.flits.drop (j * rf)).take rf)

/-- WRITE the words of a record. -/
def State.writeRecord (s : State) (q a : Nat) (ws : List Flit) (poison : Bool) : State :=
  ws.zipIdx.foldl (fun s x => s.bankWrite q (a + 64 * x.2) (if poison then 0 else x.1) poison) s

/-- A DISPATCH deposit. NATIVE places each token as it comes; ORDERED keeps the record in its source's staging, with the
destination that its packet named, for the program (05 R130; 08 R199; 09 R225). [DESIGN CHOICE log 137] -/
def State.depositTokens (s : State) (slot step : Nat) (b : Binding) (g : Group) (d : Deposit) : State :=
  let q := slot / 1024
  let stg := s.stgBase slot step b g
  (b.records d).foldl (fun s x =>
    if b.disc = 0 then
      let r := s.placeToken slot step b g d.key x.1 d.drank (x.2.headD 0)
      match r.2 with
      | some k => r.1.writeRecord q (stg + (d.drank * b.capacity + k) * b.record) x.2 d.poison
      | none => r.1
    else if b.tokensMax ≤ x.1 then s.addFlags slot step 0 1
    else
      let s := s.writeRecord q (stg + (d.key * b.tokensMax + x.1) * b.record) x.2 d.poison
      match s.inst? slot step with
      | some i => s.putInst slot step { i with dranks := i.dranks.setD (2 ^ 17 * d.key + x.1) 0 (d.drank + 1) }
      | none => s) s

/-! ### COMBINE (05 R132; 06 R162; 09 R228) -/

/-- One word of an output row: row + WEIGHT × record, in the lanes that hold elements. -/
def combineWord (b : Binding) (weight : Nat) (idx : Nat) (row x : Flit) : Flit × Flags :=
  let w := fmtBytes b.format
  (List.range (lanesOf b.format)).foldl (fun (r : Flit × Flags) i =>
    let at_ := 64 * idx + w * i
    if at_ < 8 || 8 + b.elems * w ≤ at_ then r
    else
      let z := lane1 b.format {} (fmaNum (laneNum b.format row i) (decodeFp .fp32 weight) (laneNum b.format x i))
      (laneSet b.format r.1 i z.1, r.2 ||| z.2)) (row, 0)

/-- Apply the record of destination `d`, slot `k` to the output row that its map entry names. A record of a pad slot is
ignored, and one whose ORIGIN lies beyond OUT_ROWS feeds no row. [DESIGN CHOICE log 137] -/
def State.combineRecord (s : State) (slot step : Nat) (b : Binding) (g : Group) (d k : Nat) (rec_ : List Flit) (poison : Bool)
    (reads : List Ecc) : State × List Ecc :=
  match (s.slot b.pair).bound with
  | none => (s, reads)
  | some pb =>
    let q := slot / 1024
    let res := s.resBase b.pair step pb
    let stg := s.stgBase slot step b g
    let ea := mapAddr pb res d k
    let oa := originAddr pb g.count res d k
    let e := s.readNext q (ea / 64 * 64) reads
    let o := e.1.readNext q (oa / 64 * 64) e.2.2
    let entry := e.2.1.value.toNat / 2 ^ (8 * (ea % 64)) % 2 ^ 32
    let head := o.2.1.value.toNat / 2 ^ (8 * (oa % 64)) % 2 ^ 64
    let row := head % 2 ^ 32
    if e.2.1.poison || o.2.1.poison then (o.1.chunkLost slot step 0, o.2.2)
    else if pb.capacity ≤ k || !entry.testBit 9 || b.outRows ≤ row then (o.1, o.2.2)
    else
      let base := stg + (entry % 512 * b.outRows + row) * b.record
      rec_.zipIdx.foldl (fun (r : State × List Ecc) x =>
        let a := base + 64 * x.2
        let w := r.1.readNext q a r.2
        if w.2.1.poison || poison then (w.1.bankWrite q a 0 true, w.2.2)
        else
          let y := combineWord b (head / 2 ^ 32) x.2 w.2.1.value x.1
          ((w.1.bankWrite q a y.1).addFlags slot step y.2, w.2.2)) (o.1, o.2.2)

/-- A COMBINE deposit through the inbox of the library program: applied as it comes in NATIVE, parked in ORDERED. The output
rows start at zero. -/
def State.depositRows (s : State) (slot step : Nat) (b : Binding) (g : Group) (d : Deposit) (reads : List Ecc) : State :=
  let q := slot / 1024
  let s := match s.inst? slot step with
    | some i => if i.formed = [] then
        (s.bankClearArea q (s.stgBase slot step b g) (g.count * b.outRows * b.record)).putInst slot step { i with formed := [0] } else s
    | none => s
  ((b.records d).foldl (fun (r : State × List Ecc) x =>
    if b.disc = 0 then r.1.combineRecord slot step b g d.key x.1 x.2 d.poison r.2
    else (r.1.writeRecord q (r.1.resBase slot step b + (d.key * b.capacity + x.1) * b.record) x.2 d.poison, r.2)) (s, reads)).1

/-! ### MAX and MIN (09 R221) -/

/-- The identity of MAX or MIN in a format (09 R221). -/
def identityCode (f : Nat) (isMin : Bool) : Nat :=
  if isMin then [0x7F800000, 0x7F80, 0x7C00, 0x7E, 0x7C, 0, 0, 0x7FFFFFFF].getD f 0
  else [0xFF800000, 0xFF80, 0xFC00, 0xFE, 0xFC, 0, 0, 0x80000000].getD f 0

def identityWord (f : Nat) (isMin : Bool) : Flit := wordOfLanes f ((List.range (lanesOf f)).map fun _ => identityCode f isMin)

/-- The identity in every word of a chunk's area. -/
def State.fillIdentity (s : State) (q base : Nat) (b : Binding) : State :=
  s.each (List.range (b.chunk / 64)) fun s k => s.bankWrite q (base + 64 * k) (identityWord b.format (b.reducer = 2))

/-- BATOM MAXMIN of a word. -/
def State.bankMaxMin (s : State) (q a : Nat) (e : Ecc) (b : Binding) (x : Flit) : State × Flags :=
  let r := s.bankRmw q a e (maxMinWord b.format (b.reducer = 2) 0) (maxMinWord b.format (b.reducer = 2)) x
  (r.1, r.2.2)

/-! ### Every operation -/

/-- The IN channels of a program that a contributor's packets reach (08 R198, R208; 09 R216): number and INBOX. [DEDUCED log 49] -/
def State.chansOf (s : State) (b : Binding) (key : Nat) : List (Nat × Bool) :=
  let src := if key < 512 then 0 else if key < 1024 then 1 else 2
  match s.programs.find? fun p => p.cls = b.program with
  | none => []
  | some p =>
    let l := (p.channels.zipIdx.filter fun e =>
      bitsOf (e.1.setWidth 64) 0 2 = 1 && bitsOf (e.1.setWidth 64) 2 2 = src).map fun e => (e.2, (e.1.setWidth 64).getLsbD 4)
    if src = 2 then l.take 1 else l

/-- Whether a contributor's payload goes to the inbox of a loaded program's context: an INBOX channel, an operation of that row
of 08 R199, or a message of a peer. -/
def State.usesInbox (s : State) (b : Binding) (key : Nat) : Bool :=
  11 < b.program && (b.toInbox || 1024 ≤ key || (s.chansOf b key).any fun c => c.2)

/-- An arrival descriptor (08 R199). -/
def arrivalDesc (rank : Nat) (last : Bool) (foff len chunk pos : Nat) : BitVec 64 :=
  BitVec.ofNat 64 (rank + (if last then 512 else 0) + 2 ^ 10 * foff + 2 ^ 24 * len + 2 ^ 32 * chunk + 2 ^ 56 * pos)

/-- Put a flit in a context's inbox at a position (08 R199). -/
def PipCtx.putInbox (c : PipCtx) (pos : Nat) (f : Flit) : PipCtx :=
  { c with mem := (List.range 8).foldl (fun m k =>
      m.setD ((0xC000 + 64 * (pos % 256)) / 8 + k) 0 (BitVec.extractLsb' (64 * k) 64 f)) c.mem }

/-- Whether a deposit can be made now: its chunk is open, and an inbox has room in a placed context. -/
def State.canDeposit (s : State) (b : Binding) (i : Instance) (d : Deposit) : Bool :=
  (1024 ≤ d.key || i.opened.contains d.chunk) &&
  (if b.program ≤ 11 then (b.program ≠ 4 && b.program ≠ 9) || i.ctx.isSome
   else !s.usesInbox b d.key || (match i.ctx with
     | some x => (s.ctx (ctxNum x)).inboxUsed + d.flits.length ≤ 256
     | none => false))

/-- The payload of a deposit reaches its place in the stores (08 R199); answers the flags its arithmetic raised. [DEDUCED log 46] -/
def State.depositPayload (s : State) (slot step : Nat) (b : Binding) (g : Group) (i : Instance) (d : Deposit)
    (reads : List Ecc) : State × Flags :=
  let q := slot / 1024
  let pos := d.chunk % Nat.max 1 i.flight
  let w := b.chunk
  let res := s.resBase slot step b + pos * w * (if i.disc = 2 then b.x else 1)
  let stg := s.stgBase slot step b g
  let k := s.rowIndex slot g d.key
  let ws := s.shareWords b (b.disc = 2 && 512 ≤ d.key) d
  let add (f : Nat) (s : State) (base : Nat) : State × Flags := s.depositEach q base ws d.poison reads fun s a x e =>
    let r := s.bankAdd q a e f b.mode x
    (r.1, r.2.2)
  let write (s : State) (base : Nat) : State × Flags := s.depositEach q base ws d.poison [] fun s a x _ =>
    (s.bankWrite q a x, 0)
  let exact (s : State) : State × Flags :=
    if 512 ≤ d.key then s.depositEach q res ws d.poison reads fun s a x e =>
      let r := s.bankXacc q a e (accWidth b.format) x
      (r.1, r.2.2)
    else
      (ws.zipIdx).foldl (fun (r : State × Flags) (e : (Nat × Flit) × Nat) =>
        let y := expandWord b.format e.1.2
        let z := r.1.depositEach q (res + e.1.1 * b.x) ((y.1.zipIdx).map fun v => (64 * v.2, v.1)) d.poison
          (reads.drop (e.2 * b.x)) fun s a x ec => let u := s.bankXacc q a ec (accWidth b.format) x; (u.1, u.2.2)
        (z.1, r.2 ||| y.2 ||| z.2)) (s, 0)
  let maxMin (s : State) : State × Flags :=
    let s := if i.formed.contains d.chunk then s
      else (s.fillIdentity q res b).putInst slot step { i with formed := d.chunk :: i.formed }
    s.depositEach q res ws d.poison reads fun s a x e => s.bankMaxMin q a e b x
  -- the row that RETAIN = 1 keeps of a rank or of a partial in FORMAT (05 R127)
  let kept (s : State) : State :=
    if i.retained b && !(b.disc = 2 && 512 ≤ d.key) then (write s (stg + (pos * s.stgRanks slot g + k) * w)).1 else s
  if b.op = 6 then (s.depositTokens slot step b g d, 0)
  else if b.op = 7 then (s.depositRows slot step b g d reads, 0)
  else if b.op = 5 then (s, 0)
  else if b.op = 3 || b.op = 4 then add b.format (kept s) res
  else if b.toInbox then maxMin (kept s)
  else if i.disc = 2 then exact (kept s)
  else if i.retained b then (kept s, 0)
  else if i.disc = 1 then
    (if k = 0 then write s res else write s (stg + (pos * (s.stgRanks slot g - 1) + (k - 1)) * w))
  else add b.format s res

/-- Tell a program's channels of a deposit: each packet on an INBOX channel, a share's last packet on the others (08 R199). `top`
is where the payload stands in the inbox; the first channel of a packet in the inbox frees it. -/
def State.tellChannels (s : State) (slot step : Nat) (b : Binding) (d : Deposit) (top : Nat) : State :=
  let rank := if d.key < 512 then d.key else 0
  let chs := s.chansOf b d.key
  let inbox := s.usesInbox b d.key
  let own := (chs.find? fun c => c.2).orElse fun _ => chs.head?
  chs.foldl (fun s c =>
    match s.inst? slot step with
    | none => s
    | some i =>
      let mine : Bool := inbox && own = some c
      let i := { i with msgs := if d.key < 1024 then i.msgs else i.msgs.setD c.1 0 (i.msgs.getD c.1 0 + 1) }
      if c.2 then s.putInst slot step { i with descs := i.descs ++ [
        { chan := c.1, desc := arrivalDesc rank d.last d.foff d.flits.length d.chunk top, free := if mine then d.flits.length else 0 }] }
      else if d.last then s.putInst slot step { i with descs := i.descs ++ [
        { chan := c.1, desc := arrivalDesc rank true 0 0 d.chunk 0, free := if !mine then 0 else if d.key < 1024 then i.shares.getD (shareKey d.chunk d.key) 0 else d.flits.length }] }
      else s.putInst slot step i) s

/-- Deposit one waiting contribution, then tell the program's channels (07 R167; 08 R199). -/
def State.depositOne (s : State) (slot step : Nat) (b : Binding) (g : Group) (i : Instance) (n : Nat) (d : Deposit)
    (reads : List Ecc) : State :=
  let i := { i with waiting := i.waiting.eraseIdx n }
  let s := (s.freeDeposit slot d).putInst slot step i
  let s := match s.usesInbox b d.key, i.ctx with
    | true, some x =>
      let pc := s.ctx (ctxNum x)
      let top := pc.inboxTop
      let pc := (d.flits.zipIdx).foldl (fun (p : PipCtx) (e : Flit × Nat) => p.putInbox (top + e.2) e.1) pc
      (s.putCtx (ctxNum x) { pc with inboxTop := (top + d.flits.length) % 256, inboxUsed := pc.inboxUsed + d.flits.length }).tellChannels
        slot step b d top
    | _, _ =>
      let r := s.depositPayload slot step b g i d reads
      let s := if isMx b.format then r.1.draw.2 else r.1
      (s.addFlags slot step r.2).tellChannels slot step b d 0
  match s.inst? slot step with
  | some i => if d.last && d.key < 1024 then
      s.putInst slot step { i with complete := b.completes d.key d.chunk (i.shares.getD (shareKey d.chunk d.key) 0) ++ i.complete } else s
  | none => s

/-- CONTRIB_DEPOSIT: the oldest contribution of a slot that can be deposited reaches the bank arithmetic, or the inbox. No
deposit is made while the quadrant is re-carved (07 R183). -/
def State.doContribDeposit (s : State) (slot : Nat) (reads : List Ecc) : State :=
  (match s.bindingOf slot with
    | none => s
    | some (b, g) =>
      if s.recarve.contains (slot / 1024) then s
      else
        match s.insts.find? fun e => e.1 / 65536 = slot && e.2.status.isNone && e.2.waiting.any (s.canDeposit b e.2) with
        | none => s
        | some (k, i) =>
          match i.waiting.findIdx? (s.canDeposit b i) with
          | none => s
          | some n =>
            match i.waiting[n]? with
            | none => s
            | some d => s.depositOne slot (k % 65536) b g i n d reads)

/-! ## The chess clock (05 R120, R121; 08 R203) -/

/-- The non-vacant ranks whose share of a chunk is not complete (05 R120). [DEDUCED log 133] -/
def State.missingRanks (s : State) (b : Binding) (g : Group) (i : Instance) (c : Nat) : List Nat :=
  g.live.filter fun r => !s.rankIn b g i c r

/-- CHESS_CLOCK_EXPIRE: CLOCK passed without an advance. The home alone keeps the clock. [DEDUCED log 29] -/
def State.doChessClockExpire (s : State) (slot step : Nat) : State :=
  (match s.bindingOf slot, s.inst? slot step with
    | some (b, g), some i =>
      if i.status.isSome || i.programDone || i.state = .verifying || s.isHelper slot then s
      else
        match s.oldestOpen b g i 0 b.chunks with
        | none => s.endInst slot step 0x0106 0x1FF 0 0
        | some c =>
          let miss := s.missingRanks b g i c
          if g.live.length ≤ s.plan.abortMax then
            s.endInst slot step 0x0101 (miss.headD 0x1FF) (rankBits miss) c
          else
            (s.putInst slot step { i with state := .verifying, missing := miss }).report
              (.missingRanks s.self slot step miss)
    | _, _ => s)

/-- VERDICT_TIMEOUT: no verdict came within VERIFY_LIMIT + 1 ms (05 R121). -/
def State.doVerdictTimeout (s : State) (slot step : Nat) : State :=
  (match s.inst? slot step with
    | some i =>
      if i.state = .verifying then s.endInst slot step 0x0101 (i.missing.headD 0x1FF) (rankBits i.missing) 0 else s
    | none => s)

/-! ## The terminal notice (05 R116, R133, R135) -/

/-- Send the terminal COLL_CTRL of a status to the rows of a group. The one for a helper module, no rank's, carries RANK 0x1FF.
 [DESIGN CHOICE log 144] -/
def State.sendTerminal (s : State) (slot step : Nat) (b : Binding) (g : Group) (i : Instance) (rows : List Nat) : State × Nat :=
  let st := i.status.getD 0
  let h := hsets (s.collHdr slot step b g i.disc PT.collCtrl)
    [(H.ccode, ccodeOf st), (H.status, st), (H.nrank, i.nrank), (H.chunk, if st = 0x0104 then i.chunkField else 0),
     (H.newGepoch, if st = 0x0102 then g.gepoch else 0)]
  let bytes := if hasBitmap st then leBytes 64 i.bitmap else []
  let r := s.toRanks slot g rows h bytes (.terminal slot step)
  if b.stages = 1 || s.isHelper slot then r
  else
    -- through the helpers to their members (05 R116)
    ((s.rowsOf g).filter (· ≠ s.group)).foldl (fun (x : State × Nat) row =>
      (x.1.originate (hsets h [(H.rank, 0x1FF), (H.dst, row + (if s.plane then 16 else 0)), (H.dmod, 1)]) bytes
        (slot / 1024) 3 (.terminal slot step), x.2 + 1)) r

/-- TERMINAL_SEND: once every result packet is answered, the home sends the terminal COLL_CTRL to every rank. -/
def State.doTerminalSend (s : State) (slot step : Nat) : State :=
  (match s.bindingOf slot, s.inst? slot step with
    | some (b, g), some i =>
      if i.status.isNone || i.terminalSent || i.results ≠ [] then s
      else
        let rows := if b.stages = 2 then (s.rowsOf g).filter (· = s.group) else s.rowsOf g
        let r := (s.putInst slot step { i with terminalSent := true }).sendTerminal slot step b g i rows
        match r.1.inst? slot step with
        | some i => r.1.putInst slot step { i with terminalOut := i.terminalOut + r.2 }
        | none => r.1
    | _, _ => s)

/-- Whether a step lies in a slot's window and has not ended (05 R112). -/
def State.inWindow (s : State) (slot step : Nat) (b : Binding) : Bool :=
  (step + 65536 - (s.slot slot).base) % 65536 < b.depth && !(s.slot slot).ended.any fun e => e.step = step

/-- The home takes a helper's report of an instance: its first news of a step starts the instance, for a contribution of the step
was accepted there (05 R111, R116). Reports of a binding are taken where bindings are made. [DESIGN CHOICE log 48] -/
def State.takeReport (s : State) (r : HelperReport) : State :=
  match s.bindingOf r.slot with
  | none => s
  | some (b, g) =>
    if b.stages = 1 || s.isHelper r.slot || !(s.helpersOf g).contains r.module || !s.inWindow r.slot r.step b then s
    else
      let s := if (s.inst? r.slot r.step).isNone && !(s.slot r.slot).closing then s.startInst r.slot r.step b g else s
      match s.inst? r.slot r.step, r.msg with
      | none, _ => s
      | some _, .failed status nrank bitmap chunk => s.endInst r.slot r.step status nrank bitmap chunk
      | some i, .arrived c ranks =>
        let k := shareKey c (512 + r.module % 16)
        if i.status.isSome then s
        else
          (s.putInst r.slot r.step { i with helperBits := i.helperBits.setD k 0 (i.helperBits.getD k 0 ||| rankBits ranks) }).hear
            r.slot r.step ranks
      | some _, .flags bits dropped => s.addFlags r.slot r.step (BitVec.ofNat 16 bits) dropped
      | some _, _ => s

/-- COLL_CTRL_RECEIVE: a helper takes the home's terminal COLL_CTRL and sends it on to its members; its instance ends with
that status (05 R116). With ALL_STEPS it ends every live step of the slot (R125). Other COLL_CTRLs to a module are
dropped. -/
def State.takeTerminal (s : State) : State :=
  (match s.takeLocal (isType PT.collCtrl) with
    | none => s
    | some (p, _, s) =>
      let h := p.hdr
      let slot := hget h H.slot
      match s.bindingOf slot, (s.slot slot).helper with
      | some (b, g), some home =>
        if hget h H.src ≠ home || hget h H.smod = 0 then s
        else
          let steps := if hget h H.allSteps = 1 then (s.insts.filter fun e => e.1 / 65536 = slot).map (·.1 % 65536)
            else [hget h H.step]
          steps.foldl (fun s step =>
            let s := if (s.inst? slot step).isNone then s.startInst slot step b g else s
            match s.inst? slot step with
            | none => s
            | some i =>
              if i.status.isSome then s
              else
                let s := s.freeWaiting slot i
                let i := { i with state := .ending, status := some (hget h H.status), nrank := hget h H.nrank,
                                  bitmap := ofLe (payBytes p), chunkField := hget h H.chunk, waiting := [], descs := [],
                                  terminalSent := true }
                let s := s.putInst slot step i
                let s := match i.ctx with | some x => s.stopCtx x | none => s
                let r := s.sendTerminal slot step b g i [s.group]
                match r.1.inst? slot step with
                | some i => r.1.putInst slot step { i with terminalOut := i.terminalOut + r.2 }
                | none => r.1) s
      | _, _ => s)


/-! ## ENDED (05 R112, R119; 18 R437) -/

/-- The always-running counter of a terminal status (18 R437). -/
def endCounter (status : Nat) : Option Nat :=
  ([(0x0108, 8), (0x0103, 9), (0x0100, 10), (0x0105, 11), (0x0106, 12), (0x0104, 13), (0x0107, 14), (0x0102, 15),
    (0x0101, 16), (0x0001, 17), (0x0000, 18)].find? fun e => e.1 = status).map (·.2)

/-- Advance BASE over the steps that have ended. -/
def advanceBase (ended : List Ended) (base : Nat) : Nat → Nat
  | 0 => base
  | n + 1 => if ended.any fun e => e.step = base then advanceBase ended ((base + 1) % 65536) n else base

/-- INSTANCE_ENDED: the terminal notice is answered; the record is kept, the reservations are free for the next step, BASE
advances. -/
def State.instanceEnded (s : State) (slot step : Nat) : State :=
  match s.bindingOf slot, s.inst? slot step with
  | some (b, _), some i =>
    match i.status with
    | none => s
    | some st =>
      if !i.terminalSent || i.terminalOut ≠ 0 || i.ctx.isSome || i.recCtx.isSome then s
      else
        let e : Ended := { step := step, status := st, flags := i.flags, dropped := i.dropped, user := i.user,
                           resume := i.resume, resumeW := i.resumeW }
        let s := s.dropInst slot step
        let s := s.modSlot slot fun x =>
          let ended := (e :: x.ended.filter fun o => o.step ≠ step).take 64
          { x with ended := ended, base := advanceBase ended x.base b.depth }
        let s := if s.isHelper slot then s else match endCounter st with | some k => s.bump k | none => s
        if (s.slot slot).closing && !(s.insts.any fun e => e.1 / 65536 = slot) then s.putSlot slot {} else s
  | _, _ => s

end Sys2Proof.Machine
end

