-- ==== Sys2Proof/Machine/Streams.lean ====
section
/-! DEFINITION. Weight streams (10 R253 to R262): entries, their packets, gates, epochs and ends; what the module's units
learn of the packets they sent; and the retirement and re-carve of reduction store banks (07 R180 to R183). -/

namespace Sys2Proof.Machine

/-! ## Runs and their ends (10 R260) -/

/-- The key of a stream's run in the active epoch. -/
def State.runKey (s : State) (id : Nat) : Nat := 1024 * s.sepoch + id

/-- Whether a run has not ended. -/
def StreamRun.live (r : StreamRun) : Bool := r.status = 1 || r.status = 2

/-- End a run whose packets are all answered; an old epoch's run is kept no longer. [DEDUCED log 57] -/
def State.finishRun (s : State) (k code : Nat) : State :=
  let r := s.run k
  let s := if k / 1024 = s.sepoch then s.putRun k { r with status := code, ending := none } else s.putRun k {}
  if r.irq then s.irq (40 + k % 1024 / 256) else s

/-- A cause ends a run at a packet boundary; of two causes the higher code governs. [DEDUCED log 57] -/
def State.endRun (s : State) (k code : Nat) : State :=
  let r := s.run k
  if !r.live then s
  else
    let c := Nat.max code (r.ending.getD 0)
    if r.open_ = 0 then s.finishRun k c else s.putRun k { r with ending := some c }

/-- End every live run that a test accepts. -/
def State.endRuns (s : State) (t : Nat → Bool) (code : Nat) : State :=
  (s.runs.filter fun e => t e.1).foldl (fun s e => s.endRun e.1 code) s

/-- Merge the LEAF_STATUS of one packet into a stream's: the worst per leaf. -/
def mergeLeaf (a b : Nat) : Nat :=
  (List.range 32).foldl (fun l i => l + Nat.max (a / 4 ^ i % 4) (b / 4 ^ i % 4) * 4 ^ i) 0

/-! ## What an entry sends (10 R254, R257) -/

/-- Elements of one packet. -/
def StreamEntry.perPacket (e : StreamEntry) : Nat :=
  if e.dfmt = 6 then 6144 else if e.dfmt = 5 then 4096 else 4096 / fmtBytes e.dfmt

/-- Packets of a stream. -/
def StreamEntry.packets (e : StreamEntry) : Nat := ceilDiv e.elems e.perPacket

/-- Payload bytes of a full packet in the delivered layout. -/
def StreamEntry.packetBytes (e : StreamEntry) : Nat :=
  if e.dfmt = 6 then 3 * 1088 else if e.dfmt = 5 then 2 * 1600 else 4096

/-- Bytes of a stored MX group (10 R249). -/
def mxStored (f : Nat) : Nat := 64 * mxGroup f

/-- The fabric address of the first byte of element `i`, not MX. -/
def StreamEntry.elemAddr (e : StreamEntry) (i : Nat) : Nat :=
  let w := fmtBytes e.sfmt
  if e.blkElems = 0 then e.src + i * w
  else e.src + i / e.blkElems * e.blkStride + 64 + i % e.blkElems * w

/-- The byte ranges that elements `lo` to `lo + n − 1` occupy. -/
def StreamEntry.ranges (e : StreamEntry) (lo n : Nat) : List (Nat × Nat) :=
  if isMx e.sfmt then
    -- each group's scale flit and the element bytes of the blocks
    let blocks := (List.range (ceilDiv (lo + n) 32 - lo / 32)).map (lo / 32 + ·)
    let base (b : Nat) : Nat := e.src + b / 64 * mxStored e.sfmt
    (blocks.map fun b => (base b + b % 64, 1)) ++ blocks.map fun b => (base b + 64 + b % 64 * mxBlock e.sfmt, mxBlock e.sfmt)
  else (List.range n).map fun i => (e.elemAddr (lo + i), fmtBytes e.sfmt)

/-- The fabric words a set of ranges touches, ascending. -/
def wordsOfRanges (rs : List (Nat × Nat)) : List Nat :=
  ((rs.flatMap fun r => wordsOf r.1 r.2).foldl (fun (t : List (Nat × Nat)) w => Tab.insert t w 0) []).map fun e => e.1

/-- A byte of the words read. -/
def byteIn (ws : List (Nat × Flit)) (a : Nat) : Byte := (flitBytes ((Tab.find ws (a / 64)).getD 0)).getD (a % 64) 0

/-- The code of element `i` and its exact value, from the words read. -/
def StreamEntry.elem (e : StreamEntry) (ws : List (Nat × Flit)) (i : Nat) : Nat × Num :=
  if isMx e.sfmt then
    let b := i / 32
    let base := e.src + b / 64 * mxStored e.sfmt
    let bits := (mxFmt e.sfmt).bits
    let cell := ofLe ((List.range (mxBlock e.sfmt)).map fun k => byteIn ws (base + 64 + b % 64 * mxBlock e.sfmt + k))
    let code := cell / 2 ^ (bits * (i % 32)) % 2 ^ bits
    (code, (blockNums e.sfmt ((byteIn ws (base + b % 64)).toNat, [code])).headD .nan)
  else
    let a := e.elemAddr i
    let code := ofLe ((List.range (fmtBytes e.sfmt)).map fun k => byteIn ws (a + k))
    (code, match fmtOf e.sfmt with
      | some ft => decodeFp ft code
      | none => let v := sint32 code; .fin (v < 0) v.natAbs 0)

/-- One delivered MX block. -/
def StreamEntry.block (e : StreamEntry) (ws : List (Nat × Flit)) (lo : Nat) : Block32 :=
  let xs := (List.range 32).map fun k => e.elem ws (lo + k)
  if e.sfmt = e.dfmt then
    let sc := (byteIn ws (e.src + lo / 32 / 64 * mxStored e.sfmt + lo / 32 % 64)).toNat
    (copyBlock (sc, xs.map fun x => x.1)).1
  else (quantize e.dfmt (xs.map fun x => x.2)).1

/-- The element bytes of a block. -/
def blockBytes (f : Nat) (x : Block32) : List Byte :=
  leBytes (mxBlock f) ((x.2.zipIdx).foldl (fun n p => n + p.1 * 2 ^ ((mxFmt f).bits * p.2)) 0)

/-- The payload of elements `lo` to `lo + n − 1` in the delivery format (06 R140, R141). -/
def StreamEntry.payload (e : StreamEntry) (ws : List (Nat × Flit)) (lo n : Nat) : List Byte :=
  if isMx e.dfmt then
    let groups := ceilDiv n 2048
    (List.range groups).flatMap fun gi =>
      let m := Nat.min 2048 (n - 2048 * gi)
      let bs := (List.range (ceilDiv m 32)).map fun k => e.block ws (lo + 2048 * gi + 32 * k)
      let body := bs.flatMap (blockBytes e.dfmt)
      (bs.map fun b => (BitVec.ofNat 8 b.1)) ++ leBytes (64 - bs.length) 0 ++ body
  else
    (List.range n).flatMap fun i =>
      let x := e.elem ws (lo + i)
      leBytes (fmtBytes e.dfmt) (convertLane e.sfmt e.dfmt x.2 x.1).1

/-! ## Gates (10 R262) -/

/-- The state blocks that elements `lo` to `lo + n − 1` lie in. -/
def State.gateBlocks (s : State) (e : StreamEntry) (lo n : Nat) : List Nat :=
  let state := (((s.bindingOf e.gateSlot).map fun p => p.1.params.headD 0).getD 0) % 2 ^ 48
  let first := (e.src - state) / Nat.max 1 e.blkStride
  let bl := Nat.max 1 e.blkElems
  (List.range ((lo + n - 1) / bl - lo / bl + 1)).map fun k => first + lo / bl + k

/-- Whether a stream may read elements now. -/
def State.gateOpen (s : State) (e : StreamEntry) (lo n : Nat) : Bool :=
  !e.gateEn || (s.slot e.gateSlot).ended.any (fun x => x.step = e.gateStep && x.status ≤ 1) ||
  ((s.inst? e.gateSlot e.gateStep).any fun i =>
    (i.status.all fun st => st ≤ 1) && (s.gateBlocks e lo n).all i.done.contains)

/-- Whether a stream's gate has failed: its slot is bound anew or not at all, or the gate step ended badly. -/
def State.gateFailed (s : State) (e : StreamEntry) : Bool :=
  e.gateEn && ((s.slot e.gateSlot).bound.isNone || (s.slot e.gateSlot).bindIdx ≠ e.gateBind ||
    (s.slot e.gateSlot).ended.any (fun x => x.step = e.gateStep && 1 < x.status) ||
    ((s.inst? e.gateSlot e.gateStep).any fun i => i.status.any fun st => 1 < st))

/-- End the started streams whose gates have failed. -/
def State.gateEnds (s : State) : State :=
  s.endRuns (fun k => k / 1024 = s.sepoch && (s.run k).started && (s.run k).live && s.gateFailed (s.streamOf (k % 1024))) 6

/-! ## Epochs (10 R256) -/

/-- STREAM_EPOCH_SWITCH: T_S has come. -/
def execStreamEpochSwitch (s : State) : Host.Outcome State Fault Refusal :=
  .next (match s.streamSwitch with
    | none => s
    | some t =>
      if s.rackTime < t then s
      else
        let s := s.endRuns (fun _ => true) 5
        let s := { s with sepoch := (s.sepoch + 1) % 65536, streams := s.streamShadow, streamSwitch := none
                          runs := s.runs.filter fun e => e.2.live }
        let s := s.each [0, 1, 2, 3] fun s q =>
          ((s.wr F.strmEpochSepoch s.sepoch q).wr F.strmEpochPending 0 q).wr F.strmEpochTsLow 0 q
        (s.streams.filter fun e => e.2.valid).foldl (fun s e =>
          s.putRun (s.runKey e.1) { status := 1, late := e.2.start < t, irq := e.2.irq }) s)

/-! ## Starting and sending (10 R258, R259) -/

/-- The started runs of a quadrant in the active epoch. -/
def State.startedIn (s : State) (q : Nat) : List Nat :=
  (s.runs.filter fun e => e.1 / 1024 = s.sepoch && e.1 % 1024 / 256 = q && e.2.started && e.2.live).map fun e => e.1 % 1024

/-- Whether waiting stream `a` is started before `b`. -/
def State.startsBefore (s : State) (a b : Nat) : Bool :=
  let x := (s.streamOf a).start
  let y := (s.streamOf b).start
  x < y || (x = y && a < b)

/-- STREAM_START: the engine takes a waiting stream that is due, in order of START, while fewer than 16 are started. -/
def execStreamStart (id : Nat) (s : State) : Host.Outcome State Fault Refusal :=
  .next (let q := id / 256
    let r := s.run (s.runKey id)
    let due (k : Nat) : Bool :=
      let x := s.run (s.runKey k)
      x.status = 1 && !x.started && x.ending.isNone && (s.streamOf k).start ≤ s.rackTime
    let waiting := ((s.streams.map fun e => e.1).filter fun k => k / 256 = q && due k)
    if 1024 ≤ id || s.phys.fatal || !due id || 16 ≤ (s.startedIn q).length || waiting.any (fun k => s.startsBefore k id) then s
    else
      let s := s.onlyIf r.late (·.ev (U.strm q) 0x06)
      s.putRun (s.runKey id) { r with started := true })

/-- The flow of a stream's packets. -/
def State.streamFlow (s : State) (e : StreamEntry) : FlowId :=
  { src := s.self, dst := e.dst, smod := true, dmod := false, tc := 2, plane := s.plane
    cast := if !e.cast then 0 else if e.caxis then 2 else 1 }

/-- Whether a stream still has packets that it may send: started, live, not held for a drain. -/
def State.streamRuns (s : State) (id : Nat) : Bool :=
  let r := s.run (s.runKey id)
  let e := s.streamOf id
  r.live && r.started && r.ending.isNone && r.sent < e.packets && s.memReady && !s.phys.fatal && !s.streamHeld.contains e.slice

/-- The elements of a stream's next packet: the first, and how many. -/
def State.streamNext (s : State) (id : Nat) : Nat × Nat :=
  let e := s.streamOf id
  let lo := (s.run (s.runKey id)).sent * e.perPacket
  (lo, Nat.min e.perPacket (e.elems - lo))

/-- Whether RATE lets a stream send now. -/
def State.rateOpen (s : State) (id : Nat) : Bool :=
  let e := s.streamOf id
  e.rate = 0 || e.start * e.rate + (s.run (s.runKey id)).bytes ≤ s.rackTime * e.rate

/-- Whether a stream has room for its next packet: in its flow, and in the streaming half of the staging area. -/
def State.streamRoom (s : State) (id : Nat) : Bool :=
  let e := s.streamOf id
  s.flowRoom (flowKey (s.streamFlow e)) (id / 256) 65 && s.stagingUsed (id / 256) true + e.packetBytes ≤ stagingHalf

/-- Whether it is a stream's turn: of the started streams of its quadrant that could send now it is the first after the one that
sent last (10 R258). -/
def State.streamTurnOf (s : State) (id : Nat) : Bool :=
  let q := id / 256
  let after (k : Nat) : Nat := (k + 1024 - (s.streamTurn.getD q 0 + 1)) % 1024
  !(s.startedIn q).any fun k => k ≠ id && after k < after id && s.streamRuns k &&
    s.gateOpen (s.streamOf k) (s.streamNext k).1 (s.streamNext k).2 && s.rateOpen k && s.streamRoom k

/-- The payload of a packet as it is drawn from the staging store, and whether a word of it read uncorrectable (07 R175). [DEDUCED log 57] -/
def State.stagedPayload (s : State) (q : Nat) (bytes : List Byte) (stg : List CellRead) : State × List Byte × Bool :=
  let fl := (List.range (ceilDiv bytes.length 64)).map fun i => flitOf ((bytes.drop (64 * i)).take 64)
  let r := (fl.zipIdx).foldl (fun (x : State × List Flit × Bool) e =>
    let c := stg.getD e.2 {}
    let y := x.1.eccRead q (256 + c.bank % 128) (c.row % 8192) 1 c.ecc
    (y.1, x.2.1 ++ [match c.ecc with | .mis g => g | _ => e.1], x.2.2 || y.2)) (s, [], false)
  (r.1, (r.2.1.flatMap flitBytes).take bytes.length, r.2.2)

/-- STREAM_PACKET_SEND: the next packet of a started stream is read, converted and sent once its turn, its gate and its rate allow.
`reads` are the ECC outcomes of the source words, ascending, `stg` those of the payload's words as they are drawn from staging. -/
def State.streamSend (s : State) (id : Nat) (reads : List Ecc) (stg : List CellRead) : State :=
  let k := s.runKey id
  let r := s.run k
  let e := s.streamOf id
  let q := id / 256
  let lo := (s.streamNext id).1
  let n := (s.streamNext id).2
  if !s.streamRuns id then s
  else if s.gateFailed e then s.endRun k 6
  else if !s.gateOpen e lo n then s.ev (U.strm q) 0x04
  else if !s.rateOpen id || !s.streamTurnOf id then s
  else if !s.streamRoom id then s.ev (U.strm q) 0x05
  else
    let words := wordsOfRanges (e.ranges lo n)
    let d := s.readWords words reads
    let ws := words.zip d.2.1
    let y := d.1.stagedPayload q (e.payload ws lo n) stg
    let bytes := y.2.1
    let bad := d.2.2 || y.2.2
    let s := ((y.1.ev (U.strm q) 0x01).ev (U.strm q) 0x02 (ceilDiv bytes.length 64)).ev (U.strm q) 0x03 words.length
    let s := { s with streamTurn := s.streamTurn.setD q 0 id }
    let h := mkHdr [(H.ptype, PT.stream), (H.tc, 2), (H.poison, if bad then 1 else 0), (H.dst, e.dst), (H.slice, e.slice),
      (H.streamId, id), (H.sepoch, s.sepoch), (H.sseq, r.sent), (H.doff, (e.doff + r.sent * e.packetBytes) % 2 ^ 64),
      (H.dformat, e.dfmt)]
    let s := s.putRun k { r with status := 2, sent := r.sent + 1, open_ := r.open_ + 1, bytes := r.bytes + bytes.length
                                 poisonSent := r.poisonSent || bad }
    if e.cast then
      ({ s with nextCast := (s.nextCast + 1) % 65536 }).originate (hsets h [(H.mcast, 1), (H.castId, s.nextCast),
        (H.caxis, if e.caxis then 1 else 0), (H.cmask, e.cmask)]) bytes q 4 (.stream k)
    else s.originate h bytes q 4 (.stream k)

/-- One packet of a stream has been answered. -/
def State.streamAnswered (s : State) (k : Nat) (ok : Bool) (leaf : Nat) : State :=
  let r := s.run k
  if r.open_ = 0 then s
  else
    let failed : Bool := !ok || (List.range 32).any fun i => leaf / 4 ^ i % 4 = 3
    let r := { r with open_ := r.open_ - 1, acked := if ok then r.acked + 1 else r.acked, leaf := mergeLeaf r.leaf leaf
                      anyFailed := r.anyFailed || failed }
    let s := s.putRun k r
    if !r.live || r.open_ ≠ 0 then s
    else match r.ending with
      | some c => s.finishRun k c
      | none =>
        if r.sent = (s.streamOf (k % 1024)).packets then s.finishRun k (if r.anyFailed then 4 else 3) else s

/-! ## What units learn of their packets (05 R127, R133; 09 R220) -/

/-- A result packet of a chunk has been answered; a stored copy found uncorrectable is a chunk fault (05 R126). -/
def State.resultAnswered (s : State) (slot step c : Nat) (ue : Bool) : State :=
  match s.inst? slot step with
  | none => s
  | some i =>
    let s := s.putInst slot step { i with results := i.results.setD c 0 (i.results.getD c 0 - 1) }
    let s := if ue then s.chunkFault slot step c false else s
    let s := match s.inst? slot step with
      | none => s
      | some i =>
        if i.resent.contains c && i.done.contains c && s.settled i c then
          (s.putInst slot step { i with resent := i.resent.filter (· ≠ c) }).raise E.chunkRecovered slot
            (collInfo step 1 0x1FF i.gepoch) c
        else s
    (s.openNext slot step).tryComplete slot step

/-- One event of a unit's packet. -/
def State.unitEvent (s : State) (e : UnitEvent) : State :=
  match e.origin with
  | .result slot step c => s.resultAnswered slot step c e.ue
  | .terminal slot step =>
    match s.inst? slot step with
    | some i => s.putInst slot step { i with terminalOut := i.terminalOut - 1 }
    | none => s
  | .stream k => s.streamAnswered k e.ok e.leaf
  | _ => s

/-- Take the events in the order they came; events that follow from them are taken as well, to a bound. -/
def State.unitTurns (s : State) : Nat → State
  | 0 => s
  | n + 1 =>
    if s.unitEvents = [] then s
    else (s.unitEvents.foldl State.unitEvent { s with unitEvents := [] }).unitTurns n

/-! ## Retirement and re-carve (07 R179 to R183) -/

/-- Unbind a slot and tell the conductor (07 R183). [DEDUCED log 100] -/
def State.dropBinding (s : State) (slot : Nat) : State :=
  match (s.slot slot).bound with
  | none => s
  | some b =>
    if (s.slot slot).closing then s
    else
      let live := s.insts.any fun e => e.1 / 65536 = slot
      let s := if (s.slot slot).helper.isSome then s else s.report (.binding s.self slot b.group false)
      if live then s.modSlot slot fun x => { x with closing := true } else s.putSlot slot {}

/-- Ask helpers to unbind a slot. -/
def State.unbindAt (s : State) (slot : Nat) (ms : List Nat) : State :=
  ms.foldl (fun s m => s.emit (.peerRequest m
    { opcode := 0x0404, verMaj := 1, verMin := 0, token := 0, payload := leBytes 2 slot })) s

/-- A reservation of a bound slot is lost (07 R182, R183): a helper tells the home, and a home unbinds its helpers with itself.
 [DEDUCED log 100] -/
def State.loseReservation (s : State) (slot : Nat) : State :=
  let s := match s.bindingOf slot, (s.slot slot).helper with
    | some _, some _ => s.tellHome slot 0 .lost
    | some (b, g), none => if b.stages = 2 then s.unbindAt slot (s.helpersOf g) else s
    | none, _ => s
  s.dropBinding slot

/-- The home takes a helper's word that its reservation is lost: the instances end FAULTED, and the home and every helper unbind
(07 R182, R183). -/
def State.takeLost (s : State) (r : HelperReport) : State :=
  match s.bindingOf r.slot with
  | none => s
  | some (b, g) =>
    if b.stages = 1 || s.isHelper r.slot || !(s.helpersOf g).contains r.module then s
    else (s.endInsts (fun slot _ _ => slot = r.slot) 0x0104 0x1FF 0).loseReservation r.slot

/-- The bound slots of a quadrant, in order of binding. -/
def State.boundIn (s : State) (q : Nat) : List Nat :=
  let l := s.slots.filter fun e => e.1 / 1024 = q && e.2.bound.isSome
  (l.foldl (fun (t : Tab Nat) e => t.insert e.2.bindIdx e.1) []).map fun e => e.2

/-- Whether the newest detection at a bank was injected: its repair is then not committed (17 R428). -/
def State.bankInjected (s : State) (unit : Nat) : Bool :=
  match newestOf (s.errs.filter fun e => e.2.inst = unit && (e.2.code = E.bankUe || e.2.code = E.bankCe)) with
  | some (_, r) => r.injected
  | none => false

/-- The store of a bank as INFO names it (17 R416). -/
def storeOf (b : Nat) : Nat := if b < 256 then 0 else if b < 384 then 1 else if b < 448 then 2 else if b < 480 then 3 else 4

/-- Whether the reserves still fit in the shared packet buffer of a quadrant (04 R89; 07 R180). -/
def State.reservesFit (s : State) (q : Nat) : Bool := decide (0 < s.sharedSize q)

/-- Retire a bank: a cell store loses its cells; an interleaved store is re-carved, or taken out of service past its
limit. [DEDUCED log 55] -/
def State.retireBank (s : State) (q b cause : Nat) : State :=
  let unit := 512 * q + b
  if s.retired.contains unit then s
  else
    let inj := cause ≠ 4 && s.bankInjected unit
    let rep : Repair := { kind := 2, quad := q, bank := b, sub := 0, spare := 0, column := 0, cause := cause, injected := inj }
    let note (s : State) : State :=
      if inj then { s with spares := s.spares ++ [rep] } else ({ s with spares := s.spares ++ [rep] }).commitRepair rep
    if 384 ≤ b then
      let s := (s.raise E.bankRetired unit (storeOf b) 0 s.lastRseq inj).addSat F.qbankStatCellRetired 1 q
      let s := note { s with retired := unit :: s.retired }
      if s.reservesFit q then s else s.raise E.bankRetireExhaustedCells unit (storeOf b) 0 s.lastRseq inj
    else
      let red : Bool := decide (b < 256)
      let n := (s.retiredIn q (if red then 0 else 256) (if red then 256 else 128)).length
      let pairGone (s : State) : State :=
        { s with slots := s.slots.map fun (e : Nat × SlotSt) =>
            if e.1 / 1024 = q then (e.1, { e.2 with ended := e.2.ended.map fun (x : Ended) => { x with pair := false } }) else e }
      let clear (s : State) : State := { s with banks := s.banks.filter fun e => e.1 / 2 ^ 40 ≠ q }
      if (if red then 16 else 8) ≤ n then
        -- fenced and committed; no relocation follows (R182)
        let s := note { s.raise E.bankRetireExhausted unit (storeOf b) 0 s.lastRseq inj with retired := unit :: s.retired }
        let s := pairGone (s.endQuad q 0x0104)
        let s := (s.boundIn q).foldl State.loseReservation s
        { s.wr F.qbankTopOutOfService 1 q with outOfService := q :: s.outOfService }
      else
        let s := s.raise E.bankRetired unit (storeOf b) 0 s.lastRseq inj
        let s := pairGone ((s.endQuad q 0x0104).endRuns (fun k => k % 1024 / 256 = q) 8)
        let s := note (clear { s with retired := unit :: s.retired, recarve := if s.recarve.contains q then s.recarve else q :: s.recarve })
        let s := s.wr F.qbankStatRecarve 1 q
        if red then
          (s.wr F.qbankTopRedRows (8192 - 32 * (n + 1)) q).wr F.qbankStatRedRetired (n + 1) q
        else (s.wr F.qbankTopStgRows (8192 - 64 * (n + 1)) q).wr F.qbankStatStgRetired (n + 1) q

/-- A bank group all of whose banks are retired stops counting (18 R430). -/
def State.freezeGroups (s : State) : State :=
  if s.retired.length < 32 then s
  else s.each (List.range 64) fun s g =>
    if (List.range 32).all fun j => s.retired.contains (512 * (g / 16) + 32 * (g % 16) + j) then s.freeze (132 + g) else s

/-- Carry out the retirements asked for. [DEDUCED log 55] -/
def State.retirements (s : State) : State :=
  s.retireAsk.foldl (fun s r => s.retireBank r.1 r.2.1 r.2.2) { s with retireAsk := [] }

/-- What follows a command at once inside the module: answered packets, asked retirements, packets that waited
for room, failed gates. [DEDUCED log 55] -/
def State.settle (s : State) : State :=
  ((((((s.unitTurns 4).retirements).drainHeld).unitTurns 4).gateEnds).freezeGroups).moveCells

/-! ## Reservations (07 R166; 05 R105) -/

/-- Round up to a unit. -/
def roundUp (u n : Nat) : Nat := ceilDiv n u * u

/-- The lowest free address for `size` bytes below `top`, among areas in use. -/
def firstFit (base top size : Nat) (used : List (Nat × Nat)) : Option Nat :=
  let free (a : Nat) : Bool := a + size ≤ top && used.all fun u => a + size ≤ u.1 || u.1 + u.2 ≤ a
  ((base :: used.map fun u => u.1 + u.2).filter fun a => base ≤ a && free a).foldl (fun (b : Option Nat) a => match b with
    | none => some a
    | some c => some (Nat.min a c)) none

/-- Bytes a binding reserves: reduction store and staging. -/
def Binding.reserve (b : Binding) (n : Nat) : Nat × Nat :=
  (roundUp 16384 (b.depth * b.resBytes), roundUp 8192 (b.depth * b.stgBytes n))

/-- Where the memory staging area ends in each quadrant's staging store (10 R238). -/
def stagingArea : Nat := 4194304

/-- Place a binding's reservations beside those of the slots in `others`; answers the two bases. -/
def State.reserveFor (s : State) (q : Nat) (b : Binding) (n : Nat) (others : List Nat) : Option (Nat × Nat) :=
  let sizes (slot : Nat) : Nat × Nat := match s.bindingOf slot with
    | some (ob, og) => ob.reserve (s.stgRanks slot og)
    | none => (0, 0)
  let need := b.reserve n
  let red := others.map fun o => ((s.slot o).redBase, (sizes o).1)
  let stg := others.map fun o => ((s.slot o).stgBase, (sizes o).2)
  match firstFit 0 (s.rd F.qbankTopRedRows q * 16384) need.1 (red.filter fun u => u.2 ≠ 0),
        firstFit stagingArea (s.rd F.qbankTopStgRows q * 8192) need.2 (stg.filter fun u => u.2 ≠ 0) with
  | some r, some t => some (r, t)
  | _, _ => none

/-- RECARVE_COMPLETE: the reservations are placed again from the bottom in order of binding; one that no longer fits is
unbound; the ports resume (07 R183, steps 4 and 5). -/
def execRecarveComplete (quad : Nat) (s : State) : Host.Outcome State Fault Refusal :=
  .next (if !s.recarve.contains quad then s
    else
      let order := s.boundIn quad
      let r := order.foldl (fun (acc : State × List Nat) slot =>
        match acc.1.bindingOf slot with
        | none => acc
        | some (b, g) =>
          match acc.1.reserveFor quad b (acc.1.stgRanks slot g) acc.2 with
          | some (rb, tb) => (acc.1.modSlot slot fun x => { x with redBase := rb, stgBase := tb }, acc.2 ++ [slot])
          | none => (acc.1.loseReservation slot, acc.2)) (s, [])
      let s := { r.1 with recarve := r.1.recarve.filter (· ≠ quad) }
      (s.wr F.qbankStatRecarve 0 quad).settle)

/-! ## Streams and memory channels -/

/-- [DEDUCED log 57] -/
def execStreamPacketSend (id : Nat) (reads : List Ecc) (stg : List CellRead) (s : State) : Host.Outcome State Fault Refusal :=
  .next (if 1024 ≤ id then s else (s.streamSend id reads stg).settle)

/-- MEM_CHANNEL_FAILED: all of fabric memory leaves service (10 R245). -/
def State.memChannelFail (s : State) (ch : Nat) (inj : Bool := false) : State :=
  if 64 ≤ ch then s
  else if s.phys.resetKind = some true then
    -- a channel that fails while a MAIN_KEEPMEM reset runs makes it MAIN_FULL (19 R452)
    ({ s with phys := { s.phys with resetKind := some false }, mem := [], memPoison := [] }).raise E.memChannelFailed ch 0 0 none inj
  else if s.rd F.memcStatState ≠ 1 then
    -- memory is out of service already: the channel is marked and recorded, and training cannot end READY
    ((s.wr F.memcStatChFailed (s.rd F.memcStatChFailed (ch / 16) ||| 2 ^ (ch % 16)) (ch / 16)).freeze (U.mem ch)).raise
      E.memChannelFailed ch 0 0 none inj
  else
    let s := s.each [0, 1, 2, 3] fun s q => (s.wr F.memcStatState 2 q).wr F.memcTopTop 0 q
    let s := s.wr F.memcStatChFailed (s.rd F.memcStatChFailed (ch / 16) ||| 2 ^ (ch % 16)) (ch / 16)
    let s := s.freeze (U.mem ch)
    let s := s.raise E.memChannelFailed ch 0 0 none inj
    -- reads in flight complete POISONED
    let reads := s.memReads
    let s := reads.foldl (fun s r => s.answerMem r.req r.quad 3 (leBytes (hget r.req H.bytes) 0)) { s with memReads := [] }
    let s := s.endRuns (fun _ => true) 7
    let busy := s.ctxs.filter fun e => e.2.run ≠ .free && e.2.dmas.any fun t => t.status.isNone
    let s := { s with ctxs := s.ctxs.map fun (e : Nat × PipCtx) => (e.1, { e.2 with dmas := e.2.dmas.map fun (t : DmaTag) =>
        if t.status.isNone then { t with status := some 3 } else t }) }
    let s := busy.foldl (fun s e => s.endInst e.2.slot e.2.step 0x0104 0x1FF 0 0) s
    s.each (busy.map fun e => e.1) fun s k => s.freeIfIdle { core := k / 4, ctx := k % 4 }

def execMemChannelFailed (ch : Nat) (s : State) : Host.Outcome State Fault Refusal := .next (s.memChannelFail ch).settle

/-- MEMORY_INIT_COMPLETE; where memory is FAILED no stream lives on. -/
def execMemoryInitComplete (failed : List Nat) (s : State) : Host.Outcome State Fault Refusal :=
  .next ((s.memoryInit failed).onlyIf (decide ((s.memoryInit failed).rd F.memcStatState = 2)) fun s =>
    s.endRuns (fun _ => true) 7).settle

/-! ## Collective commands, each followed by what it causes at once -/

def execCollContribReceive (s : State) : Host.Outcome State Fault Refusal :=
  .next (s.doCollContribReceive).settle

/-- [DESIGN CHOICE log 4] -/
def execChessClockExpire (slot step : Nat) (s : State) : Host.Outcome State Fault Refusal :=
  .next (s.doChessClockExpire slot step).settle

def execVerdictTimeout (slot step : Nat) (s : State) : Host.Outcome State Fault Refusal :=
  .next (s.doVerdictTimeout slot step).settle

def execTerminalSend (slot step : Nat) (s : State) : Host.Outcome State Fault Refusal :=
  .next (s.doTerminalSend slot step).settle

end Sys2Proof.Machine
end

