-- ==== Sys2Proof/Machine/Xo.lean ====
section
/-! DEFINITION. The encoding of the Xosolum instructions (08 R190, R191): the word of each instruction command, and the
command a word spells for a context. Physical outcomes are no part of a word: a decoded command carries the clean ones. -/

namespace Sys2Proof.Machine

/-! ## The instruction formats (08 R190) -/

def fmtSR (major : BitVec 6) (d a b : BitVec 5) (func : BitVec 11) : BitVec 32 := major ++ d ++ a ++ b ++ func
def fmtSI (major : BitVec 6) (d a : BitVec 5) (imm : BitVec 16) : BitVec 32 := major ++ d ++ a ++ imm
def fmtJ (major : BitVec 6) (off : BitVec 26) : BitVec 32 := major ++ off
def fmtV (major : BitVec 6) (vd va vb : BitVec 5) (pr : BitVec 3) (fmt vf : BitVec 4) : BitVec 32 :=
  major ++ vd ++ va ++ vb ++ pr ++ fmt ++ vf
def fmtMA (major : BitVec 6) (vd a : BitVec 5) (fmt : BitVec 4) (ret : Bool) (aop : BitVec 3) (imm : BitVec 8) : BitVec 32 :=
  major ++ vd ++ a ++ fmt ++ BitVec.ofBool ret ++ aop ++ imm

/-- A predicate register in a five-bit field. -/
def pfield (p : BitVec 3) : BitVec 5 := (0 : BitVec 2) ++ p

/-- The word of an instruction command, with its context; none for any other command. -/
def xoWord : Instr → Option (CtxId × BitVec 32)
  | .add x d a b => some (x, fmtSR 0x00 d a b 0)
  | .sub x d a b => some (x, fmtSR 0x00 d a b 1)
  | .and x d a b => some (x, fmtSR 0x00 d a b 2)
  | .or x d a b => some (x, fmtSR 0x00 d a b 3)
  | .xor x d a b => some (x, fmtSR 0x00 d a b 4)
  | .sll x d a b => some (x, fmtSR 0x00 d a b 5)
  | .srl x d a b => some (x, fmtSR 0x00 d a b 6)
  | .sra x d a b => some (x, fmtSR 0x00 d a b 7)
  | .slt x d a b => some (x, fmtSR 0x00 d a b 8)
  | .sltu x d a b => some (x, fmtSR 0x00 d a b 9)
  | .min x d a b => some (x, fmtSR 0x00 d a b 10)
  | .max x d a b => some (x, fmtSR 0x00 d a b 11)
  | .minu x d a b => some (x, fmtSR 0x00 d a b 12)
  | .maxu x d a b => some (x, fmtSR 0x00 d a b 13)
  | .mul x d a b => some (x, fmtSR 0x00 d a b 14)
  | .mulhu x d a b => some (x, fmtSR 0x00 d a b 15)
  | .addi x d a imm => some (x, fmtSI 0x01 d a imm)
  | .andi x d a imm => some (x, fmtSI 0x02 d a imm)
  | .ori x d a imm => some (x, fmtSI 0x03 d a imm)
  | .xori x d a imm => some (x, fmtSI 0x04 d a imm)
  | .slli x d a sh => some (x, fmtSI 0x05 d a ((0 : BitVec 10) ++ sh))
  | .srli x d a sh => some (x, fmtSI 0x06 d a ((0 : BitVec 10) ++ sh))
  | .srai x d a sh => some (x, fmtSI 0x07 d a ((0 : BitVec 10) ++ sh))
  | .slti x d a imm => some (x, fmtSI 0x08 d a imm)
  | .lui x d imm => some (x, fmtSI 0x09 d 0 imm)
  | .csrr x d num => some (x, fmtSI 0x0A d 0 ((0 : BitVec 4) ++ num))
  | .csrw x a num => some (x, fmtSI 0x0B 0 a ((0 : BitVec 4) ++ num))
  | .ld x d a imm _ => some (x, fmtSI 0x0C d a imm)
  | .st x d a imm => some (x, fmtSI 0x0D d a imm)
  | .lw x d a imm _ => some (x, fmtSI 0x0E d a imm)
  | .sw x d a imm => some (x, fmtSI 0x0F d a imm)
  | .beq x a b off => some (x, fmtSI 0x10 a b off)
  | .bne x a b off => some (x, fmtSI 0x11 a b off)
  | .blt x a b off => some (x, fmtSI 0x12 a b off)
  | .bge x a b off => some (x, fmtSI 0x13 a b off)
  | .bltu x a b off => some (x, fmtSI 0x14 a b off)
  | .bgeu x a b off => some (x, fmtSI 0x15 a b off)
  | .jal x off => some (x, fmtJ 0x16 off)
  | .ret x => some (x, fmtSR 0x17 0 0 0 0)
  | .vld x vd a imm _ => some (x, fmtSI 0x18 vd a imm)
  | .vst x vd a imm => some (x, fmtSI 0x19 vd a imm)
  | .vadd x vd va vb pr f => some (x, fmtV 0x1A vd va vb pr f 0)
  | .vsub x vd va vb pr f => some (x, fmtV 0x1A vd va vb pr f 1)
  | .vmul x vd va vb pr f => some (x, fmtV 0x1A vd va vb pr f 2)
  | .vfma x vd va vb pr f => some (x, fmtV 0x1A vd va vb pr f 3)
  | .vmax x vd va vb pr f => some (x, fmtV 0x1A vd va vb pr f 4)
  | .vmin x vd va vb pr f => some (x, fmtV 0x1A vd va vb pr f 5)
  | .vneg x vd va pr f => some (x, fmtV 0x1A vd va 0 pr f 6)
  | .vabs x vd va pr f => some (x, fmtV 0x1A vd va 0 pr f 7)
  | .vdiv x vd va vb pr => some (x, fmtV 0x1A vd va vb pr 0 8)
  | .vsqrt x vd va pr => some (x, fmtV 0x1A vd va 0 pr 0 9)
  | .vcmpeq x pd va vb pr f => some (x, fmtV 0x1A (pfield pd) va vb pr f 10)
  | .vcmplt x pd va vb pr f => some (x, fmtV 0x1A (pfield pd) va vb pr f 11)
  | .vcmple x pd va vb pr f => some (x, fmtV 0x1A (pfield pd) va vb pr f 12)
  | .vcmpun x pd va vb pr f => some (x, fmtV 0x1A (pfield pd) va vb pr f 13)
  | .vand x vd va vb pr => some (x, fmtV 0x1B vd va vb pr 0 0)
  | .vor x vd va vb pr => some (x, fmtV 0x1B vd va vb pr 0 1)
  | .vxor x vd va vb pr => some (x, fmtV 0x1B vd va vb pr 0 2)
  | .vsel x vd va vb pr f => some (x, fmtV 0x1B vd va vb pr f 3)
  | .vmov x vd va pr f => some (x, fmtV 0x1B vd va 0 pr f 4)
  | .vsplat x vd a pr f => some (x, fmtV 0x1B vd a 0 pr f 5)
  | .vextr x d va b f => some (x, fmtV 0x1B d va b 0 f 6)
  | .vinsr x vd a b f => some (x, fmtV 0x1B vd a b 0 f 7)
  | .vcvt x vd va tf part pr f => some (x, fmtV 0x1C vd va (part ++ tf) pr f 0)
  | .pmov x pd a => some (x, fmtSR 0x1D (pfield pd) a 0 0)
  | .pread x d pa => some (x, fmtSR 0x1D d (pfield pa) 0 1)
  | .pand x pd pa pb => some (x, fmtSR 0x1D (pfield pd) (pfield pa) (pfield pb) 2)
  | .por x pd pa pb => some (x, fmtSR 0x1D (pfield pd) (pfield pa) (pfield pb) 3)
  | .pnot x pd pa => some (x, fmtSR 0x1D (pfield pd) (pfield pa) 0 4)
  | .bld x vd a imm _ => some (x, fmtSI 0x20 vd a imm)
  | .bst x vd a imm _ => some (x, fmtSI 0x21 vd a imm)
  | .batomAdd x vd a f ret imm _ => some (x, fmtMA 0x22 vd a f ret 0 imm)
  | .batomAddI32w x vd a ret imm _ => some (x, fmtMA 0x22 vd a 7 ret 1 imm)
  | .batomAddI32s x vd a ret imm _ => some (x, fmtMA 0x22 vd a 7 ret 2 imm)
  | .batomXacc32 x vd a ret imm _ => some (x, fmtMA 0x22 vd a 0 ret 3 imm)
  | .batomXacc64 x vd a ret imm _ => some (x, fmtMA 0x22 vd a 0 ret 4 imm)
  | .batomMax x vd a f ret imm _ => some (x, fmtMA 0x22 vd a f ret 5 imm)
  | .batomMin x vd a f ret imm _ => some (x, fmtMA 0x22 vd a f ret 6 imm)
  | .batomSwap x vd a ret imm _ => some (x, fmtMA 0x22 vd a 0 ret 7 imm)
  | .msend x a b => some (x, fmtSR 0x24 0 a b 0)
  | .mwait x d a b chan mode => some (x, fmtSR 0x25 d a b ((0 : BitVec 6) ++ BitVec.ofBool mode ++ chan))
  | .mrecv x d chan => some (x, fmtSI 0x26 d 0 ((0 : BitVec 12) ++ chan))
  | .dma x d a _ => some (x, fmtSR 0x28 d a 0 0)
  | .dmawait x d a => some (x, fmtSR 0x29 d a 0 0)
  | .idone x => some (x, fmtSI 0x2C 0 0 0)
  | .iabort x a => some (x, fmtSI 0x2C 0 a 1)
  | .ireportChunkDone x a => some (x, fmtSI 0x2C 0 a 2)
  | .ireportChunkFault x a => some (x, fmtSI 0x2C 1 a 2)
  | .ireportDropped x a => some (x, fmtSI 0x2C 2 a 2)
  | .ireportUser x a => some (x, fmtSI 0x2C 3 a 2)
  | .ickpt x d a => some (x, fmtSI 0x2C d a 3)
  | .fence x cls => some (x, fmtSI 0x2D 0 0 ((0 : BitVec 12) ++ cls))
  | _ => none

/-- The command that an instruction word spells, by MAJOR and its code fields alone. -/
def xoCandidate (x : CtxId) (w : BitVec 32) : Option Instr :=
  let f (lo n : Nat) : BitVec n := BitVec.extractLsb' lo n w
  let d : Reg5 := f 21 5
  let a : Reg5 := f 16 5
  let b : Reg5 := f 11 5
  let imm : BitVec 16 := f 0 16
  let pr : BitVec 3 := f 8 3
  let fm : BitVec 4 := f 4 4
  let pd : BitVec 3 := f 21 3
  let ret := w.getLsbD 11
  let i8 : BitVec 8 := f 0 8
  match (f 26 6).toNat with
  | 0x00 =>
    match (f 0 11).toNat with
    | 0 => some (.add x d a b)
    | 1 => some (.sub x d a b)
    | 2 => some (.and x d a b)
    | 3 => some (.or x d a b)
    | 4 => some (.xor x d a b)
    | 5 => some (.sll x d a b)
    | 6 => some (.srl x d a b)
    | 7 => some (.sra x d a b)
    | 8 => some (.slt x d a b)
    | 9 => some (.sltu x d a b)
    | 10 => some (.min x d a b)
    | 11 => some (.max x d a b)
    | 12 => some (.minu x d a b)
    | 13 => some (.maxu x d a b)
    | 14 => some (.mul x d a b)
    | 15 => some (.mulhu x d a b)
    | _ => none
  | 0x01 => some (.addi x d a imm)
  | 0x02 => some (.andi x d a imm)
  | 0x03 => some (.ori x d a imm)
  | 0x04 => some (.xori x d a imm)
  | 0x05 => some (.slli x d a (f 0 6))
  | 0x06 => some (.srli x d a (f 0 6))
  | 0x07 => some (.srai x d a (f 0 6))
  | 0x08 => some (.slti x d a imm)
  | 0x09 => some (.lui x d imm)
  | 0x0A => some (.csrr x d (f 0 12))
  | 0x0B => some (.csrw x a (f 0 12))
  | 0x0C => some (.ld x d a imm .clean)
  | 0x0D => some (.st x d a imm)
  | 0x0E => some (.lw x d a imm .clean)
  | 0x0F => some (.sw x d a imm)
  | 0x10 => some (.beq x d a imm)
  | 0x11 => some (.bne x d a imm)
  | 0x12 => some (.blt x d a imm)
  | 0x13 => some (.bge x d a imm)
  | 0x14 => some (.bltu x d a imm)
  | 0x15 => some (.bgeu x d a imm)
  | 0x16 => some (.jal x (f 0 26))
  | 0x17 => some (.ret x)
  | 0x18 => some (.vld x d a imm .clean)
  | 0x19 => some (.vst x d a imm)
  | 0x1A =>
    match (f 0 4).toNat with
    | 0 => some (.vadd x d a b pr fm)
    | 1 => some (.vsub x d a b pr fm)
    | 2 => some (.vmul x d a b pr fm)
    | 3 => some (.vfma x d a b pr fm)
    | 4 => some (.vmax x d a b pr fm)
    | 5 => some (.vmin x d a b pr fm)
    | 6 => some (.vneg x d a pr fm)
    | 7 => some (.vabs x d a pr fm)
    | 8 => some (.vdiv x d a b pr)
    | 9 => some (.vsqrt x d a pr)
    | 10 => some (.vcmpeq x pd a b pr fm)
    | 11 => some (.vcmplt x pd a b pr fm)
    | 12 => some (.vcmple x pd a b pr fm)
    | 13 => some (.vcmpun x pd a b pr fm)
    | _ => none
  | 0x1B =>
    match (f 0 4).toNat with
    | 0 => some (.vand x d a b pr)
    | 1 => some (.vor x d a b pr)
    | 2 => some (.vxor x d a b pr)
    | 3 => some (.vsel x d a b pr fm)
    | 4 => some (.vmov x d a pr fm)
    | 5 => some (.vsplat x d a pr fm)
    | 6 => some (.vextr x d a b fm)
    | 7 => some (.vinsr x d a b fm)
    | _ => none
  | 0x1C => some (.vcvt x d a (f 11 3) (f 14 2) pr fm)
  | 0x1D =>
    match (f 0 11).toNat with
    | 0 => some (.pmov x pd a)
    | 1 => some (.pread x d (f 16 3))
    | 2 => some (.pand x pd (f 16 3) (f 11 3))
    | 3 => some (.por x pd (f 16 3) (f 11 3))
    | 4 => some (.pnot x pd (f 16 3))
    | _ => none
  | 0x20 => some (.bld x d a imm .clean)
  | 0x21 => some (.bst x d a imm false)
  | 0x22 =>
    match (f 8 3).toNat with
    | 0 => some (.batomAdd x d a (f 12 4) ret i8 .clean)
    | 1 => some (.batomAddI32w x d a ret i8 .clean)
    | 2 => some (.batomAddI32s x d a ret i8 .clean)
    | 3 => some (.batomXacc32 x d a ret i8 .clean)
    | 4 => some (.batomXacc64 x d a ret i8 .clean)
    | 5 => some (.batomMax x d a (f 12 4) ret i8 .clean)
    | 6 => some (.batomMin x d a (f 12 4) ret i8 .clean)
    | _ => some (.batomSwap x d a ret i8 .clean)
  | 0x24 => some (.msend x a b)
  | 0x25 => some (.mwait x d a b (f 0 4) (w.getLsbD 4))
  | 0x26 => some (.mrecv x d (f 0 4))
  | 0x28 => some (.dma x d a .clean)
  | 0x29 => some (.dmawait x d a)
  | 0x2C =>
    match imm.toNat with
    | 0 => some (.idone x)
    | 1 => some (.iabort x a)
    | 2 =>
      match d.toNat with
      | 0 => some (.ireportChunkDone x a)
      | 1 => some (.ireportChunkFault x a)
      | 2 => some (.ireportDropped x a)
      | 3 => some (.ireportUser x a)
      | _ => none
    | 3 => some (.ickpt x d a)
    | _ => none
  | 0x2D => some (.fence x (f 0 4))
  | _ => none

/-- Whether a special register number is defined (08 R188). -/
def specialDefined (n : Nat) : Bool :=
  n ≤ 0x011 || (0x018 ≤ n && n ≤ 0x01A) || (0x020 ≤ n && n ≤ 0x034)

/-- Whether a special register may be written (08 R188). -/
def specialWritable (n : Nat) : Bool := n = 0x030 || n = 0x031 || n = 0x034

/-- Lanes of a format code: E(f) of 08 R189. -/
def fmtLanes (f : Nat) : Nat := if f = 0 || f = 7 then 16 else if f = 1 || f = 2 then 32 else 64

/-- Whether the loader accepts an instruction by itself: FMT, PR, special register and PART as its row allows (08 R188,
R190 to R192, R196, R197). -/
def xoLegal : Instr → Bool
  | .csrr _ _ n => specialDefined n.toNat
  | .csrw _ _ n => specialWritable n.toNat
  | .vadd _ _ _ _ _ f | .vsub _ _ _ _ _ f | .vneg _ _ _ _ f | .vabs _ _ _ _ f | .vmov _ _ _ _ f => f.toNat ≤ 7
  | .vmul _ _ _ _ _ f | .vmax _ _ _ _ _ f | .vmin _ _ _ _ _ f | .vcmpeq _ _ _ _ _ f | .vcmplt _ _ _ _ _ f
  | .vcmple _ _ _ _ _ f | .vcmpun _ _ _ _ _ f => f.toNat ≤ 4 || f.toNat = 7
  | .vsplat _ _ _ _ f | .vextr _ _ _ _ f | .vinsr _ _ _ _ f | .batomMax _ _ _ f _ _ _ | .batomMin _ _ _ f _ _ _ =>
    f.toNat ≤ 4 || f.toNat = 7
  | .vfma _ _ _ _ _ f => f.toNat ≤ 4
  | .vsel _ _ _ _ pr f => pr ≠ 0 && f.toNat ≤ 7
  | .vcvt _ _ va tf part _ f =>
    let a := fmtLanes f.toNat
    let b := fmtLanes tf.toNat
    f.toNat ≤ 7 && part.toNat < Nat.max a b / Nat.min a b &&
    (!((tf.toNat = 5 || tf.toNat = 6) && a = 16) || va.toNat % 2 = 0)
  | .batomAdd _ _ _ f _ _ _ => f.toNat ≤ 6
  | .fence _ c => c ≠ 0
  | _ => true

/-- The command that an instruction word spells; none where the loader would refuse the word (08 R190, R209). -/
def xoDecode (x : CtxId) (w : BitVec 32) : Option Instr :=
  match xoCandidate x w with
  | none => none
  | some i => if xoWord i = some (x, w) && xoLegal i then some i else none

/-- Whether an instruction word uses the vector slot (08 R185): MAJOR 0x18 to 0x1D. -/
def xoVector (w : BitVec 32) : Bool :=
  let m := (BitVec.extractLsb' 26 6 w).toNat
  0x18 ≤ m && m ≤ 0x1D

end Sys2Proof.Machine
end

