-- ==== Sys2Proof/Machine/Pip.lean ====
section
/-! DEFINITION. Reduction cores (08): contexts and their registers, issue, special registers, exceptions, a failed core,
the dealer, and the scalar, local memory and control instructions. -/

namespace Sys2Proof.Machine

/-! ## Registers (08 R187) -/

def PipCtx.s (c : PipCtx) (r : Reg5) : Word := if r = 0 then 0 else c.regs.getD r.toNat 0

def PipCtx.setS (c : PipCtx) (r : Reg5) (v : Word) : PipCtx :=
  if r = 0 then c else { c with regs := c.regs.setD r.toNat 0 v }

def PipCtx.v (c : PipCtx) (r : Reg5) : Flit := c.vregs.getD r.toNat 0

def PipCtx.setV (c : PipCtx) (r : Reg5) (x : Flit) : PipCtx := { c with vregs := c.vregs.setD r.toNat 0 x }

def PipCtx.p (c : PipCtx) (r : BitVec 3) : Word := c.pregs.getD r.toNat 0

def PipCtx.setP (c : PipCtx) (r : BitVec 3) (x : Word) : PipCtx := { c with pregs := c.pregs.setD r.toNat 0 x }

/-- Whether lane `i` is on under mask `pr`; 0 means all lanes. -/
def PipCtx.on (c : PipCtx) (pr : BitVec 3) (i : Nat) : Bool := pr = 0 || (c.p pr).getLsbD i

/-- Join arithmetic flags into AFLAGS. -/
def PipCtx.flag (c : PipCtx) (f : Flags) : PipCtx := { c with aflags := c.aflags ||| f.setWidth 64 }

def sext16 (imm : BitVec 16) : Word := imm.signExtend 64

/-! ## Programs (08 R207, R208; 09 R216) -/

/-- Instructions of a library program. [DESIGN CHOICE log 11] -/
def libraryLen (cls : Nat) : Nat :=
  [0, 212, 348, 286, 264, 96, 88, 12, 410, 372, 318, 456].getD cls 0

def State.program? (s : State) (cls : Nat) : Option Program := s.programs.find? fun p => p.cls = cls

/-- Instructions of a program by class. -/
def State.codeLen (s : State) (cls : Nat) : Nat :=
  if cls ≤ 11 then libraryLen cls else ((s.program? cls).map fun p => p.code.length).getD 0

/-- Whether the word at a byte address of a loaded program is `w`. The words of the library are not in the spec (09 R216):
its programs run by what 09 says they do, in Library.lean, and issue nothing by command. [DESIGN CHOICE log 11] -/
def State.codeHas (s : State) (cls pc : Nat) (w : BitVec 32) : Bool :=
  pc % 4 = 0 && (s.program? cls).any fun p => p.code[pc / 4]? = some w

/-! ## A core that fails (08 R206, R212, R215) -/

/-- What becomes of an instance whose core is fenced: restarted from its newest checkpoint, or FAULTED. -/
def State.coreLost (s : State) (q : Nat) (x : CtxId) (c : PipCtx) : State :=
  let s := (s.putCtx (ctxNum x) {}).addFlags c.slot c.step (c.aflags.setWidth 16)
  match s.inst? c.slot c.step with
  | none => s
  | some i =>
    if i.status.isSome then
      s.putInst c.slot c.step { i with ctx := if i.ctx = some x then none else i.ctx
                                       recCtx := if i.recCtx = some x then none else i.recCtx }
    else if c.recoveryOf.isSome then
      s.putInst c.slot c.step { i with recCtx := none }
    else
      let mayRestart : Bool := c.program ≤ 11 || (s.program? c.program).any fun p => p.flags % 2 = 1
      let i := { i with ctx := none }
      if mayRestart && i.restarts < s.rd F.pipDealcfgRestartMax q then
        ((s.putInst c.slot c.step { i with state := .open_, restarts := i.restarts + 1, replace := true }).ev (U.dealer q) 0x02).bump 22
      else (s.putInst c.slot c.step i).endInst c.slot c.step 0x0104 0x1FF 0 0

/-- Fence a core and deal with what it held. A fence for an injected error leaves no history (17 R428). -/
def State.fenceCore (s : State) (core cause : Nat) (inj : Bool := false) : State :=
  if 128 ≤ core || s.coreFenced.contains core then s
  else
    let q := core / 32
    let s := { s with coreFenced := core :: s.coreFenced }
    let s := if inj then s
      else { s with ledger := { s.ledger with coreFences := s.ledger.coreFences ++ [(core, s.rd F.ledgHoursHoursMain)] } }
    let s := s.wr F.pipFenceFenced (s.rd F.pipFenceFenced q ||| 2 ^ (core % 32)) q
    let s := s.freeze (U.core core)
    let s := if inj then s else s.fenceRecord 0 core cause false
    let s := s.each [0, 1, 2, 3] fun s k =>
      let x : CtxId := { core := core, ctx := k }
      let c := s.ctx (ctxNum x)
      if c.run = .free then s else s.coreLost q x c
    if (List.range 32).all fun k => s.coreFenced.contains (32 * q + k) then
      ((s.endQuad q 0x0104).raise E.pipExhausted q 0 0 s.lastRseq).wr F.pipStatOutOfService 1 q
    else s

/-- A hardware error of a core: recorded, and the core fenced (08 R206, R212). -/
def State.coreFail (s : State) (core code : Nat) (info : Nat := 0) (info2 : Nat := 0) (inj : Bool := false) : State :=
  (s.raise code core (Config.pipCause (16 + code % 16) % 2 ^ 8 + info) info2 none inj).fenceCore core code inj

/-- A corrected word of a core's memories (08 R186). [DEDUCED log 51] -/
def State.coreCorrected (s : State) (core code : Nat) (info : Nat := 0) (info2 : Nat := 0) (inj : Bool := false) : State :=
  (s.raise code core (Config.pipCause (16 + code % 16) % 2 ^ 8 + info) info2 none inj).ev (U.core core) 0x0A

/-- CORE_HW_ERROR: an uncorrectable local or instruction memory word or a parity error fences the core (08 R206); a
corrected word of either memory is recorded (R186). -/
def execCoreHwError (core code : Nat) (s : State) : Host.Outcome State Fault Refusal :=
  .next (if core < 128 && !s.coreFenced.contains core then
      (if code = E.pipLdmUe || code = E.pipImemUe || code = E.pipParity then s.coreFail core code
       else if code = E.pipImemCe || code = E.pipLdmCe then s.coreCorrected core code
       else s)
     else s)

/-! ## Waits (08 R184, R197, R198) -/

/-- SOURCE of an IN channel: 0 MEMBERS, 1 HELPERS, 2 PEER. -/
def State.chanSource (s : State) (cls ch : Nat) : Option Nat :=
  if cls ≤ 11 then
    (if ch = 0 then some 0 else if ch = 1 && cls ≠ 8 && cls ≠ 9 then some 1 else none)
  else
    match (s.program? cls).bind fun p => p.channels[ch]? with
    | some e => if (BitVec.extractLsb' 0 2 e).toNat = 1 then some ((BitVec.extractLsb' 2 2 e).toNat) else none
    | none => none

/-- What MWAIT answers, or nothing while it waits. `a` is the chunk, `b` the count or the rank. -/
def State.waitAnswer (s : State) (slot : Nat) (bd : Binding) (g : Group) (i : Instance) (src chan a b : Nat) (mode : Bool) :
    Option Nat :=
  if src = 2 then
    let n := i.msgs.getD chan 0
    if b ≤ n then some n else none
  else if !i.opened.contains a then none
  else
    let mine := (s.contributors slot bd g).filter fun k => if src = 0 then decide (k < 512) else decide (512 ≤ k)
    let done (k : Nat) : Bool := s.shareDone bd g i a k
    if mode then
      let k := if src = 0 then b else 512 + b
      if src = 0 && g.vacant.contains b then some 0 else if mine.contains k && done k then some 1 else none
    else
      let n := (mine.filter done).length
      if b ≤ n then some n else none

/-- Whether every earlier operation of the classes in `cls` is complete. Local stores complete as they issue. -/
def PipCtx.quiet (c : PipCtx) (cls : BitVec 4) : Bool :=
  (!cls.getLsbD 0 || c.bankOps = 0) && (!cls.getLsbD 1 || c.sends = []) &&
  (!cls.getLsbD 2 || c.dmas.all fun t => t.status.isSome)

/-- Whether what a blocked context waits for has come: the condition of the instruction at its pc (08 R184). -/
def State.wakes (s : State) (x : CtxId) (c : PipCtx) : Bool :=
  match ((s.program? c.program).bind fun p => p.code[c.pc / 4]?).bind (xoDecode x) with
  | none => false
  | some (.mwait _ _ a b chan mode) =>
    (match s.bindingOf c.slot, s.inst? c.slot c.step, s.chanSource c.program chan.toNat with
     | some (bd, g), some i, some src =>
       (src ≠ 2 && bd.chunks ≤ (c.s a).toNat) || (s.waitAnswer c.slot bd g i src chan.toNat (c.s a).toNat (c.s b).toNat mode).isSome
     | _, _, _ => false)
  | some (.mrecv _ _ chan) => (s.inst? c.slot c.step).any fun i => i.descs.any fun v => v.chan = chan.toNat
  | some (.dmawait _ _ a) => c.dmas.any fun t => t.tag = (c.s a).toNat && t.status.isSome
  | some (.fence _ cls) => c.quiet cls
  | some (.idone _) => c.quiet 0xF
  | some (.dma ..) => (c.dmas.filter fun t => t.status.isNone).length < 8
  | some _ => c.bankOps < 16 && !s.recarve.contains (x.core / 32)

/-! ## Issue (08 R184, R185) -/

/-- Whether the core issues from context `k` now: it goes on with its present context until that one blocks or leaves,
then takes the next ready one in rotation; a blocked context is ready again once what it waits for has come. [DEDUCED log 50] -/
def State.turn (s : State) (core k : Nat) : Bool :=
  let cur := s.rrCtx.getD core 0
  let ready (j : Nat) : Bool :=
    let c := s.ctx (4 * core + j % 4)
    11 < c.program && (c.run = .ready || (c.run = .blocked && s.wakes { core := core, ctx := j % 4 } c))
  k = cur || (!ready cur && (List.range ((k + 4 - cur) % 4 - 1)).all fun j => !ready (cur + 1 + j))

/-- Top-down counters of a core: 0 RETIRED, 1 WASTED, 2 BACK_STARVED, 3 FRONT_STARVED (18 R435). -/
def State.slotCount (s : State) (core k : Nat) : State :=
  if s.unitCounts (U.core core) then { s with topDown := s.topDown.setD (4 * core + k) 0 ((s.topDown.getD (4 * core + k) 0 + 1) % 2 ^ 64) }
  else s

/-- INFO of a PIP record without its cause, and its INFO2 (17 R416). [DESIGN CHOICE log 15] -/
def PipCtx.info (c : PipCtx) : Nat := 2 ^ 16 * c.program + 2 ^ 32 * (c.pc / 4)

def PipCtx.info2 (c : PipCtx) (x : CtxId) : Nat := c.slot + 4096 * x.ctx

/-- The fetch of an instruction is an evaluation of the core's own detectors (17 R426): an armed die may fire. Answers
whether the core failed. [DEDUCED log 51] -/
def State.fetch (s : State) (x : CtxId) (c : PipCtx) : State × Bool :=
  let u := s.evaluate E.pipImemUe x.core false
  if u.2.1 then (u.1.coreFail x.core E.pipImemUe c.info (c.info2 x) true, true)
  else
    let p := u.1.evaluate E.pipParity x.core false
    if p.2.1 then (p.1.coreFail x.core E.pipParity c.info (c.info2 x) true, true)
    else
      let e := p.1.evaluate E.pipImemCe x.core false
      (if e.2.1 then e.1.coreCorrected x.core E.pipImemCe c.info (c.info2 x) true else e.1, false)

/-- Issue an instruction of a context: it must be the word at the context's pc and the context's turn. Otherwise the core
cannot issue it and nothing happens. [DEDUCED log 50, 51] -/
def State.issue (s : State) (i : Instr) (f : State → CtxId → PipCtx → Bool → State) : State :=
  match xoWord i with
  | none => s
  | some (x, w) =>
    let c := s.ctx (ctxNum x)
    if x.core < 128 && x.ctx < 4 && !s.phys.fatal && !s.coreFenced.contains x.core && (c.run = .ready || c.run = .blocked) &&
        xoLegal i && s.codeHas c.program c.pc w && s.turn x.core x.ctx then
      let r := State.fetch { s with rrCtx := s.rrCtx.setD x.core 0 x.ctx } x c
      if r.2 then r.1 else f r.1 x c (xoVector w)
    else s

/-- The instruction completes: the context's new contents, the address of its next instruction. [DEDUCED log 59] -/
def State.retireAt (s : State) (x : CtxId) (vec : Bool) (c : PipCtx) (pc : Nat) : State :=
  ((s.putCtx (ctxNum x) { c with pc := pc, run := .ready }).ev (U.core x.core) (if vec then 2 else 1)).slotCount x.core 0

def State.retire (s : State) (x : CtxId) (vec : Bool) (c : PipCtx) : State := s.retireAt x vec c (c.pc + 4)

/-- The instruction cannot complete yet: the context blocks, and the core switches (08 R184). -/
def State.stall (s : State) (x : CtxId) (c : PipCtx) : State :=
  if c.run = .blocked then s else (s.putCtx (ctxNum x) { c with run := .blocked }).ev (U.core x.core) 0x09

/-- An exception (08 R205), by number: 0 LDM_RANGE, 1 ALIGN, 2 IMEM_RANGE, 3 BANK_RANGE, 4 DMA_RANGE, 5 SEND_INVALID,
6 WAIT_INVALID. INFO of the record is the cause, the class and the instruction's index, INFO2 the context and slot (17
R416). [DEDUCED log 59] -/
def State.trap (s : State) (x : CtxId) (c : PipCtx) (cause : Nat) : State :=
  let s := s.slotCount x.core 1
  let s := s.raise E.pipException x.core (Config.pipCause cause % 2 ^ 8 + c.info) (c.info2 x)
  (s.endInst c.slot c.step 0x0106 0x1FF 0 0).stopCtx x

/-- An instruction that changes only the context's own registers. -/
def State.regOp (s : State) (i : Instr) (g : PipCtx → PipCtx) : State :=
  s.issue i fun s x c vec => s.retire x vec (g c)

/-! ## Special registers (08 R188) -/

/-- The value of a special register. -/
def State.special (s : State) (x : CtxId) (c : PipCtx) (n : Nat) : Word :=
  let w (k : Nat) : Word := BitVec.ofNat 64 k
  let bit (p : Bool) (k : Nat) : Nat := if p then 2 ^ k else 0
  let bd := (s.bindingOf c.slot)
  let b : Binding := (bd.map fun p => p.1).getD {}
  let i : Instance := (s.inst? c.slot c.step).getD {}
  let onG (f : Group → Nat) : Word := w (((bd.map fun p => f p.2).getD 0) % 2 ^ 64)
  match n with
  | 0x000 => w x.core
  | 0x001 => w x.ctx
  | 0x002 => w c.slot
  | 0x003 => w c.step
  | 0x004 => onG fun g => b.group + 2 ^ 16 * g.gepoch
  | 0x005 => onG Group.count
  | 0x006 => onG fun g => g.live.length
  | 0x007 => w b.root
  | 0x008 => w (b.format + 2 ^ 4 * i.disc + 2 ^ 6 * b.op + bit b.retain 12 + bit (b.stages = 2) 13 + bit i.imposed 14 +
      bit b.e5m2Inf 15 + bit c.helper 16)
  | 0x009 => w b.elems
  | 0x00A => w b.chunk
  | 0x00B => w b.chunks
  | 0x00C => w (b.bytesIn (b.chunks - 1))
  | 0x00D => w i.flight
  | 0x00E => w (s.resBase c.slot c.step b)
  | 0x00F => onG fun g => s.stgBase c.slot c.step b g
  | 0x010 => w (b.capacity + 2 ^ 16 * b.tokensMax + 2 ^ 33 * (b.record / 64))
  | 0x011 => w b.outRows
  | 0x018 => w c.resume
  | 0x019 => w c.resumeW
  | 0x01A => w i.restarts
  | 0x030 => c.bstat
  | 0x031 => c.aflags
  | 0x032 => w s.rackTime
  | 0x033 => w ((s.now - c.placed) * 12 / 5)
  | 0x034 => c.intmode
  | n =>
    if 0x020 ≤ n && n ≤ 0x027 then onG fun g => rankBits g.vacant / 2 ^ (64 * (n - 0x020))
    else if 0x028 ≤ n && n ≤ 0x02F then w (b.params.getD (n - 0x028) 0)
    else 0

/-- What CSRW does to the context. -/
def PipCtx.writeSpecial (c : PipCtx) (n : Nat) (v : Word) : PipCtx :=
  match n with
  | 0x030 => { c with bstat := c.bstat &&& ~~~v }
  | 0x031 => { c with aflags := c.aflags &&& ~~~v }
  | 0x034 => { c with intmode := v &&& 1 }
  | _ => c

/-- BSTAT bits (08 R188). -/
def PipCtx.bset (c : PipCtx) (k : Nat) : PipCtx := { c with bstat := c.bstat ||| (1 <<< k) }

/-! ## The dealer (08 R204; 04 R98 to R100; 09 R221) -/

/-- Contexts of a core in use. -/
def State.busyOn (s : State) (core : Nat) : Nat :=
  ([0, 1, 2, 3].filter fun k => (s.ctx (4 * core + k)).run ≠ .free).length

/-- A free context of a quadrant: on the core with the fewest occupied contexts, the lower number on a tie. -/
def State.freeCtx (s : State) (q : Nat) (avoid : Option Nat) : Option CtxId :=
  let lim := s.rd F.pipDealcfgMaxctx q + 1
  let cores := ((List.range 32).map (32 * q + ·)).filter fun c =>
    !s.coreFenced.contains c && s.busyOn c < lim && some c ≠ avoid
  let best := cores.foldl (fun (b : Option Nat) c => match b with
    | none => some c
    | some d => if s.busyOn c < s.busyOn d then some c else b) none
  match best with
  | none => none
  | some c => ([0, 1, 2, 3].find? fun k => (s.ctx (4 * c + k)).run = .free).map fun k => { core := c, ctx := k }

/-- The age of a waiting instance in TICK, saturating at 16 bits (04 R98). -/
def State.waitAge (s : State) (i : Instance) : Nat := Nat.min (s.tick - i.arrived) 65535

/-- Instances of a quadrant that wait for a context. -/
def State.waitingInsts (s : State) (q : Nat) : List (Nat × Instance) :=
  s.insts.filter fun e => e.1 / 65536 / 1024 = q && e.2.ctx.isNone && e.2.state = .open_ && e.2.status.isNone && !e.2.programDone

/-- Whether entry `a` is placed before entry `b`: restarted ones first, then those past the promotion threshold by age,
then by PRIORITY, then by first arrival, which stands for the requester index of 04 R100. [DESIGN CHOICE log 146] -/
def State.placedBefore (s : State) (q : Nat) (a b : Nat × Instance) : Bool :=
  let lim := Nat.max 100 (s.rd F.pipDealcfgPromo q)
  let cls (e : Nat × Instance) : Nat := if e.2.replace then 0 else if lim < s.waitAge e.2 then 1 else 2
  let prio (e : Nat × Instance) : Nat := ((s.bindingOf (e.1 / 65536)).map fun p => p.1.priority).getD 0
  if cls a ≠ cls b then cls a < cls b
  else if cls a = 1 && s.waitAge a.2 ≠ s.waitAge b.2 then s.waitAge b.2 < s.waitAge a.2
  else if cls a = 2 && prio a ≠ prio b then prio b < prio a
  else a.2.order < b.2.order

/-- The newest of some checkpoint records. -/
def newestCkpt (l : List Ckpt) : Option Ckpt :=
  l.foldl (fun (b : Option Ckpt) k => match b with
    | none => some k
    | some o => if o.seq < k.seq then some k else b) none

/-- The checkpoint of a slot that a restart of a step uses: the newest, or, where its ECC is not clean, the other (08 R213). -/
def SlotSt.ckptOf (st : SlotSt) (step : Nat) (e : Ecc) : Option Ckpt :=
  let l := st.ckpts.filter fun k => k.step = step
  if e = .ue then newestCkpt (l.filter fun k => some k ≠ newestCkpt l) else newestCkpt l

/-- Place an instance on a context: registers zero but s31, the program's data copied into the window (08 R187, R204). `e` is the ECC
outcome of the newest checkpoint record. -/
def State.place (s : State) (x : CtxId) (slot step : Nat) (b : Binding) (recovery : Option Nat) (e : Ecc) : State :=
  let q := slot / 1024
  let p := s.program? b.program
  let ck := (s.slot slot).ckptOf step e
  let entry := (p.map fun p => p.entry).getD 0
  let mem : Tab Word := ((p.map fun p => p.data).getD []).zipIdx.foldl (fun (m : Tab Word) (e : Byte × Nat) =>
    m.setD (e.2 / 8) 0 (m.getD (e.2 / 8) 0 ||| (e.1.setWidth 64 <<< (8 * (e.2 % 8))))) []
  let restarted : Bool := match s.inst? slot step with | some i => decide (0 < i.restarts) | none => false
  let resume := match recovery with
    | some c => c
    | none => if restarted then (ck.map fun k => k.resume).getD 0xFFFFFFFFFFFFFFFF else 0xFFFFFFFFFFFFFFFF
  let resumeW := match recovery with
    | some _ => 0xFFFFFFFFFFFFFFFE
    | none => if restarted then (ck.map fun k => k.user).getD 0 else 0
  let c : PipCtx := { run := .ready, slot := slot, step := step, program := b.program, helper := s.isHelper slot,
                      recoveryOf := recovery, pc := 4 * entry, regs := if entry = 0 then [] else [(31, BitVec.ofNat 64 (4 * entry))],
                      mem := mem, intmode := if b.intSat then 1 else 0, resume := resume, resumeW := resumeW,
                      placed := s.now, restarted := restarted && recovery.isNone,
                      lib := { chunk := if resume = 0xFFFFFFFFFFFFFFFF then 0 else resume, resent := recovery.isSome } }
  (s.putCtx (ctxNum x) c).ev (U.dealer q) (if recovery.isSome then 0x03 else 0x01)

/-- The next placement of a quadrant: a restarted instance, then a recovery context, then the other waiting instances. [DESIGN CHOICE log 10] -/
def State.dealerPlace (s : State) (q : Nat) (ecc : Ecc) : State :=
  if 4 ≤ q || s.phys.fatal then s
  else
    let wait := s.waitingInsts q
    let next := wait.foldl (fun (b : Option (Nat × Instance)) e => match b with
      | none => some e
      | some o => if s.placedBefore q e o then some e else b) none
    let rec_ := s.insts.find? fun e => e.1 / 65536 / 1024 = q && e.2.status.isNone && e.2.recovering ≠ [] && e.2.recCtx.isNone
    let recover (e : Nat × Instance) : State :=
      let slot := e.1 / 65536
      match s.bindingOf slot, s.freeCtx q (e.2.ctx.map fun x => x.core) with
      | some (b, _), some x =>
        (s.place x slot (e.1 % 65536) b e.2.recovering.head? ecc).putInst slot (e.1 % 65536) { e.2 with recCtx := some x }
      | _, _ => s
    let place (e : Nat × Instance) : State :=
      let slot := e.1 / 65536
      match s.bindingOf slot, s.freeCtx q none with
      | some (b, _), some x =>
        let lim := Nat.max 100 (s.rd F.pipDealcfgPromo q)
        let s := s.onlyIf (!e.2.replace && decide (lim < s.waitAge e.2)) (·.ev (U.dealer q) 0x04)
        (s.place x slot (e.1 % 65536) b none ecc).putInst slot (e.1 % 65536)
          { e.2 with ctx := some x, state := .running, replace := false }
      | _, _ => s
    match next, rec_ with
    | some e, some r => if e.2.replace then place e else recover r
    | some e, none => place e
    | none, some r => recover r
    | none, none => s

/-! ## Scalar instructions (08 R191) -/

/-- d = a op b. -/
def State.scalar (s : State) (i : Instr) (d a b : Reg5) (f : Word → Word → Word) : State :=
  s.regOp i fun c => c.setS d (f (c.s a) (c.s b))

def execAdd (x : CtxId) (d a b : Reg5) (s : State) : Host.Outcome State Fault Refusal :=
  .next (s.scalar (.add x d a b) d a b (· + ·))

def execSub (x : CtxId) (d a b : Reg5) (s : State) : Host.Outcome State Fault Refusal :=
  .next (s.scalar (.sub x d a b) d a b (· - ·))

def execAnd (x : CtxId) (d a b : Reg5) (s : State) : Host.Outcome State Fault Refusal :=
  .next (s.scalar (.and x d a b) d a b (· &&& ·))

def execOr (x : CtxId) (d a b : Reg5) (s : State) : Host.Outcome State Fault Refusal :=
  .next (s.scalar (.or x d a b) d a b (· ||| ·))

def execXor (x : CtxId) (d a b : Reg5) (s : State) : Host.Outcome State Fault Refusal :=
  .next (s.scalar (.xor x d a b) d a b (· ^^^ ·))

/-- The shift count b[5:0]. -/
def shamt (b : Word) : Nat := b.toNat % 64

def execSll (x : CtxId) (d a b : Reg5) (s : State) : Host.Outcome State Fault Refusal :=
  .next (s.scalar (.sll x d a b) d a b fun u v => u <<< shamt v)

def execSrl (x : CtxId) (d a b : Reg5) (s : State) : Host.Outcome State Fault Refusal :=
  .next (s.scalar (.srl x d a b) d a b fun u v => u >>> shamt v)

def execSra (x : CtxId) (d a b : Reg5) (s : State) : Host.Outcome State Fault Refusal :=
  .next (s.scalar (.sra x d a b) d a b fun u v => u.sshiftRight (shamt v))

def boolWord (p : Bool) : Word := if p then 1 else 0

def execSlt (x : CtxId) (d a b : Reg5) (s : State) : Host.Outcome State Fault Refusal :=
  .next (s.scalar (.slt x d a b) d a b fun u v => boolWord (u.slt v))

def execSltu (x : CtxId) (d a b : Reg5) (s : State) : Host.Outcome State Fault Refusal :=
  .next (s.scalar (.sltu x d a b) d a b fun u v => boolWord (u.ult v))

def execMin (x : CtxId) (d a b : Reg5) (s : State) : Host.Outcome State Fault Refusal :=
  .next (s.scalar (.min x d a b) d a b fun u v => if v.slt u then v else u)

def execMax (x : CtxId) (d a b : Reg5) (s : State) : Host.Outcome State Fault Refusal :=
  .next (s.scalar (.max x d a b) d a b fun u v => if u.slt v then v else u)

def execMinu (x : CtxId) (d a b : Reg5) (s : State) : Host.Outcome State Fault Refusal :=
  .next (s.scalar (.minu x d a b) d a b fun u v => if v.ult u then v else u)

def execMaxu (x : CtxId) (d a b : Reg5) (s : State) : Host.Outcome State Fault Refusal :=
  .next (s.scalar (.maxu x d a b) d a b fun u v => if u.ult v then v else u)

def execMul (x : CtxId) (d a b : Reg5) (s : State) : Host.Outcome State Fault Refusal :=
  .next (s.scalar (.mul x d a b) d a b (· * ·))

def execMulhu (x : CtxId) (d a b : Reg5) (s : State) : Host.Outcome State Fault Refusal :=
  .next (s.scalar (.mulhu x d a b) d a b fun u v => BitVec.ofNat 64 (u.toNat * v.toNat / 2 ^ 64))

/-- d = a op imm. -/
def State.immediate (s : State) (i : Instr) (d a : Reg5) (f : Word → Word) : State :=
  s.regOp i fun c => c.setS d (f (c.s a))

def execAddi (x : CtxId) (d a : Reg5) (imm : BitVec 16) (s : State) : Host.Outcome State Fault Refusal :=
  .next (s.immediate (.addi x d a imm) d a (· + sext16 imm))

def execAndi (x : CtxId) (d a : Reg5) (imm : BitVec 16) (s : State) : Host.Outcome State Fault Refusal :=
  .next (s.immediate (.andi x d a imm) d a (· &&& imm.setWidth 64))

def execOri (x : CtxId) (d a : Reg5) (imm : BitVec 16) (s : State) : Host.Outcome State Fault Refusal :=
  .next (s.immediate (.ori x d a imm) d a (· ||| imm.setWidth 64))

def execXori (x : CtxId) (d a : Reg5) (imm : BitVec 16) (s : State) : Host.Outcome State Fault Refusal :=
  .next (s.immediate (.xori x d a imm) d a (· ^^^ imm.setWidth 64))

def execSlli (x : CtxId) (d a : Reg5) (sh : BitVec 6) (s : State) : Host.Outcome State Fault Refusal :=
  .next (s.immediate (.slli x d a sh) d a (· <<< sh.toNat))

def execSrli (x : CtxId) (d a : Reg5) (sh : BitVec 6) (s : State) : Host.Outcome State Fault Refusal :=
  .next (s.immediate (.srli x d a sh) d a (· >>> sh.toNat))

def execSrai (x : CtxId) (d a : Reg5) (sh : BitVec 6) (s : State) : Host.Outcome State Fault Refusal :=
  .next (s.immediate (.srai x d a sh) d a (·.sshiftRight sh.toNat))

def execSlti (x : CtxId) (d a : Reg5) (imm : BitVec 16) (s : State) : Host.Outcome State Fault Refusal :=
  .next (s.immediate (.slti x d a imm) d a fun u => boolWord (u.slt (sext16 imm)))

def execLui (x : CtxId) (d : Reg5) (imm : BitVec 16) (s : State) : Host.Outcome State Fault Refusal :=
  .next (s.regOp (.lui x d imm) fun c => c.setS d (sext16 imm <<< 16))

def execCsrr (x : CtxId) (d : Reg5) (num : BitVec 12) (s : State) : Host.Outcome State Fault Refusal :=
  .next (s.issue (.csrr x d num) fun s x c vec => s.retire x vec (c.setS d (s.special x c num.toNat)))

def execCsrw (x : CtxId) (a : Reg5) (num : BitVec 12) (s : State) : Host.Outcome State Fault Refusal :=
  .next (s.regOp (.csrw x a num) fun c => c.writeSpecial num.toNat (c.s a))

/-! ## Local data memory (08 R184, R186, R191) -/

/-- The 64 bits at an aligned local address. -/
def PipCtx.ldw (c : PipCtx) (a : Nat) : Word := c.mem.getD (a / 8) 0

def PipCtx.stw (c : PipCtx) (a : Nat) (v : Word) : PipCtx := { c with mem := c.mem.setD (a / 8) 0 v }

/-- The 64 bytes at an aligned local address. -/
def PipCtx.ldv (c : PipCtx) (a : Nat) : Flit :=
  (List.range 8).foldl (fun (f : Flit) k => f ||| ((c.ldw (a + 8 * k)).setWidth 512 <<< (64 * k))) 0

def PipCtx.stv (c : PipCtx) (a : Nat) (v : Flit) : PipCtx :=
  (List.range 8).foldl (fun c k => c.stw (a + 8 * k) (BitVec.extractLsb' (64 * k) 64 v)) c

/-- A local access of `n` bytes: outside the window LDM_RANGE, misaligned ALIGN, else `f` at its address. -/
def State.localAccess (s : State) (x : CtxId) (c : PipCtx) (addr : Word) (n : Nat) (f : Nat → State) : State :=
  if 65536 < addr.toNat + n then s.trap x c 0
  else if addr.toNat % n ≠ 0 then s.trap x c 1
  else f addr.toNat

/-- One local word read under SECDED (08 R186): a single-bit error is corrected and recorded, a double-bit error fences the
core. -/
def State.localRead (s : State) (x : CtxId) (c : PipCtx) (e : Ecc) (f : State → State) : State :=
  let u := s.evaluate E.pipLdmUe x.core (e = .ue)
  if u.2.1 then u.1.coreFail x.core E.pipLdmUe c.info (c.info2 x) u.2.2
  else
    let k := u.1.evaluate E.pipLdmCe x.core (match e with | .ce _ => true | _ => false)
    f (if k.2.1 then k.1.coreCorrected x.core E.pipLdmCe c.info (c.info2 x) k.2.2 else k.1)

def execLd (x : CtxId) (d a : Reg5) (imm : BitVec 16) (e : Ecc) (s : State) : Host.Outcome State Fault Refusal :=
  .next (s.issue (.ld x d a imm e) fun s x c vec => s.localAccess x c (c.s a + sext16 imm) 8 fun m =>
    s.localRead x c e fun s => s.retire x vec (c.setS d (c.ldw m)))

def execSt (x : CtxId) (d a : Reg5) (imm : BitVec 16) (s : State) : Host.Outcome State Fault Refusal :=
  .next (s.issue (.st x d a imm) fun s x c vec => s.localAccess x c (c.s a + sext16 imm) 8 fun m =>
    s.retire x vec (c.stw m (c.s d)))

def execLw (x : CtxId) (d a : Reg5) (imm : BitVec 16) (e : Ecc) (s : State) : Host.Outcome State Fault Refusal :=
  .next (s.issue (.lw x d a imm e) fun s x c vec => s.localAccess x c (c.s a + sext16 imm) 4 fun m =>
    s.localRead x c e fun s => s.retire x vec (c.setS d (BitVec.ofNat 64 (bitsOf (c.ldw m) (8 * (m % 8)) 32))))

def execSw (x : CtxId) (d a : Reg5) (imm : BitVec 16) (s : State) : Host.Outcome State Fault Refusal :=
  .next (s.issue (.sw x d a imm) fun s x c vec => s.localAccess x c (c.s a + sext16 imm) 4 fun m =>
    s.retire x vec (c.stw m (withBits (c.ldw m) (8 * (m % 8)) 32 ((c.s d).toNat % 2 ^ 32))))

/-- The byte address of an M format operand: a + 64 · imm. -/
def PipCtx.at64 (c : PipCtx) (a : Reg5) (imm : BitVec 16) : Word := c.s a + sext16 imm * 64

def execVld (x : CtxId) (vd a : Reg5) (imm : BitVec 16) (e : Ecc) (s : State) : Host.Outcome State Fault Refusal :=
  .next (s.issue (.vld x vd a imm e) fun s x c vec => s.localAccess x c (c.at64 a imm) 64 fun m =>
    s.localRead x c e fun s => s.retire x vec (c.setV vd (c.ldv m)))

def execVst (x : CtxId) (vd a : Reg5) (imm : BitVec 16) (s : State) : Host.Outcome State Fault Refusal :=
  .next (s.issue (.vst x vd a imm) fun s x c vec => s.localAccess x c (c.at64 a imm) 64 fun m =>
    s.retire x vec (c.stv m (c.v vd)))

/-! ## Branches (08 R191) -/

/-- The address `off` instructions from the context's pc. [DEDUCED log 52] -/
def PipCtx.target (c : PipCtx) (off : Int) : Nat := ((c.pc : Int) + 4 * off).toNat

/-- if a cmp b: pc += 4 · off. -/
def State.branch (s : State) (i : Instr) (a b : Reg5) (off : BitVec 16) (cmp : Word → Word → Bool) : State :=
  s.issue i fun s x c vec => s.retireAt x vec c (if cmp (c.s a) (c.s b) then c.target off.toInt else c.pc + 4)

def execBeq (x : CtxId) (a b : Reg5) (off : BitVec 16) (s : State) : Host.Outcome State Fault Refusal :=
  .next (s.branch (.beq x a b off) a b off fun u v => u == v)

def execBne (x : CtxId) (a b : Reg5) (off : BitVec 16) (s : State) : Host.Outcome State Fault Refusal :=
  .next (s.branch (.bne x a b off) a b off fun u v => u != v)

def execBlt (x : CtxId) (a b : Reg5) (off : BitVec 16) (s : State) : Host.Outcome State Fault Refusal :=
  .next (s.branch (.blt x a b off) a b off fun u v => u.slt v)

def execBge (x : CtxId) (a b : Reg5) (off : BitVec 16) (s : State) : Host.Outcome State Fault Refusal :=
  .next (s.branch (.bge x a b off) a b off fun u v => !u.slt v)

def execBltu (x : CtxId) (a b : Reg5) (off : BitVec 16) (s : State) : Host.Outcome State Fault Refusal :=
  .next (s.branch (.bltu x a b off) a b off fun u v => u.ult v)

def execBgeu (x : CtxId) (a b : Reg5) (off : BitVec 16) (s : State) : Host.Outcome State Fault Refusal :=
  .next (s.branch (.bgeu x a b off) a b off fun u v => !u.ult v)

def execJal (x : CtxId) (off : BitVec 26) (s : State) : Host.Outcome State Fault Refusal :=
  .next (s.issue (.jal x off) fun s x c vec =>
    s.retireAt x vec (c.setS 31 (BitVec.ofNat 64 (c.pc + 4))) (c.target off.toInt))

/-- [DEDUCED log 52] -/
def execRet (x : CtxId) (s : State) : Host.Outcome State Fault Refusal :=
  .next (s.issue (.ret x) fun s x c vec =>
    let t := (c.s 31).toNat
    if t % 4 = 0 && t / 4 < s.codeLen c.program then s.retireAt x vec c t else s.trap x c 2)

end Sys2Proof.Machine
end

