-- ==== Sys2Proof/Machine/PipVec.lean ====
section
/-! DEFINITION. The vector instructions of the reduction cores (08 R189, R191, R192): lanes and predicates, arithmetic,
comparisons, moves, conversions and predicate registers. -/

namespace Sys2Proof.Machine

/-! ## Results under a mask (08 R187, R191) -/

/-- Whether every lane of a format is on. -/
def PipCtx.allOn (c : PipCtx) (pr : BitVec 3) (f : Nat) : Bool := (List.range (lanesOf f)).all (c.on pr)

/-- Write lanes of a format that is not MX: lane i takes `g i` where it is on, and only those lanes raise flags. -/
def PipCtx.lanes (c : PipCtx) (f : Nat) (vd : Reg5) (pr : BitVec 3) (sel : Nat → Bool) (g : Nat → Nat × Flags) : PipCtx :=
  let r := (List.range (lanesOf f)).foldl (fun (r : Flit × Flags) i =>
    if c.on pr i && sel i then
      let y := g i
      (laneSet f r.1 i y.1, r.2 ||| y.2)
    else r) (c.v vd, 0)
  (c.setV vd r.1).flag r.2

/-- Write blocks of an MX format: the lanes that are on take the codes, and a block with a lane on takes the scale. -/
def PipCtx.blocks (c : PipCtx) (f : Nat) (vd : Reg5) (pr : BitVec 3) (bs : List Nat) (g : Nat → Block32 × Flags) : PipCtx :=
  let r := bs.foldl (fun (r : Flit × Flags) b =>
    let on := (List.range 32).filter fun i => c.on pr (32 * b + i)
    if on = [] then r
    else
      let y := g b
      let w := on.foldl (fun w i => laneSet f w (32 * b + i) (y.1.2.getD i 0)) r.1
      (scaleSet w b y.1.1, r.2 ||| y.2)) (c.v vd, 0)
  (c.setV vd r.1).flag r.2

/-- The arithmetic mode of a context: INT32 by INTMODE, E5M2 overflow by the binding. -/
def State.mode (s : State) (c : PipCtx) : ArithMode :=
  { e5Inf := ((s.bindingOf c.slot).map fun p => p.1.e5m2Inf).getD false, sat := c.intmode.getLsbD 0 }

/-- A vector instruction that changes only the context's registers. -/
def State.vecOp (s : State) (i : Instr) (g : ArithMode → PipCtx → PipCtx) : State :=
  s.issue i fun s x c vec => s.retire x vec (g (s.mode c) c)

/-! ## Arithmetic -/

/-- Elementwise add or subtract. -/
def PipCtx.addSub (c : PipCtx) (md : ArithMode) (neg : Bool) (f : Nat) (vd va vb : Reg5) (pr : BitVec 3) : PipCtx :=
  let a := c.v va
  let b := c.v vb
  if isMx f then
    let flip (x : Block32) : Block32 := if neg then (x.1, x.2.map fun k => k ^^^ 2 ^ ((mxFmt f).bits - 1)) else x
    c.blocks f vd pr [0, 1] fun k => addBlocks f (blockGet f a k) (flip (blockGet f b k))
  else if f = 7 then
    c.lanes f vd pr (fun _ => true) fun i =>
      let y := sint32 (laneGet f b i)
      int32Of md.sat (sint32 (laneGet f a i) + if neg then -y else y)
  else
    c.lanes f vd pr (fun _ => true) fun i =>
      let y := laneNum f b i
      lane1 f md (addNum (laneNum f a i) (if neg then negNum y else y))

def execVadd (x : CtxId) (vd va vb : Reg5) (pr : BitVec 3) (fmt : BitVec 4) (s : State) : Host.Outcome State Fault Refusal :=
  .next (s.vecOp (.vadd x vd va vb pr fmt) fun md c => c.addSub md false fmt.toNat vd va vb pr)

def execVsub (x : CtxId) (vd va vb : Reg5) (pr : BitVec 3) (fmt : BitVec 4) (s : State) : Host.Outcome State Fault Refusal :=
  .next (s.vecOp (.vsub x vd va vb pr fmt) fun md c => c.addSub md true fmt.toNat vd va vb pr)

/-- One product lane: one rounding; INT32 by INTMODE. -/
def mulLane (f : Nat) (md : ArithMode) (a b : Flit) (i : Nat) : Nat × Flags :=
  if f = 7 then int32Of md.sat (sint32 (laneGet f a i) * sint32 (laneGet f b i))
  else lane1 f md (mulNum (laneNum f a i) (laneNum f b i))

def execVmul (x : CtxId) (vd va vb : Reg5) (pr : BitVec 3) (fmt : BitVec 4) (s : State) : Host.Outcome State Fault Refusal :=
  .next (s.vecOp (.vmul x vd va vb pr fmt) fun md c =>
    c.lanes fmt.toNat vd pr (fun _ => true) (mulLane fmt.toNat md (c.v va) (c.v vb)))

/-- One fused multiply-add lane: vd + va · vb, exact product, one rounding (06 R162). -/
def fmaLane (f : Nat) (md : ArithMode) (acc a b : Flit) (i : Nat) : Nat × Flags :=
  lane1 f md (fmaNum (laneNum f acc i) (laneNum f a i) (laneNum f b i))

def execVfma (x : CtxId) (vd va vb : Reg5) (pr : BitVec 3) (fmt : BitVec 4) (s : State) : Host.Outcome State Fault Refusal :=
  .next (s.vecOp (.vfma x vd va vb pr fmt) fun md c =>
    c.lanes fmt.toNat vd pr (fun _ => true) (fmaLane fmt.toNat md (c.v vd) (c.v va) (c.v vb)))

/-- One MAX or MIN lane (06 R147). -/
def maxMinLane (f : Nat) (isMin : Bool) (a b : Flit) (i : Nat) : Nat × Flags :=
  let u := laneNum f a i
  let v := laneNum f b i
  if u = .nan || v = .nan then ((((fmtOf f).bind (·.nan)).getD 0), Flags.nanIn)
  else (laneGet f (if (if isMin then ltNum v u else ltNum u v) then b else a) i, 0)

def execVmax (x : CtxId) (vd va vb : Reg5) (pr : BitVec 3) (fmt : BitVec 4) (s : State) : Host.Outcome State Fault Refusal :=
  .next (s.vecOp (.vmax x vd va vb pr fmt) fun _ c =>
    c.lanes fmt.toNat vd pr (fun _ => true) (maxMinLane fmt.toNat false (c.v va) (c.v vb)))

def execVmin (x : CtxId) (vd va vb : Reg5) (pr : BitVec 3) (fmt : BitVec 4) (s : State) : Host.Outcome State Fault Refusal :=
  .next (s.vecOp (.vmin x vd va vb pr fmt) fun _ c =>
    c.lanes fmt.toNat vd pr (fun _ => true) (maxMinLane fmt.toNat true (c.v va) (c.v vb)))

/-- The sign of every lane inverted or cleared; a NaN gives the canonical NaN, INT32 wraps or saturates. -/
def PipCtx.signOp (c : PipCtx) (md : ArithMode) (clear : Bool) (f : Nat) (vd va : Reg5) (pr : BitVec 3) : PipCtx :=
  let a := c.v va
  let sign (bits k : Nat) : Nat := if clear then k % 2 ^ (bits - 1) else k ^^^ 2 ^ (bits - 1)
  if isMx f then
    c.blocks f vd pr [0, 1] fun k =>
      let x := blockGet f a k
      if x.1 = 0xFF then ((0xFF, x.2.map fun _ => 0), Flags.nanIn) else ((x.1, x.2.map (sign (mxFmt f).bits)), 0)
  else
    c.lanes f vd pr (fun _ => true) fun i =>
      let k := laneGet f a i
      match fmtOf f with
      | none => let v := sint32 k; int32Of md.sat (if clear then v.natAbs else -v)
      | some ft => if decodeFp ft k = .nan then (ft.nan.getD 0, Flags.nanIn) else (sign ft.bits k, 0)

def execVneg (x : CtxId) (vd va : Reg5) (pr : BitVec 3) (fmt : BitVec 4) (s : State) : Host.Outcome State Fault Refusal :=
  .next (s.vecOp (.vneg x vd va pr fmt) fun md c => c.signOp md false fmt.toNat vd va pr)

def execVabs (x : CtxId) (vd va : Reg5) (pr : BitVec 3) (fmt : BitVec 4) (s : State) : Host.Outcome State Fault Refusal :=
  .next (s.vecOp (.vabs x vd va pr fmt) fun md c => c.signOp md true fmt.toNat vd va pr)

/-- FP32 quotient, correctly rounded. -/
def execVdiv (x : CtxId) (vd va vb : Reg5) (pr : BitVec 3) (s : State) : Host.Outcome State Fault Refusal :=
  .next (s.vecOp (.vdiv x vd va vb pr) fun md c =>
    c.lanes 0 vd pr (fun _ => true) fun i => lane1 0 md (divNum (laneNum 0 (c.v va) i) (laneNum 0 (c.v vb) i)))

/-- FP32 square root, correctly rounded. -/
def execVsqrt (x : CtxId) (vd va : Reg5) (pr : BitVec 3) (s : State) : Host.Outcome State Fault Refusal :=
  .next (s.vecOp (.vsqrt x vd va pr) fun md c =>
    c.lanes 0 vd pr (fun _ => true) fun i => lane1 0 md (sqrtNum (laneNum 0 (c.v va) i)))

/-! ## Comparisons -/

/-- p(pd) bit i = comparison of lane i where lane i is on; the other bits keep their value. -/
def PipCtx.compare (c : PipCtx) (f : Nat) (pd : BitVec 3) (va vb : Reg5) (pr : BitVec 3) (t : Num → Num → Bool) : PipCtx :=
  c.setP pd ((List.range (lanesOf f)).foldl (fun (w : Word) i =>
    if c.on pr i then
      (if t (laneNum f (c.v va) i) (laneNum f (c.v vb) i) then w ||| ((1 : Word) <<< i) else w &&& ~~~((1 : Word) <<< i))
    else w) (c.p pd))

def unordered (a b : Num) : Bool := a = .nan || b = .nan

def execVcmpeq (x : CtxId) (pd : BitVec 3) (va vb : Reg5) (pr : BitVec 3) (fmt : BitVec 4) (s : State) :
    Host.Outcome State Fault Refusal :=
  .next (s.vecOp (.vcmpeq x pd va vb pr fmt) fun _ c =>
    c.compare fmt.toNat pd va vb pr fun a b => !unordered a b && eqNum a b)

def execVcmplt (x : CtxId) (pd : BitVec 3) (va vb : Reg5) (pr : BitVec 3) (fmt : BitVec 4) (s : State) :
    Host.Outcome State Fault Refusal :=
  .next (s.vecOp (.vcmplt x pd va vb pr fmt) fun _ c =>
    c.compare fmt.toNat pd va vb pr fun a b => !unordered a b && !eqNum a b && ltNum a b)

def execVcmple (x : CtxId) (pd : BitVec 3) (va vb : Reg5) (pr : BitVec 3) (fmt : BitVec 4) (s : State) :
    Host.Outcome State Fault Refusal :=
  .next (s.vecOp (.vcmple x pd va vb pr fmt) fun _ c =>
    c.compare fmt.toNat pd va vb pr fun a b => !unordered a b && (eqNum a b || ltNum a b))

def execVcmpun (x : CtxId) (pd : BitVec 3) (va vb : Reg5) (pr : BitVec 3) (fmt : BitVec 4) (s : State) :
    Host.Outcome State Fault Refusal :=
  .next (s.vecOp (.vcmpun x pd va vb pr fmt) fun _ c => c.compare fmt.toNat pd va vb pr unordered)

/-! ## Bitwise operations and moves -/

/-- Bitwise, by lanes of FMT 0 under the mask. -/
def PipCtx.bitwise (c : PipCtx) (vd va vb : Reg5) (pr : BitVec 3) (g : Nat → Nat → Nat) : PipCtx :=
  c.lanes 0 vd pr (fun _ => true) fun i => (g (laneGet 0 (c.v va) i) (laneGet 0 (c.v vb) i), 0)

def execVand (x : CtxId) (vd va vb : Reg5) (pr : BitVec 3) (s : State) : Host.Outcome State Fault Refusal :=
  .next (s.vecOp (.vand x vd va vb pr) fun _ c => c.bitwise vd va vb pr (· &&& ·))

def execVor (x : CtxId) (vd va vb : Reg5) (pr : BitVec 3) (s : State) : Host.Outcome State Fault Refusal :=
  .next (s.vecOp (.vor x vd va vb pr) fun _ c => c.bitwise vd va vb pr (· ||| ·))

def execVxor (x : CtxId) (vd va vb : Reg5) (pr : BitVec 3) (s : State) : Host.Outcome State Fault Refusal :=
  .next (s.vecOp (.vxor x vd va vb pr) fun _ c => c.bitwise vd va vb pr (· ^^^ ·))

/-- Every lane from va where its predicate bit is 1, from vb where it is 0. A block that mixes both takes a free scale: the
spec gives none. [DESIGN CHOICE log 45] -/
def PipCtx.select (c : PipCtx) (f : Nat) (vd va vb : Reg5) (pr : BitVec 3) (free : Nat) : PipCtx :=
  let a := c.v va
  let b := c.v vb
  let pick (i : Nat) : Bool := (c.p pr).getLsbD i
  let w := (List.range (lanesOf f)).foldl (fun w i => laneSet f w i (laneGet f (if pick i then a else b) i)) (c.v vd)
  if isMx f then
    c.setV vd ([0, 1].foldl (fun w k =>
      let ps := (List.range 32).map fun i => pick (32 * k + i)
      let sa := scaleGet a k
      let sb := scaleGet b k
      scaleSet w k (if ps.all id then sa else if ps.all (!·) then sb else if sa = sb then sa else free % 256)) w)
  else c.setV vd w

def execVsel (x : CtxId) (vd va vb : Reg5) (pr : BitVec 3) (fmt : BitVec 4) (s : State) : Host.Outcome State Fault Refusal :=
  .next (s.issue (.vsel x vd va vb pr fmt) fun s x c vec =>
    let d := s.draw
    d.2.retire x vec (c.select fmt.toNat vd va vb pr (Config.freeNat d.1)))

def execVmov (x : CtxId) (vd va : Reg5) (pr : BitVec 3) (fmt : BitVec 4) (s : State) : Host.Outcome State Fault Refusal :=
  .next (s.vecOp (.vmov x vd va pr fmt) fun _ c =>
    let f := fmt.toNat
    if c.allOn pr f then c.setV vd (c.v va)
    else if isMx f then c.blocks f vd pr [0, 1] fun k => (blockGet f (c.v va) k, 0)
    else c.lanes f vd pr (fun _ => true) fun i => (laneGet f (c.v va) i, 0))

def execVsplat (x : CtxId) (vd a : Reg5) (pr : BitVec 3) (fmt : BitVec 4) (s : State) : Host.Outcome State Fault Refusal :=
  .next (s.vecOp (.vsplat x vd a pr fmt) fun _ c => c.lanes fmt.toNat vd pr (fun _ => true) fun _ => ((c.s a).toNat, 0))

def execVextr (x : CtxId) (d va b : Reg5) (fmt : BitVec 4) (s : State) : Host.Outcome State Fault Refusal :=
  .next (s.vecOp (.vextr x d va b fmt) fun _ c =>
    c.setS d (BitVec.ofNat 64 (laneGet fmt.toNat (c.v va) ((c.s b).toNat % Nat.max 1 (lanesOf fmt.toNat)))))

def execVinsr (x : CtxId) (vd a b : Reg5) (fmt : BitVec 4) (s : State) : Host.Outcome State Fault Refusal :=
  .next (s.vecOp (.vinsr x vd a b fmt) fun _ c =>
    c.setV vd (laneSet fmt.toNat (c.v vd) ((c.s b).toNat % Nat.max 1 (lanesOf fmt.toNat)) (c.s a).toNat))

/-! ## Conversions (08 R192; 06 R158) -/

/-- The exact values of a register's lanes in any format. -/
def wordNums (f : Nat) (w : Flit) : List Num :=
  if isMx f then blockNums f (blockGet f w 0) ++ blockNums f (blockGet f w 1)
  else (List.range (lanesOf f)).map (laneNum f w)

def PipCtx.convert (c : PipCtx) (src dst part : Nat) (vd va : Reg5) (pr : BitVec 3) : PipCtx :=
  let a := c.v va
  let es := lanesOf src
  let ed := lanesOf dst
  let n := Nat.min es ed
  if isMx dst then
    if src = dst then c.blocks dst vd pr [0, 1] fun k => copyBlock (blockGet src a k)
    else if es = 16 then
      c.blocks dst vd pr [part % 2] fun _ => quantize dst (wordNums src a ++ wordNums src (c.v (va + 1)))
    else if es = 32 then c.blocks dst vd pr [part % 2] fun _ => quantize dst (wordNums src a)
    else c.blocks dst vd pr [0, 1] fun k => quantize dst (((wordNums src a).drop (32 * k)).take 32)
  else
    let at_ (j : Nat) : Nat := if n < es then part * n + j else j
    let lo := if n < ed then part * n else 0
    let xs := wordNums src a
    c.lanes dst vd pr (fun i => lo ≤ i && i < lo + n) fun i =>
      convertLane src dst (xs.getD (at_ (i - lo)) (.fin false 0 0)) (laneGet src a (at_ (i - lo)))

def execVcvt (x : CtxId) (vd va : Reg5) (tf : BitVec 3) (part : BitVec 2) (pr : BitVec 3) (fmt : BitVec 4) (s : State) :
    Host.Outcome State Fault Refusal :=
  .next (s.vecOp (.vcvt x vd va tf part pr fmt) fun _ c => c.convert fmt.toNat tf.toNat part.toNat vd va pr)

/-! ## Predicate registers -/

def execPmov (x : CtxId) (pd : BitVec 3) (a : Reg5) (s : State) : Host.Outcome State Fault Refusal :=
  .next (s.regOp (.pmov x pd a) fun c => c.setP pd (c.s a))

def execPread (x : CtxId) (d : Reg5) (pa : BitVec 3) (s : State) : Host.Outcome State Fault Refusal :=
  .next (s.regOp (.pread x d pa) fun c => c.setS d (c.p pa))

def execPand (x : CtxId) (pd pa pb : BitVec 3) (s : State) : Host.Outcome State Fault Refusal :=
  .next (s.regOp (.pand x pd pa pb) fun c => c.setP pd (c.p pa &&& c.p pb))

def execPor (x : CtxId) (pd pa pb : BitVec 3) (s : State) : Host.Outcome State Fault Refusal :=
  .next (s.regOp (.por x pd pa pb) fun c => c.setP pd (c.p pa ||| c.p pb))

def execPnot (x : CtxId) (pd pa : BitVec 3) (s : State) : Host.Outcome State Fault Refusal :=
  .next (s.regOp (.pnot x pd pa) fun c => c.setP pd (~~~(c.p pa)))

end Sys2Proof.Machine
end

