-- ==== Sys2Proof/Machine/PipBank.lean ====
section
/-! DEFINITION. The reduction cores' access to the stores, the fabric and the instance (08 R193 to R203, R213, R214): bank
operations, messages, DMA, waits, reports and checkpoints. -/

namespace Sys2Proof.Machine

/-! ## Bank access (08 R193 to R196) -/

/-- Whether `n` bytes from a bank space address lie in an area of a slot's step. -/
def State.inArea (s : State) (slot step a n : Nat) : Bool :=
  match s.bindingOf slot with
  | none => false
  | some (b, g) =>
    let r := s.resBase slot step b
    let t := s.stgBase slot step b g
    (r ≤ a && a + n ≤ r + b.resBytes) || (t ≠ 0 && t ≤ a && a + n ≤ t + b.stgBytes (s.stgRanks slot g))

/-- Whether a context may access `n` bytes: its instance's areas; a COMBINE context may also read its PAIR slot's areas of
the same step (09 R228). -/
def State.mayAccess (s : State) (c : PipCtx) (a n : Nat) (write : Bool) : Bool :=
  let pair : Bool := match s.bindingOf c.slot with
    | some (b, _) => b.op = 7 && !write && b.pair / 1024 = c.slot / 1024 && s.inArea b.pair c.step a n
    | none => false
  (n = 0 || s.bankInRange (c.slot / 1024) (a + n - 1)) && (s.inArea c.slot c.step a n || pair)

/-- A bank operation of a context at a computed address: BANK_RANGE, ALIGN, a full queue, or `f` at the address. -/
def State.bankAccess (s : State) (x : CtxId) (c : PipCtx) (addr : Word) (write : Bool) (f : Nat → State) : State :=
  let a := addr.toNat
  if !s.mayAccess c a 64 write then s.trap x c 3
  else if a % 64 ≠ 0 then s.trap x c 1
  else if 16 ≤ c.bankOps || s.recarve.contains (x.core / 32) then s.stall x c
  else f a

/-- The operation takes a queue entry and the instruction completes. -/
def State.bankRetire (s : State) (x : CtxId) (vec : Bool) (c : PipCtx) : State :=
  (s.retire x vec { c with bankOps := c.bankOps + 1 }).ev (U.core x.core) 0x04

/-- What a read returns: zero data from an EMPTY or poisoned word, with BSTAT. -/
def PipCtx.readBank (c : PipCtx) (vd : Reg5) (w : BankWord) : PipCtx :=
  let c := if w.empty then c.bset 1 else c
  let c := if w.poison then c.bset 2 else c
  c.setV vd (if w.poison || w.empty then 0 else w.data)

def execBld (x : CtxId) (vd a : Reg5) (imm : BitVec 16) (e : Ecc) (s : State) : Host.Outcome State Fault Refusal :=
  .next (s.issue (.bld x vd a imm e) fun s x c vec => s.bankAccess x c (c.at64 a imm) false fun m =>
    let r := s.bankReadWord (x.core / 32) m e
    r.1.bankRetire x vec (c.readBank vd r.2)).settle

def execBst (x : CtxId) (vd a : Reg5) (imm : BitVec 16) (lost : Bool) (s : State) : Host.Outcome State Fault Refusal :=
  .next (s.issue (.bst x vd a imm lost) fun s x c vec => s.bankAccess x c (c.at64 a imm) true fun m =>
    let q := x.core / 32
    if lost then
      (((s.ev (bankUnit q (s.placeOf q m)) 0x04).ev (U.core x.core) 0x05)).bankRetire x vec (c.bset 0)
    else (s.bankWrite q m (c.v vd)).bankRetire x vec c)

/-- One BATOM: `first` for an EMPTY word, `f` otherwise; the old word into vd when RET = 1; POISONED and flags. -/
def State.batom (s : State) (i : Instr) (vd a : Reg5) (ret : Bool) (imm : BitVec 8) (e : Ecc)
    (first : ArithMode → Flit → Flit × Flags) (f : ArithMode → Flit → Flit → Flit × Flags) : State :=
  s.issue i fun s x c vec => s.bankAccess x c (c.s a + imm.signExtend 64 * 64) true fun m =>
    let md := s.mode c
    let r := s.bankRmw (x.core / 32) m e (first md) (f md) (c.v vd)
    let w := r.2.1
    let c := if w.poison then c.bset 2 else c
    let c := if ret then c.setV vd (if w.poison || w.empty then 0 else w.data) else c
    r.1.bankRetire x vec (c.flag r.2.2)

def execBatomAdd (x : CtxId) (vd a : Reg5) (fmt : BitVec 4) (ret : Bool) (imm : BitVec 8) (e : Ecc) (s : State) :
    Host.Outcome State Fault Refusal :=
  .next (s.batom (.batomAdd x vd a fmt ret imm e) vd a ret imm e (fun _ => firstWord fmt.toNat) fun md =>
    addWord fmt.toNat md false).settle

def execBatomAddI32w (x : CtxId) (vd a : Reg5) (ret : Bool) (imm : BitVec 8) (e : Ecc) (s : State) :
    Host.Outcome State Fault Refusal :=
  .next (s.batom (.batomAddI32w x vd a ret imm e) vd a ret imm e (fun _ => firstWord 7) fun _ =>
    addWord 7 { sat := false } false).settle

def execBatomAddI32s (x : CtxId) (vd a : Reg5) (ret : Bool) (imm : BitVec 8) (e : Ecc) (s : State) :
    Host.Outcome State Fault Refusal :=
  .next (s.batom (.batomAddI32s x vd a ret imm e) vd a ret imm e (fun _ => firstWord 7) fun _ =>
    addWord 7 { sat := true } false).settle

def execBatomXacc32 (x : CtxId) (vd a : Reg5) (ret : Bool) (imm : BitVec 8) (e : Ecc) (s : State) :
    Host.Outcome State Fault Refusal :=
  .next (s.batom (.batomXacc32 x vd a ret imm e) vd a ret imm e (fun _ y => (y, 0)) fun _ => xaccWord 32).settle

def execBatomXacc64 (x : CtxId) (vd a : Reg5) (ret : Bool) (imm : BitVec 8) (e : Ecc) (s : State) :
    Host.Outcome State Fault Refusal :=
  .next (s.batom (.batomXacc64 x vd a ret imm e) vd a ret imm e (fun _ y => (y, 0)) fun _ => xaccWord 64).settle

def execBatomMax (x : CtxId) (vd a : Reg5) (fmt : BitVec 4) (ret : Bool) (imm : BitVec 8) (e : Ecc) (s : State) :
    Host.Outcome State Fault Refusal :=
  .next (s.batom (.batomMax x vd a fmt ret imm e) vd a ret imm e (fun _ => maxMinWord fmt.toNat false 0) fun _ =>
    maxMinWord fmt.toNat false).settle

def execBatomMin (x : CtxId) (vd a : Reg5) (fmt : BitVec 4) (ret : Bool) (imm : BitVec 8) (e : Ecc) (s : State) :
    Host.Outcome State Fault Refusal :=
  .next (s.batom (.batomMin x vd a fmt ret imm e) vd a ret imm e (fun _ => maxMinWord fmt.toNat true 0) fun _ =>
    maxMinWord fmt.toNat true).settle

def execBatomSwap (x : CtxId) (vd a : Reg5) (ret : Bool) (imm : BitVec 8) (e : Ecc) (s : State) :
    Host.Outcome State Fault Refusal :=
  .next (s.batom (.batomSwap x vd a ret imm e) vd a ret imm e (fun _ y => (y, 0)) fun _ _ y => (y, 0)).settle

/-- A bank operation of a context completes: its queue entry becomes free, and a stopped context may leave (08 R194, R203). -/
def State.bankOpDone (s : State) (x : CtxId) : State :=
  if (s.ctx (ctxNum x)).bankOps = 0 then s
  else (s.modCtx (ctxNum x) fun c => { c with bankOps := c.bankOps - 1 }).freeIfIdle x

/-! ## Channels (08 R198, R208; 09 R216) -/

/-- The module and slot that an OUT channel names through its PARAM register. -/
def State.chanTarget (s : State) (b : Binding) (ch : Nat) : Option (Nat × Nat) :=
  match (s.program? b.program).bind fun p => p.channels[ch]? with
  | some e =>
    if (BitVec.extractLsb' 0 2 e).toNat = 2 then
      let p := b.params.getD ((BitVec.extractLsb' 8 8 e).toNat) 0
      some (p % 2 ^ 12, p / 2 ^ 16 % 2 ^ 12)
    else none
  | none => none

/-! ## Sends (08 R200, R214) -/

/-- Descriptor fields of MSEND. -/
def dLen (d : BitVec 64) : Nat := bitsOf d 0 7
def dLast (d : BitVec 64) : Nat := bitsOf d 7 1
def dResent (d : BitVec 64) : Nat := bitsOf d 8 1
def dKind (d : BitVec 64) : Nat := bitsOf d 9 2
def dTarget (d : BitVec 64) : Nat := bitsOf d 12 12
def dFoff (d : BitVec 64) : Nat := bitsOf d 24 14
def dType (d : BitVec 64) : Nat := bitsOf d 62 2

/-- The bytes that a chunk holds in the store for a send; in a DISPATCH step the chunk after the records holds the slot map and
chunk 0xFFFFFF the bitmap (08 R200; 09 R226). -/
def Binding.sendBytes (b : Binding) (disc kind c : Nat) : Nat :=
  if b.op = 6 && c = 0xFFFFFF then b.mapBytes
  else if b.op = 6 && c = ceilDiv b.capacity b.chunkRecords then Nat.max b.chunk (4 * b.capacity)
  else if b.op = 6 || b.op = 7 || kind = 3 then b.chunk
  else b.elemsIn c * fmtBytes b.format * (if kind = 2 && disc = 2 && b.reduces then b.x else 1)

/-- The store words that a chunk holds for a send. -/
def Binding.sendLimit (b : Binding) (disc kind c : Nat) : Nat := ceilDiv (b.sendBytes disc kind c) 64

/-- Whether the words of a send are MX block cells. -/
def sendsMx (b : Binding) (kind c : Nat) : Bool := isMx b.format && c ≠ 0xFFFFFF && b.op ≠ 6 && b.op ≠ 7 && kind ≠ 3

/-- The wire bytes of the blocks in some MX words: for each group its scale flit, zero for absent blocks, then the element bytes of
the blocks present (06 R141). -/
def mxWire (f blocks : Nat) (cells : List Flit) : List Byte :=
  let bs := mxBlock f
  let cell (k : Nat) : List Byte := ((flitBytes (cells.getD (k / 2) 0)).drop (32 * (k % 2))).take 32
  (List.range (ceilDiv blocks 64)).flatMap fun gi =>
    let ks := (List.range (Nat.min 64 (blocks - 64 * gi))).map (64 * gi + ·)
    (ks.map fun k => (cell k).getD 24 0) ++ leBytes (64 - ks.length) 0 ++ ks.flatMap fun k => (cell k).take bs

/-- The payload of a send and its flit offset on the wire (06 R140, R141): the bytes of its words up to the last element of the
chunk. In MX the words are whole groups from the one that FOFF names. [DESIGN CHOICE log 45] -/
def sendPayload (b : Binding) (disc kind foff c : Nat) (ws : List Flit) : List Byte × Nat :=
  if sendsMx b kind c then
    (mxWire b.format (Nat.min (2 * ws.length) (ceilDiv (b.elemsIn c) 32 - 2 * foff)) ws, foff / 32 * mxGroup b.format)
  else ((ws.flatMap flitBytes).take (b.sendBytes disc kind c - 64 * foff), foff)

def execMsend (x : CtxId) (a b : Reg5) (s : State) : Host.Outcome State Fault Refusal :=
  .next (s.issue (.msend x a b) fun s x c vec =>
    let d := c.s b
    let m := (c.s a).toNat
    match s.bindingOf c.slot, s.inst? c.slot c.step with
    | some (bd, g), some i =>
      let n := 64 * dLen d
      if 64 < dLen d || bd.sendLimit i.disc (dKind d) (dChunk d) < dFoff d + dLen d ||
          (dKind d = 0 && g.count ≤ dTarget d) || (dKind d = 3 && (s.chanTarget bd (dTarget d % 16)).isNone) ||
          (dKind d = 2 && !c.helper) || 2 ≤ dType d then s.trap x c 5
      else if n ≠ 0 && !s.mayAccess c m n false then s.trap x c 3
      else if m % 64 ≠ 0 then s.trap x c 1
      else s.retire x vec { c with sends := c.sends ++ [{ addr := m, len := dLen d, desc := d }] }
    | _, _ => s)

/-- The key of a send in the record of R214: its chunk, target and KIND. -/
def sendKey (d : BitVec 64) : Nat := sentKey (dChunk d) (if dKind d = 1 then 0x1FF else dTarget d % 1024) (dKind d)

/-- Read a send's words through the draw path; answers them and whether one is poisoned. -/
def State.drawWords (s : State) (q a n : Nat) (reads : List Ecc) : State × List Flit × Bool :=
  (List.range n).foldl (fun (r : State × List Flit × Bool) k =>
    let w := r.1.bankReadWord q (a + 64 * k) (reads.getD k .clean)
    (w.1, r.2.1 ++ [w.2.value], r.2.2 || w.2.poison)) (s, [], false)

/-- Send a drawn packet, and keep what the instance must know of it. -/
def State.sendPacket (s : State) (slot step : Nat) (b : Binding) (g : Group) (i : Instance) (d : BitVec 64)
    (bytes : List Byte) (foff : Nat) : State :=
  let result : Bool := dType d = 0
  let h := hsets (s.collHdr slot step b g i.disc (if result then PT.result else PT.contrib))
    [(H.last, dLast d), (H.resent, dResent d), (H.chunk, dChunk d), (H.foff, foff)]
  let o : Origin := if result then .result slot step (dChunk d) else .other
  let r : State × Nat :=
    match dKind d with
    | 0 => (s.toRank slot g (dTarget d) h bytes o, 1)
    | 1 => s.toRanks slot g (s.rowsOf g) h bytes o
    | 2 => (s.originate (hsets h [(H.dst, s.homeOf slot), (H.dmod, 1)]) bytes (slot / 1024) 3 o, 1)
    | _ =>
      match s.chanTarget b (dTarget d % 16) with
      | some (m, sl) => (s.originate (hsets h [(H.dst, m), (H.dmod, 1), (H.slot, sl)]) bytes (slot / 1024) 3 o, 1)
      | none => (s, 0)
  match r.1.inst? slot step with
  | none => r.1
  | some i =>
    r.1.putInst slot step { i with
      results := if result then i.results.setD (dChunk d) 0 (i.results.getD (dChunk d) 0 + r.2) else i.results
      sentHi := i.sentHi.setD (sendKey d) 0 (Nat.max (i.sentHi.getD (sendKey d) 0) (dFoff d + dLen d + 1))
      lastSent := if dLast d = 1 && !i.lastSent.contains (sendKey d) then sendKey d :: i.lastSent else i.lastSent
      resent := if dResent d = 1 && i.faulted.contains (dChunk d) && !i.resent.contains (dChunk d) then
          dChunk d :: i.resent else i.resent }

/-- The oldest outstanding send of a context is drawn. A send of a repeated, recovered or vacant target completes without
sending, but none of a chunk sent again; a poisoned word sets SEND_POISONED. No result is drawn before every contributor was heard (05 R115). -/
def State.sendDrawn (s : State) (x : CtxId) (reads : List Ecc) : State :=
  let c := s.ctx (ctxNum x)
  match c.sends with
  | [] => s
  | sd :: rest =>
    match s.bindingOf c.slot, s.inst? c.slot c.step with
    | some (b, g), some i =>
      let d := sd.desc
      let q := c.slot / 1024
      if s.recarve.contains q then s
      else if dKind d ≤ 1 && !((s.contributors c.slot b g).all i.first.contains) then s
      else
        let s := s.putCtx (ctxNum x) { c with sends := rest }
        if c.restarted && dResent d = 0 && dFoff d + dLen d + 1 ≤ i.sentHi.getD (sendKey d) 0 then s.ev (U.core x.core) 0x07
        else if c.recoveryOf.isNone && i.recovering.contains (dChunk d) then s
        else if dKind d = 0 && g.vacant.contains (dTarget d) then s
        else
          let r := s.drawWords q sd.addr sd.len reads
          if r.2.2 then r.1.modCtx (ctxNum x) (·.bset 3)
          else
            let p := sendPayload b i.disc (dKind d) (dFoff d) (dChunk d) r.2.1
            ((r.1.sendPacket c.slot c.step b g i d p.1 p.2).ev (U.core x.core) 0x06)
    | _, _ => s

/-! ## Waits (08 R198, R199) -/

/-- [DEDUCED log 53] -/
def execMwait (x : CtxId) (d a b : Reg5) (chan : BitVec 4) (mode : Bool) (s : State) : Host.Outcome State Fault Refusal :=
  .next (s.issue (.mwait x d a b chan mode) fun s x c vec =>
    match s.bindingOf c.slot, s.inst? c.slot c.step, s.chanSource c.program chan.toNat with
    | some (bd, g), some i, some src =>
      let n := (c.s a).toNat
      if src ≠ 2 && bd.chunks ≤ n then s.trap x c 6
      else
        match s.waitAnswer c.slot bd g i src chan.toNat n (c.s b).toNat mode with
        | some r => s.retire x vec (c.setS d (BitVec.ofNat 64 r))
        | none => s.stall x c
    | _, _, _ => s)

/-- [DEDUCED log 53] -/
def execMrecv (x : CtxId) (d : Reg5) (chan : BitVec 4) (s : State) : Host.Outcome State Fault Refusal :=
  .next (s.issue (.mrecv x d chan) fun s x c vec =>
    let ch := chan.toNat
    -- the payload of the last message received on this channel is freed
    let c := { c with inboxUsed := c.inboxUsed - c.lastRecv.getD ch 0, lastRecv := c.lastRecv.setD ch 0 0 }
    match s.inst? c.slot c.step with
    | none => s
    | some i =>
      match i.descs.find? fun v => v.chan = ch with
      | none => (s.putCtx (ctxNum x) c).stall x c
      | some v =>
        let s := s.putInst c.slot c.step { i with descs := i.descs.erase v }
        s.retire x vec ({ c with lastRecv := c.lastRecv.setD ch 0 v.free }.setS d v.desc))

/-! ## DMA (08 R201) -/

/-- Whether a transfer breaks what 08 R201 asks of it (DMA_RANGE). -/
def State.dmaBad (s : State) (c : PipCtx) (faddr baddr bytes : Nat) (toMem : Bool) : Bool :=
  let slice := ((s.bindingOf c.slot).map fun p => p.2.dfn.slice).getD 0
  faddr % 64 ≠ 0 || baddr % 64 ≠ 0 || bytes = 0 || 1048576 < bytes || bytes % 64 ≠ 0 || s.memTop < faddr + bytes ||
    !s.regionOk slice faddr bytes toMem || !s.mayAccess c baddr bytes (!toMem)

/-- A transfer starts under the context's next tag. -/
def State.dmaStart (s : State) (x : CtxId) (c : PipCtx) (faddr baddr bytes : Nat) (toMem : Bool) : State × PipCtx :=
  let t : DmaTag := { tag := c.nextTag, faddr := faddr, baddr := baddr, bytes := bytes, toMem := toMem, order := s.dmaCount }
  (({ s with dmaCount := s.dmaCount + 1 }).ev (U.core x.core) 0x08, { c with dmas := c.dmas ++ [t], nextTag := c.nextTag + 1 })

/-- DMA: the descriptor is read from the window, checked, and the transfer starts under a new tag. -/
def execDma (x : CtxId) (d a : Reg5) (e : Ecc) (s : State) : Host.Outcome State Fault Refusal :=
  .next (s.issue (.dma x d a e) fun s x c vec => s.localAccess x c (c.s a) 32 fun m => s.localRead x c e fun s =>
    let w0 := c.ldw m
    let w1 := c.ldw (m + 8)
    let faddr := bitsOf w0 0 48
    let baddr := bitsOf w1 0 32
    let bytes := bitsOf w1 32 32
    let toMem := (c.ldw (m + 16)).getLsbD 0
    if s.dmaBad c faddr baddr bytes toMem then s.trap x c 4
    else if 8 ≤ (c.dmas.filter fun t => t.status.isNone).length then s.stall x c
    else
      let r := s.dmaStart x c faddr baddr bytes toMem
      r.1.retire x vec (r.2.setS d (BitVec.ofNat 64 c.nextTag)))

/-- Move the words of a transfer; answers whether a source word was poisoned. `reads` are the outcomes of the source words, `lost`
the words whose write to the store loses to port A in its slot and is discarded (07 R170). [DEDUCED log 53] -/
def State.dmaMove (s : State) (q : Nat) (t : DmaTag) (reads : List Ecc) (lost : List Nat) : State × Bool :=
  (List.range (t.bytes / 64)).foldl (fun (r : State × Bool) k =>
    let e := reads.getD k .clean
    let a := t.baddr + 64 * k
    if t.toMem then
      let w := r.1.bankReadWord q a e
      (w.1.writeMem (t.faddr + 64 * k) (flitBytes w.2.value) w.2.poison [], r.2 || w.2.poison)
    else
      let w := r.1.readMemWord ((t.faddr + 64 * k) / 64) e
      (if lost.contains k then w.1.ev (bankUnit q (w.1.placeOf q a)) 0x04
       else w.1.bankWrite q a (if w.2.2 then 0 else w.2.1) w.2.2, r.2 || w.2.2)) (s, false)

/-- The transfer of an update's control record: its word stands in the context; a poisoned one reads as zero (09 R232). [DESIGN CHOICE log 138] -/
def State.controlRead (s : State) (x : CtxId) (t : DmaTag) (reads : List Ecc) : State × Bool :=
  let w := s.readMemWord (t.faddr / 64) (reads.headD .clean)
  (w.1.modCtx (ctxNum x) fun c => { c with lib := { c.lib with ctl := if w.2.2 then 0 else w.2.1 } }, w.2.2)

/-- Whether an older transfer of a quadrant's DMA engine is still to come (08 R201). -/
def State.dmaBehind (s : State) (q order : Nat) : Bool :=
  s.ctxs.any fun e => e.1 / 128 = q && e.2.dmas.any fun t => t.status.isNone && t.order < order

/-- DMA_TRANSFER_COMPLETE: the oldest transfer of a quadrant is carried out, where it is the one named; none while the ports of the
stores are paused (07 R183). -/
def State.dmaComplete (s : State) (x : CtxId) (tag : Nat) (reads : List Ecc) (lost : List Nat) : State :=
  let c := s.ctx (ctxNum x)
  match c.dmas.find? fun t => t.status.isNone with
  | none => s
  | some t =>
    if t.tag ≠ tag || s.dmaBehind (x.core / 32) t.order || s.recarve.contains (x.core / 32) then s
    else
      let r := if t.toCtl then s.controlRead x t reads else s.dmaMove (x.core / 32) t reads lost
      (r.1.modCtx (ctxNum x) fun c => { c with dmas := c.dmas.map fun (u : DmaTag) =>
          if u.tag = tag then { u with status := some (if r.2 then 3 else 0) } else u }).freeIfIdle x

def execDmawait (x : CtxId) (d a : Reg5) (s : State) : Host.Outcome State Fault Refusal :=
  .next (s.issue (.dmawait x d a) fun s x c vec =>
    match c.dmas.find? fun t => t.tag = (c.s a).toNat && t.status.isSome with
    | none => s.stall x c
    | some t => s.retire x vec ({ c with dmas := c.dmas.filter fun u => u.tag ≠ t.tag }.setS d
        (BitVec.ofNat 64 (t.status.getD 0))))

/-! ## Fences and the end of a program (08 R197, R202) -/

def execFence (x : CtxId) (cls : BitVec 4) (s : State) : Host.Outcome State Fault Refusal :=
  .next (s.issue (.fence x cls) fun s x c vec => if c.quiet cls then s.retire x vec c else s.stall x c)

/-- IDONE: the context leaves the core and its program has ended; that of a recovery context ends only the context (09 R221). [DESIGN CHOICE log 48] -/
def State.programEnds (s : State) (x : CtxId) (c : PipCtx) : State :=
  let s := (s.putCtx (ctxNum x) {}).leaveInst x c fun i => match c.recoveryOf with
    | some k => { i with recovering := i.recovering.filter (· ≠ k) }
    | none => { i with programDone := true }
  (s.openNext c.slot c.step).tryComplete c.slot c.step

def execIdone (x : CtxId) (s : State) : Host.Outcome State Fault Refusal :=
  .next (s.issue (.idone x) fun s x c vec =>
    if !c.quiet 0xF then s.stall x c
    else ((s.ev (U.core x.core) (if vec then 2 else 1)).slotCount x.core 0).programEnds x c).settle

/-- IABORT: the instance ends PROGRAM_ABORT with the user code in its record. -/
def State.programAborts (s : State) (x : CtxId) (c : PipCtx) (code : Nat) : State :=
  let s := match s.inst? c.slot c.step with
    | some i => s.putInst c.slot c.step { i with user := code }
    | none => s
  (s.endInst c.slot c.step 0x0106 0x1FF 0 0).stopCtx x

def execIabort (x : CtxId) (a : Reg5) (s : State) : Host.Outcome State Fault Refusal :=
  .next (s.issue (.iabort x a) fun s x c vec => (s.retire x vec c).programAborts x c (c.s a).toNat).settle

/-- CHUNK_RELEASED to every live rank that receives no result of a chunk, sent or still to be drawn (05 R113). -/
def State.release (s : State) (slot step c : Nat) (b : Binding) (g : Group) (i : Instance) : State :=
  let keys := (s.queued i).map fun d => sendKey d.desc
  let has (k : Nat) : Bool := i.sentHi.getD k 0 ≠ 0 || keys.contains k
  let sent (r : Nat) : Bool := has (sentKey c r 0) || has (sentKey c 0x1FF 1)
  let h := hsets (s.collHdr slot step b g i.disc PT.collCtrl) [(H.ccode, 3), (H.status, 0x0207), (H.nrank, 0x1FF), (H.chunk, c)]
  (g.live.filter fun r => !sent r).foldl (fun s r => s.toRank slot g r h [] .notice) s

/-- CHUNK_DONE: the chunk is released, and chunk k + F opens. -/
def State.chunkDone (s : State) (slot step k : Nat) : State :=
  match s.bindingOf slot, s.inst? slot step with
  | some (b, g), some i =>
    if !i.opened.contains k then s
    else
      let s := s.putInst slot step { i with done := if i.done.contains k then i.done else k :: i.done }
      let s := s.ev (U.dealer (slot / 1024)) 0x07
      let s := if s.isHelper slot then s else s.release slot step k b g i
      s.openNext slot step
  | _, _ => s

def execIreportChunkDone (x : CtxId) (a : Reg5) (s : State) : Host.Outcome State Fault Refusal :=
  .next (s.issue (.ireportChunkDone x a) fun s x c vec => (s.retire x vec c).chunkDone c.slot c.step (c.s a).toNat)

def execIreportChunkFault (x : CtxId) (a : Reg5) (s : State) : Host.Outcome State Fault Refusal :=
  .next (s.issue (.ireportChunkFault x a) fun s x c vec =>
    let s := (s.retire x vec c).chunkFault c.slot c.step (c.s a).toNat c.recoveryOf.isNone
    match s.inst? c.slot c.step with
    | some i => if i.status.isSome then s.stopCtx x else s
    | none => s).settle

def execIreportDropped (x : CtxId) (a : Reg5) (s : State) : Host.Outcome State Fault Refusal :=
  .next (s.issue (.ireportDropped x a) fun s x c vec =>
    (s.retire x vec c).addFlags c.slot c.step 0 (c.s a).toNat)

def execIreportUser (x : CtxId) (a : Reg5) (s : State) : Host.Outcome State Fault Refusal :=
  .next (s.issue (.ireportUser x a) fun s x c vec =>
    let s := s.retire x vec c
    match s.inst? c.slot c.step with
    | some i => s.putInst c.slot c.step { i with user := (c.s a).toNat }
    | none => s)

/-- Write the older of a slot's two checkpoint records (08 R213). [DEDUCED log 54] -/
def SlotSt.checkpoint (st : SlotSt) (step resume user : Nat) : SlotSt :=
  let newest := st.ckpts.foldl (fun n k => Nat.max n k.seq) 0
  { st with ckpts := (st.ckpts.filter fun k => k.seq = newest) ++ [{ resume := resume, user := user, seq := newest + 1, step := step }] }

/-- ICKPT: the checkpoint record, and the resume fields of the instance. [DEDUCED log 54] -/
def State.checkpointed (s : State) (slot step resume user : Nat) : State :=
  let s := s.modSlot slot fun st => st.checkpoint step resume user
  match s.inst? slot step with
  | some i => s.putInst slot step { i with resume := resume, resumeW := user }
  | none => s

/-- [DEDUCED log 54] -/
def execIckpt (x : CtxId) (d a : Reg5) (s : State) : Host.Outcome State Fault Refusal :=
  .next (s.issue (.ickpt x d a) fun s x c vec =>
    let resume := (c.s a).toNat
    let user := (c.s d).toNat
    (s.retire x vec { c with resume := resume, resumeW := user }).checkpointed c.slot c.step resume user)

end Sys2Proof.Machine
end

