-- ==== Sys2Proof/Machine/Library.lean ====
section
/-! DEFINITION. The library programs (09): what each does with the chunks of its instance, in the stores, on the fabric and beside
memory; and the commands that let a library program go on. -/

namespace Sys2Proof.Machine

/-! ## Sends (08 R200; 09 R219, R226) -/

/-- An MSEND descriptor. -/
def mkDesc (len : Nat) (last resent : Bool) (kind target foff chunk type : Nat) : BitVec 64 :=
  BitVec.ofNat 64 (len + (if last then 2 ^ 7 else 0) + (if resent then 2 ^ 8 else 0) + 2 ^ 9 * kind + 2 ^ 12 * target + 2 ^ 24 * foff +
    2 ^ 38 * chunk + 2 ^ 62 * type)

/-- Where a run of packets goes: KIND and TARGET, the chunk, COLL_CONTRIB in place of COLL_RESULT, RESENT. -/
structure SendTo where
  kind : Nat
  target : Nat := 0
  chunk : Nat
  contrib : Bool := false
  resent : Bool := false
deriving DecidableEq, Repr

/-- The packets of `n` words from flit offset `lo`, the words standing from `a` on: ascending FOFF, 64 words at most in each; the final
one carries LAST where `last`. -/
def SendTo.packets (t : SendTo) (a lo n : Nat) (last : Bool) : List Send :=
  (List.range (Nat.max 1 (ceilDiv n 64))).map fun j =>
    let len := Nat.min 64 (n - 64 * j)
    { addr := a + 64 * (64 * j), len := len,
      desc := mkDesc len (last && n ≤ 64 * (j + 1)) t.resent t.kind t.target (lo + 64 * j) t.chunk (if t.contrib then 1 else 0) }

/-- The words of elements of a chunk: the first and the number. -/
def Binding.wordsIn (b : Binding) (e : Nat × Nat) : Nat × Nat :=
  (e.1 * fmtBytes b.format / 64, ceilDiv (e.2 * fmtBytes b.format) 64)

/-- The area of an open chunk. -/
def State.chunkArea (s : State) (slot step : Nat) (b : Binding) (i : Instance) (c : Nat) : Nat :=
  s.resBase slot step b + c % Nat.max 1 i.flight * b.chunk * (if i.disc = 2 then b.x else 1)

/-- The partial of chunk `c` at a helper with ranks `rs` (06 R153; 09 R219, R223): the whole chunk, accumulators unconverted; what its
ranks gathered; or one packet without payload. -/
def partialSends (b : Binding) (n : Nat) (rs : List Nat) (c area : Nat) : List Send :=
  let t : SendTo := { kind := 2, chunk := c, contrib := true }
  let join := if c = 0 then t.packets area 0 0 true else []
  let all := ceilDiv (b.sendBytes b.disc 2 c) 64
  if b.op = 5 || (b.op = 4 && !rs.contains b.root) then join
  else if b.op = 3 then
    let segs := (rs.map fun r => b.segElems n r c).filter fun e => e.2 ≠ 0
    if segs = [] then join
    else segs.zipIdx.flatMap fun e =>
      let w := b.wordsIn e.1
      t.packets (area + 64 * w.1) w.1 w.2 (e.2 + 1 = segs.length)
  else t.packets area 0 all true

/-- The results of chunk `c` at the home (09 R219): every non-vacant rank, ROOT, or each rank its segment; none for a BARRIER and for an
update. -/
def resultSends (b : Binding) (n : Nat) (c area : Nat) (resent : Bool) : List Send :=
  let all := ceilDiv (b.sendBytes b.disc 1 c) 64
  match b.op with
  | 0 | 3 | 4 => SendTo.packets { kind := 1, chunk := c, resent := resent } area 0 all true
  | 1 => SendTo.packets { kind := 0, target := b.root, chunk := c, resent := resent } area 0 all true
  | 2 => (List.range n).flatMap fun r =>
      let e := b.segElems n r c
      let w := b.wordsIn e
      if e.2 = 0 then []
      else SendTo.packets { kind := 0, target := r, chunk := c, resent := resent } (area + 64 * w.1) w.1 w.2 true
  | _ => []

/-! ## Forming a chunk (06 R150, R153; 09 R219 to R222) -/

/-- Read words in turn; answers them, whether one was poisoned, and the outcomes left. -/
def State.readAll (s : State) (q : Nat) (as : List Nat) (reads : List Ecc) : State × List Flit × Bool × List Ecc :=
  as.foldl (fun (r : State × List Flit × Bool × List Ecc) a =>
    let w := r.1.readNext q a r.2.2.2
    (w.1, r.2.1 ++ [w.2.1.value], r.2.2.1 || w.2.1.poison, w.2.2)) (s, [], false, reads)

/-- The contributors of an instance in ascending order of their lowest rank (06 R150). -/
def State.inOrder (s : State) (slot : Nat) (b : Binding) (g : Group) : List Nat :=
  ((s.contributors slot b g).foldl (fun (t : Tab Nat) k => t.insert (s.rowIndex slot g k) k) []).map fun e => e.2

/-- Where a contributor's row of a chunk lies (08 R199). -/
def State.rowAddr (s : State) (slot step : Nat) (b : Binding) (g : Group) (i : Instance) (c key : Nat) : Nat :=
  let pos := c % Nat.max 1 i.flight
  let stg := s.stgBase slot step b g
  let k := s.rowIndex slot g key
  if i.retained b then stg + (pos * s.stgRanks slot g + k) * b.chunk
  else if k = 0 then s.chunkArea slot step b i c
  else stg + (pos * (s.stgRanks slot g - 1) + (k - 1)) * b.chunk

/-- Whether a contributor brings word `j` of a chunk. -/
def State.brings (s : State) (b : Binding) (g : Group) (c key j : Nat) : Bool :=
  match b.op with
  | 3 => (s.ranksOfKey g key).any fun r =>
      let e := b.segElems g.count r c
      let w := b.wordsIn e
      e.2 ≠ 0 && w.1 ≤ j && j < w.1 + w.2
  | 4 => (s.ranksOfKey g key).contains b.root
  | _ => true

/-- One result word from the words of the rows that bring it, in order: the accumulation of 06 R150, of R147 for MAX and MIN, of R151
and R153 for EXACT, or the one word gathered (09 R222). -/
def foldRows (b : Binding) (md : ArithMode) (ws : List Flit) : Flit × Flags :=
  if b.toInbox then
    ws.foldl (fun (r : Flit × Flags) x => let y := maxMinWord b.format (b.reducer = 2) r.1 x; (y.1, r.2 ||| y.2))
      (identityWord b.format (b.reducer = 2), 0)
  else if b.disc = 2 then
    let zero : List Flit := (List.range b.x).map fun _ => 0
    let acc := ws.foldl (fun (r : List Flit × Flags) x =>
      let y := expandWord b.format x
      let z := (r.1.zip y.1).map fun p => xaccWord (accWidth b.format) p.1 p.2
      (z.map fun v => v.1, z.foldl (fun f v => f ||| v.2) (r.2 ||| y.2))) (zero, 0)
    let r := accWords b.format md acc.1
    (r.1, r.2 ||| acc.2)
  else
    match ws with
    | [] => (0, 0)
    | w :: ws => ws.foldl (fun (r : Flit × Flags) x => let y := addWord b.format md false r.1 x; (y.1, r.2 ||| y.2))
        (firstWord b.format w)

/-- The words of a chunk in FORMAT. -/
def Binding.chunkWords (b : Binding) (c : Nat) : Nat := ceilDiv (b.elemsIn c * fmtBytes b.format) 64

/-- Form a chunk from the rows of its contributors, word by word; answers whether a row was unreadable. -/
def State.formRows (s : State) (slot step : Nat) (b : Binding) (g : Group) (i : Instance) (c : Nat) (reads : List Ecc) :
    State × Bool :=
  let q := slot / 1024
  let area := s.chunkArea slot step b i c
  let keys := s.inOrder slot b g
  let r := (List.range (b.chunkWords c)).foldl (fun (r : State × Bool × List Ecc) j =>
    let as := (keys.filter fun k => s.brings b g c k j).map fun k => s.rowAddr slot step b g i c k + 64 * j
    if as = [] then r
    else
      let w := r.1.readAll q as r.2.2
      let y := foldRows b b.mode w.2.1
      if w.2.2.1 then (w.1, true, w.2.2.2)
      else ((w.1.bankWrite q (area + 64 * j) y.1).addFlags slot step y.2, r.2.1, w.2.2.2)) (s, false, reads)
  (r.1, r.2.1)

/-- Convert a chunk's accumulators in place (09 R219). -/
def State.convertChunk (s : State) (slot step : Nat) (b : Binding) (i : Instance) (c : Nat) (reads : List Ecc) : State × Bool :=
  let q := slot / 1024
  let area := s.chunkArea slot step b i c
  let r := (List.range (b.chunkWords c)).foldl (fun (r : State × Bool × List Ecc) j =>
    let w := r.1.readAll q ((List.range b.x).map fun v => area + 64 * (j * b.x + v)) r.2.2
    let y := accWords b.format b.mode w.2.1
    if w.2.2.1 then (w.1, true, w.2.2.2)
    else ((w.1.bankWrite q (area + 64 * j) y.1).addFlags slot step y.2, r.2.1, w.2.2.2)) (s, false, reads)
  (r.1, r.2.1)

/-! ## DISPATCH and COMBINE at their end (05 R130 to R132; 06 R160, R162; 09 R225, R226) -/

/-- A pad record's first word; the others are zero (06 R160). -/
def padWord : Flit := 0xFFFFFFFF

/-- DISPATCH once every share is complete: in ORDERED the tokens are placed in ascending source and token; the pad record is written.
Answers whether a record was unreadable. -/
def State.dispatchWork (s : State) (slot step : Nat) (b : Binding) (g : Group) (reads : List Ecc) : State × Bool :=
  let q := slot / 1024
  let stg := s.stgBase slot step b g
  let res := s.resBase slot step b
  let toks := if b.disc = 1 then ((s.inst? slot step).map fun i => i.dranks).getD [] else []
  let r := toks.foldl (fun (r : State × Bool × List Ecc) e =>
    let src := e.1 / 2 ^ 17
    let t := e.1 % 2 ^ 17
    let w := r.1.readNext q (stg + (src * b.tokensMax + t) * b.record) r.2.2
    ((w.1.placeToken slot step b g src t (e.2 - 1) w.2.1.value).1, r.2.1 || w.2.1.poison, w.2.2)) (s, false, reads)
  (r.1.writeRecord q (bitmapAddr b g.count res g.count) (padWord :: (List.range (b.record / 64 - 1)).map fun _ => 0) false, r.2.1)

/-- What DISPATCH sends: to each destination its records in slot order, a pad in each empty slot, then the slot map; to each source its
bitmap. -/
def State.dispatchSends (s : State) (slot step : Nat) (b : Binding) (g : Group) : List Send :=
  let q := slot / 1024
  let stg := s.stgBase slot step b g
  let res := s.resBase slot step b
  let rc := Nat.max 1 b.chunkRecords
  let rf := b.record / 64
  let recs (d : Nat) : List Send := (List.range b.capacity).flatMap fun k =>
    let ea := mapAddr b res d k
    let entry := (s.bankWord (bankKey q (ea / 64 * 64))).value.toNat / 2 ^ (8 * (ea % 64)) % 2 ^ 32
    let a := if !entry.testBit 9 then bitmapAddr b g.count res g.count
      else if b.disc = 0 then stg + (d * b.capacity + k) * b.record
      else stg + (entry % 512 * b.tokensMax + entry / 2 ^ 16) * b.record
    SendTo.packets { kind := 0, target := d, chunk := k / rc } a (k % rc * rf) rf (k + 1 = b.capacity)
  let map (d : Nat) : List Send :=
    SendTo.packets { kind := 0, target := d, chunk := ceilDiv b.capacity rc } (mapAddr b res d 0) 0 (b.capacity / 16) true
  let bits (r : Nat) : List Send :=
    SendTo.packets { kind := 0, target := r, chunk := 0xFFFFFF } (bitmapAddr b g.count res r) 0 (b.mapBytes / 64) true
  g.live.flatMap (fun d => recs d ++ map d) ++ g.live.flatMap bits

/-- COMBINE once every share is complete: in ORDERED the parked records are applied in ascending destination and slot; each output row
gets its number. Answers whether a row was unreadable. -/
def State.combineWork (s : State) (slot step : Nat) (b : Binding) (g : Group) (reads : List Ecc) : State × Bool :=
  let q := slot / 1024
  let res := s.resBase slot step b
  let stg := s.stgBase slot step b g
  let rf := b.record / 64
  let one (r : State × Bool × List Ecc) (d k : Nat) : State × Bool × List Ecc :=
    let w := r.1.readAll q ((List.range rf).map fun j => res + (d * b.capacity + k) * b.record + 64 * j) r.2.2
    let y := w.1.combineRecord slot step b g d k w.2.1 w.2.2.1 w.2.2.2
    (y.1, r.2.1, y.2)
  let r := if b.disc = 1 then
      g.live.foldl (fun r d => (List.range b.capacity).foldl (fun r k => one r d k) r) (s, false, reads)
    else (s, false, reads)
  let r := g.live.foldl (fun r src => (List.range b.outRows).foldl (fun (r : State × Bool × List Ecc) o =>
    let a := stg + (src * b.outRows + o) * b.record
    let w := r.1.readNext q a r.2.2
    if w.2.1.poison then (w.1, true, w.2.2)
    else (w.1.bankWrite q a ((w.2.1.value &&& ~~~((BitVec.allOnes 64).setWidth 512)) ||| BitVec.ofNat 512 o), r.2.1, w.2.2)) r) r
  (r.1, r.2.1)

/-- What COMBINE sends: to each source its output rows. -/
def State.combineSends (s : State) (slot step : Nat) (b : Binding) (g : Group) : List Send :=
  let stg := s.stgBase slot step b g
  let rc := Nat.max 1 b.chunkRecords
  let rf := b.record / 64
  g.live.flatMap fun r => (List.range b.outRows).flatMap fun o =>
    SendTo.packets { kind := 0, target := r, chunk := o / rc } (stg + (r * b.outRows + o) * b.record) (o % rc * rf) rf (o + 1 = b.outRows)

/-! ## Optimizer updates (09 R229 to R234; 10 R249) -/

/-- An FP32 value with the flags raised on the way to it. -/
abbrev FVal := Nat × Flags

/-- One instruction with one rounding (06 R144). -/
def FVal.of (x : Num × Flags) (f : Flags) : FVal := let r := lane1 0 {} x; (r.1, r.2 ||| f)

def FVal.num (a : FVal) : Num := decodeFp .fp32 a.1

def FVal.mul (a b : FVal) : FVal := .of (mulNum a.num b.num) (a.2 ||| b.2)
def FVal.add (a b : FVal) : FVal := .of (addNum a.num b.num) (a.2 ||| b.2)
def FVal.sub (a b : FVal) : FVal := .of (addNum a.num (negNum b.num)) (a.2 ||| b.2)
def FVal.div (a b : FVal) : FVal := .of (divNum a.num b.num) (a.2 ||| b.2)
def FVal.sqrt (a : FVal) : FVal := .of (sqrtNum a.num) a.2
/-- fma(a, b, c) = c + a × b. -/
def FVal.fma (a b c : FVal) : FVal := .of (fmaNum c.num a.num b.num) (a.2 ||| b.2 ||| c.2)
def FVal.neg (a : FVal) : FVal := (a.1 ^^^ 2 ^ 31, a.2)
def FVal.one : FVal := (0x3F800000, 0)

/-- pow_t: square and multiply, lowest bit first. -/
def powT : Nat → FVal → FVal → Nat → FVal
  | 0, p, _, _ => p
  | n + 1, p, b, t =>
    if t = 0 then (p.1, p.2 ||| b.2)
    else powT n (if t % 2 = 1 then p.mul b else p) (b.mul b) (t / 2)

/-- The fields of the control record (09 R232). -/
def ctlT (w : Flit) : Nat := w.toNat % 2 ^ 64
def ctlF (w : Flit) (byte : Nat) : FVal := (w.toNat / 2 ^ (8 * byte) % 2 ^ 32, 0)
def ctlNesterov (w : Flit) : Bool := w.toNat.testBit 256

/-- What UPD_ADAMW computes once for an instance: c1, c2. -/
def adamC (w : Flit) (byte : Nat) : FVal := FVal.one.div (FVal.one.sub (powT 64 FVal.one (ctlF w byte) (ctlT w)))

/-- One element under UPD_ADAMW: gradient, w, m, v to the new w, m, v and the flags raised. -/
def adamElem (k : Flit) (grad w m v : FVal) : FVal × FVal × FVal × Flags :=
  let b1 := ctlF k 16
  let b2 := ctlF k 20
  let g := grad.mul (ctlF k 28)
  let m := (FVal.one.sub b1).fma g (m.mul b1)
  let g2 := g.mul g
  let v := (FVal.one.sub b2).fma g2 (v.mul b2)
  let mh := m.mul (adamC k 16)
  let vh := v.mul (adamC k 20)
  let d := vh.sqrt.add (ctlF k 24)
  let u := (ctlF k 12).fma w (mh.div d)
  let w := (ctlF k 8).neg.fma u w
  (w, m, v, w.2 ||| m.2 ||| v.2)

/-- One element under UPD_SGDM: gradient, w, m to the new w, m and the flags raised. -/
def sgdmElem (k : Flit) (grad w m : FVal) : FVal × FVal × FVal × Flags :=
  let b1 := ctlF k 16
  let g := (ctlF k 12).fma w (grad.mul (ctlF k 28))
  let m := b1.fma m g
  let d := if ctlNesterov k then b1.fma m g else m
  let w := (ctlF k 8).neg.fma d w
  (w, m, m, w.2 ||| m.2)

/-- SB: the size of a state block of an update program (09 R231). -/
def stateBlock (cls e : Nat) : Nat := 64 + (if cls = 11 then 12 else 8) * e

/-- An element of a word of FP32 lanes. -/
def lane32 (w : Flit) (i : Nat) : FVal := (laneGet 0 w i, 0)

/-- Update 16 elements of a block: the words of w, m and v, and the gradient word with its lane of the first element. -/
def updateWords (cls : Nat) (k : Flit) (f n : Nat) (grad : Flit) (lo : Nat) (w m v : Flit) : Flit × Flit × Flit × Flags :=
  (List.range n).foldl (fun (r : Flit × Flit × Flit × Flags) i =>
    let gr : FVal := convertLane f 0 (laneNum f grad (lo + i)) (laneGet f grad (lo + i))
    let z := if cls = 11 then adamElem k gr (lane32 r.1 i) (lane32 r.2.1 i) (lane32 r.2.2.1 i)
      else sgdmElem k gr (lane32 r.1 i) (lane32 r.2.1 i)
    (laneSet 0 r.1 i z.1.1, laneSet 0 r.2.1 i z.2.1.1, if cls = 11 then laneSet 0 r.2.2.1 i z.2.2.1.1 else r.2.2.1,
     r.2.2.2 ||| z.2.2.2)) (w, m, v, 0)

/-- What the update of a block found: it is done, a word of the block was POISONED, a gradient was, or the STAMP was wrong. -/
inductive Updated where
  | ok | poisoned | gradLost | badStamp
deriving DecidableEq, Repr

/-- Where the state block of a chunk stands in staging: the reserve of its position, free once its rows are summed (09 R230). -/
def State.blockBase (s : State) (slot step : Nat) (b : Binding) (g : Group) (i : Instance) (c : Nat) : Nat :=
  s.stgBase slot step b g + (if i.disc = 1 then c % Nat.max 1 i.flight * (s.stgRanks slot g - 1) * b.chunk else 0)

/-- Update the state block of chunk `c` in staging by its gradient (09 R233, step 3). Elements beyond the shard stay. [DESIGN CHOICE log 138] -/
def State.updateBlock (s : State) (slot step : Nat) (b : Binding) (g : Group) (i : Instance) (c : Nat) (k : Flit)
    (reads : List Ecc) : State × Updated :=
  let q := slot / 1024
  let e := b.chunkElems
  let base := s.blockBase slot step b g i c
  let area := s.chunkArea slot step b i c
  let adam : Bool := b.program = 11
  let st := s.readNext q base reads
  let stamp := st.2.1.value.toNat % 2 ^ 64
  if st.2.1.poison then (st.1, .poisoned)
  else if stamp = ctlT k then (st.1, .ok)
  else if stamp + 1 ≠ ctlT k then (st.1, .badStamp)
  else
    let per := 64 / fmtBytes b.format
    let n := b.elemsIn c
    let r := (List.range (ceilDiv n 16)).foldl (fun (r : State × Updated × List Ecc) j =>
      if r.2.1 ≠ .ok then r
      else
        let at_ (v : Nat) : Nat := base + 64 + 4 * e * v + 64 * j
        let gw := r.1.readNext q (area + 64 * (16 * j / per)) r.2.2
        let x := gw.1.readAll q ([at_ 0, at_ 1] ++ if adam then [at_ 2] else []) gw.2.2
        if gw.2.1.poison then (x.1, .gradLost, x.2.2.2)
        else if x.2.2.1 then (x.1, .poisoned, x.2.2.2)
        else
          let y := updateWords b.program k b.format (Nat.min 16 (n - 16 * j)) gw.2.1.value (16 * j % per) (x.2.1.getD 0 0)
            (x.2.1.getD 1 0) (x.2.1.getD 2 0)
          let s := (x.1.bankWrite q (at_ 0) y.1).bankWrite q (at_ 1) y.2.1
          let s := if adam then s.bankWrite q (at_ 2) y.2.2.1 else s
          (s.addFlags slot step y.2.2.2, .ok, x.2.2.2)) (st.1, .ok, st.2.2)
    match r.2.1 with
    | .ok => (r.1.bankWrite q base ((st.2.1.value &&& ~~~((BitVec.allOnes 64).setWidth 512)) ||| BitVec.ofNat 512 (ctlT k)), .ok)
    | u => (r.1, u)

/-- IMAGE_FMT, IMAGE_EN and IMAGE of a binding (09 R229). -/
def Binding.imageFmt (b : Binding) : Nat := b.params.getD 1 0 / 2 ^ 48 % 16
def Binding.imageEn (b : Binding) : Bool := (b.params.getD 1 0).testBit 52
def Binding.imageAddr (b : Binding) : Nat := b.params.getD 1 0 % 2 ^ 48

/-- The image bytes of `n` FP32 elements in the stored layout of a format (06 R158; 10 R249), up to a whole word. [DESIGN CHOICE log 138] -/
def imageBytes (f : Nat) (codes : List Nat) : List Byte × Flags :=
  let nums := codes.map fun c => (decodeFp .fp32 c, c)
  if isMx f then
    let groups := (List.range (ceilDiv codes.length 2048)).map fun gi =>
      let m := Nat.min 2048 (codes.length - 2048 * gi)
      (List.range (ceilDiv m 32)).map fun k =>
        let vs := ((nums.drop (2048 * gi + 32 * k)).take (Nat.min 32 (m - 32 * k))).map fun v => v.1
        quantize f (vs ++ (List.range (32 - vs.length)).map fun _ => Num.fin false 0 0)
    let body (bs : List (Block32 × Flags)) : List Byte :=
      (bs.map fun x => BitVec.ofNat 8 x.1.1) ++ leBytes (64 - bs.length) 0 ++ (bs.flatMap fun x => blockBytes f x.1) ++
        leBytes ((64 - bs.length) * mxBlock f) 0
    (groups.flatMap body, groups.foldl (fun a bs => bs.foldl (fun a x => a ||| x.2) a) 0)
  else
    let cs := nums.map fun v => convertLane 0 f v.1 v.2
    let bytes := cs.flatMap fun v => leBytes (fmtBytes f) v.1
    (bytes ++ leBytes (ceilDiv bytes.length 64 * 64 - bytes.length) 0, cs.foldl (fun a v => a ||| v.2) 0)

/-- Where the image of chunk `c` lies in fabric memory. -/
def Binding.imageAt (b : Binding) (c : Nat) : Nat :=
  let f := b.imageFmt
  let e := c * b.chunkElems
  b.imageAddr + (if isMx f then e / 2048 * mxStored f else e * fmtBytes f)

/-- Make the image of a chunk from the weights of its block in staging, in the block's place; answers its bytes and whether a weight was
unreadable. -/
def State.makeImage (s : State) (slot step : Nat) (b : Binding) (g : Group) (i : Instance) (c : Nat) (reads : List Ecc) :
    State × Nat × Bool :=
  let q := slot / 1024
  let base := s.blockBase slot step b g i c
  let n := b.elemsIn c
  let r := s.readAll q ((List.range (ceilDiv n 16)).map fun j => base + 64 + 64 * j) reads
  let y := imageBytes b.imageFmt ((List.range n).map fun e => laneGet 0 (r.2.1.getD (e / 16) 0) (e % 16))
  let words := y.1.length / 64
  let t := (List.range words).foldl (fun s j => s.bankWrite q (base + 64 * j) (flitOf (y.1.drop (64 * j)))) r.1
  (t.addFlags slot step y.2, y.1.length, r.2.2.1)

/-! ## The programs (09 R218 to R233) -/

/-- Change the library's progress. -/
def State.libSet (s : State) (x : CtxId) (f : LibSt → LibSt) : State := s.modCtx (ctxNum x) fun c => { c with lib := f c.lib }

/-- Whether every share that chunk `c` needs stands in the stores; of DISPATCH and COMBINE, those of all chunks. -/
def State.libReady (s : State) (slot : Nat) (b : Binding) (g : Group) (i : Instance) (c : Nat) : Bool :=
  let keys := s.contributors slot b g
  let cs := if b.op = 6 || b.op = 7 then List.range b.chunks else [c]
  keys.all i.first.contains && cs.all fun c => keys.all (s.shareDone b g i c)

/-- Whether a chunk needs bank work before it is sent. -/
def PipCtx.needsWork (c : PipCtx) (b : Binding) (i : Instance) : Bool :=
  c.lib.resent || b.op = 6 || b.op = 7 ||
  (!i.formed.contains c.lib.chunk && ((i.disc = 1 && (b.op = 8 || (b.reduces && b.reducer = 0))) || (i.disc = 2 && !c.helper)))

/-- Start a transfer of the library; one that breaks 08 R201 raises DMA_RANGE. -/
def State.libDma (s : State) (x : CtxId) (faddr baddr bytes : Nat) (toMem : Bool) (next : LibPhase) : State :=
  let c := s.ctx (ctxNum x)
  if s.dmaBad c faddr baddr bytes toMem then s.trap x c 4
  else
    let r := s.dmaStart x c faddr baddr bytes toMem
    r.1.putCtx (ctxNum x) { r.2 with lib := { c.lib with phase := next } }

/-- The control record's transfer starts (09 R232). -/
def State.libControl (s : State) (x : CtxId) (b : Binding) (g : Group) : State :=
  let c := s.ctx (ctxNum x)
  let a := b.params.getD 2 0 % 2 ^ 48
  if s.memTop < a + 64 || !s.regionOk g.dfn.slice a 64 false then s.trap x c 4
  else
    let r := s.dmaStart x c a 0 64 false
    r.1.putCtx (ctxNum x) { r.2 with dmas := r.2.dmas.map fun t => if t.tag = c.nextTag then { t with toCtl := true } else t
                                     lib := { c.lib with phase := .controlIn } }

/-- The chunk is formed: its packets are issued, or its state block is read (09 R219, R226, R233). -/
def State.libFormed (s : State) (x : CtxId) (slot step : Nat) (b : Binding) (g : Group) (i : Instance) : State :=
  let c := s.ctx (ctxNum x)
  let k := c.lib.chunk
  let area := s.chunkArea slot step b i k
  if b.op = 8 && !c.helper then
    let e := b.chunkElems
    let sb := stateBlock b.program e
    s.libDma x (b.params.getD 0 0 % 2 ^ 48 + k * sb) (s.blockBase slot step b g i k) sb false .blockIn
  else
    let sends := if b.op = 6 then s.dispatchSends slot step b g
      else if b.op = 7 then s.combineSends slot step b g
      else if c.helper then partialSends b g.count (s.liveIn g s.group) k area
      else resultSends b g.count k area c.lib.resent
    s.putCtx (ctxNum x) { c with sends := c.sends ++ sends, lib := { c.lib with phase := .sending } }

/-- The chunk is finished: CHUNK_DONE and ICKPT, then the next chunk; a recovery context ends, and so does a program without chunk
releases (09 R218, R219, R223, R224, R233). -/
def State.libFinish (s : State) (x : CtxId) (b : Binding) (i : Instance) : State :=
  let c := s.ctx (ctxNum x)
  let k := c.lib.chunk
  if c.recoveryOf.isSome || b.op = 5 || b.op = 6 || b.op = 7 then s.libSet x fun l => { l with phase := .last }
  else
    let user := if b.op = 8 && !c.helper then ctlT c.lib.ctl else (k + 1) % Nat.max 1 i.flight
    ((s.chunkDone c.slot c.step k).checkpointed c.slot c.step (k + 1) user).modCtx (ctxNum x) fun c =>
      { c with resume := k + 1, resumeW := user, lib := { c.lib with phase := .wait, chunk := k + 1, resent := false } }

/-- The packets of a chunk are drawn: one that was poisoned is a chunk fault, after which the program forms and sends the chunk again
where it may (08 R202; 09 R221). -/
def State.libSent (s : State) (x : CtxId) (b : Binding) (i : Instance) : State :=
  let c := s.ctx (ctxNum x)
  if c.bstat.getLsbD 3 then
    (s.modCtx (ctxNum x) fun c => { c with bstat := c.bstat &&& ~~~8#64, lib := { c.lib with phase := .work, resent := true } }).chunkFault
      c.slot c.step c.lib.chunk c.recoveryOf.isNone
  else s.libFinish x b i

/-- The status of the one transfer that a library program waits for; its tag is freed. -/
def State.libDone (s : State) (x : CtxId) : Option (Nat × State) :=
  match (s.ctx (ctxNum x)).dmas with
  | [t] => t.status.map fun st => (st, s.modCtx (ctxNum x) fun c => { c with dmas := [] })
  | _ => none

/-- What a library program does next without a bank operation; none where it waits. -/
def State.libStep (s : State) (x : CtxId) : Option State :=
  let c := s.ctx (ctxNum x)
  match s.bindingOf c.slot, s.inst? c.slot c.step with
  | some (b, g), some i =>
    if c.run ≠ .ready || c.program = 0 || 11 < c.program || i.status.isSome || s.coreFenced.contains x.core || s.phys.fatal then none
    else
      match c.lib.phase with
      | .start => some (if b.op = 8 && !c.helper then s.libControl x b g else s.libSet x fun l => { l with phase := .wait })
      | .controlIn => (s.libDone x).map fun r =>
          if ctlT c.lib.ctl = 0 then r.2.programAborts x c 1 else r.2.libSet x fun l => { l with phase := .wait }
      | .wait =>
        if b.chunks ≤ c.lib.chunk then some (s.libSet x fun l => { l with phase := .last })
        else if !s.libReady c.slot b g i c.lib.chunk then none
        else some (if c.needsWork b i then s.libSet x fun l => { l with phase := .work } else s.libFormed x c.slot c.step b g i)
      | .sending => if c.sends = [] then some (s.libSent x b i) else none
      | .blockIn => (s.libDone x).map fun r =>
          if r.1 = 3 then r.2.programAborts x c 3 else r.2.libSet x fun l => { l with phase := .update }
      | .blockOut => (s.libDone x).map fun r =>
          if b.imageEn then r.2.libSet x fun l => { l with phase := .image } else r.2.libFinish x b i
      | .imageOut => (s.libDone x).map fun r => r.2.libFinish x b i
      | .last => if c.quiet 0xF then some (s.programEnds x c) else none
      | .work | .update | .image => none
  | _, _ => none

/-- A library program goes on as far as it can. -/
def State.libTurns (s : State) (x : CtxId) : Nat → State
  | 0 => s
  | n + 1 => match s.libStep x with
    | none => s
    | some t => t.libTurns x n

/-- The bank work of a library program whose phase has any; `reads` are the ECC outcomes of its reads in turn. A chunk whose rows cannot
be read ends the instance FAULTED (05 R128; 07 R175). -/
def State.libWork (s : State) (x : CtxId) (reads : List Ecc) : State :=
  let c := s.ctx (ctxNum x)
  match s.bindingOf c.slot, s.inst? c.slot c.step with
  | some (b, g), some i =>
    let k := c.lib.chunk
    if c.run ≠ .ready || i.status.isSome || s.recarve.contains (x.core / 32) then s
    else
      match c.lib.phase with
      | .work =>
        let r := if b.op = 6 then s.dispatchWork c.slot c.step b g reads
          else if b.op = 7 then s.combineWork c.slot c.step b g reads
          else if i.disc = 2 && !c.lib.resent then s.convertChunk c.slot c.step b i k reads
          else s.formRows c.slot c.step b g i k reads
        let lost := r.2 || (c.lib.resent && i.disc = 2 && b.stages = 2)
        if lost then r.1.chunkLost c.slot c.step k
        else match r.1.inst? c.slot c.step with
          | none => r.1
          | some j =>
            if j.status.isSome then r.1
            else
              (r.1.putInst c.slot c.step { j with formed := if j.formed.contains k then j.formed else k :: j.formed }).libFormed x
                c.slot c.step b g j
      | .update =>
        let r := s.updateBlock c.slot c.step b g i k c.lib.ctl reads
        (match r.2 with
         | .poisoned => r.1.programAborts x c 3
         | .badStamp => r.1.programAborts x c 2
         | .gradLost => r.1.chunkLost c.slot c.step k
         | .ok =>
           let sb := stateBlock b.program b.chunkElems
           r.1.libDma x (b.params.getD 0 0 % 2 ^ 48 + k * sb) (r.1.blockBase c.slot c.step b g i k) sb true .blockOut)
      | .image =>
        let r := s.makeImage c.slot c.step b g i k reads
        if r.2.2 then r.1.programAborts x c 3
        else r.1.libDma x (b.imageAt k) (r.1.blockBase c.slot c.step b g i k) r.2.1 true .imageOut
      | _ => s
  | _, _ => s

/-- Every library program goes on as far as it can. -/
def State.libRun (s : State) : State :=
  (s.ctxs.filter fun e => 1 ≤ e.2.program && e.2.program ≤ 11).foldl (fun s e =>
    s.libTurns { core := e.1 / 4, ctx := e.1 % 4 } (16 + 4 * (((s.bindingOf e.2.slot).map fun p => p.1.chunks).getD 0))) s

/-- What follows a command that may let a library program go on. -/
def State.settleLib (s : State) : State := s.settle.libRun.settle

/-! ## The commands -/

/-- DEALER_PLACE: the quadrant instance dispatcher makes one placement. `ckpt` is the ECC outcome of the newest checkpoint record. -/
def execDealerPlace (quad : Nat) (ckpt : Ecc) (s : State) : Host.Outcome State Fault Refusal := .next (s.dealerPlace quad ckpt).settleLib

def execContribDeposit (slot : Nat) (reads : List Ecc) (s : State) : Host.Outcome State Fault Refusal :=
  .next (s.doContribDeposit slot reads).settleLib

/-- SEND_DRAWN. -/
def execSendDrawn (x : CtxId) (reads : List Ecc) (s : State) : Host.Outcome State Fault Refusal :=
  .next (s.sendDrawn x reads).settleLib

/-- BANK_OP_COMPLETE: a bank operation of a context completes. Those of a library program on one chunk complete together. [DESIGN CHOICE log 11] -/
def execBankOpComplete (x : CtxId) (reads : List Ecc) (s : State) : Host.Outcome State Fault Refusal :=
  .next ((if (s.ctx (ctxNum x)).program ≤ 11 then s.libWork x reads else s.bankOpDone x).settleLib)

def execDmaTransferComplete (x : CtxId) (tag : Nat) (reads : List Ecc) (lost : List Nat) (s : State) :
    Host.Outcome State Fault Refusal :=
  .next (s.dmaComplete x tag reads lost).settleLib

end Sys2Proof.Machine
end

