-- ==== Sys2Proof/Machine/Fec.lean ====
section
/-! DEFINITION. The bit stream of a link (11 R266): scrambler, RS(544,514), symbols to lanes, Gray-coded PAM4, precoding, and the way back
from the levels of a lane to the symbols and from a decoded message to the slot stream. Bits and symbols stand in stream order, bit 0 of
a number first. -/

namespace Sys2Proof.Machine

/-! ## The scrambler x^58 + x^39 + 1 -/

/-- What the scrambler adds to the next `g` bits, at most 39: the line 39 and 58 bits before. Bit 57 of `hist` is the line's last bit. -/
def scramblerMask (g hist : Nat) : Nat := ((hist >>> 19) ^^^ hist) % 2 ^ g

/-- The history after `g` more bits of the line. -/
def scramblerNext (g hist line : Nat) : Nat := (hist + line * 2 ^ 58) >>> g

/-- Scramble `n` groups of `g` bits: the history after them, and the line. -/
def scramble (g : Nat) : Nat → Nat → Nat → Nat × Nat
  | 0, hist, _ => (hist, 0)
  | n + 1, hist, bits =>
    let line := (bits % 2 ^ g) ^^^ scramblerMask g hist
    let r := scramble g n (scramblerNext g hist line) (bits >>> g)
    (r.1, line + r.2 * 2 ^ g)

/-- Descramble `n` groups of `g` bits of a line: the history after them, and the stream. -/
def descramble (g : Nat) : Nat → Nat → Nat → Nat × Nat
  | 0, hist, _ => (hist, 0)
  | n + 1, hist, line =>
    let bits := (line % 2 ^ g) ^^^ scramblerMask g hist
    let r := descramble g n (scramblerNext g hist (line % 2 ^ g)) (line >>> g)
    (r.1, bits + r.2 * 2 ^ g)

/-! ## RS(544,514) over GF(2^10) -/

/-- A product in GF(2^10) with the primitive polynomial x^10 + x^3 + 1. [PRESUMED log 142] -/
def gfMul (a b : Nat) : Nat :=
  (List.range 10).foldl (fun acc k =>
    let acc := 2 * acc
    let acc := if 1024 ≤ acc then acc ^^^ 0x409 else acc
    if b.testBit (9 - k) then acc ^^^ a else acc) 0

/-- α to the power n, α = x. -/
def gfPow (n : Nat) : Nat := (List.range n).foldl (fun a _ => gfMul a 2) 1

/-- The coefficients of the generator polynomial without its leading 1, highest power first: the product of x + α^j for j from 0 to 29.
 [PRESUMED log 142] -/
def rsGenerator : List Nat :=
  ((List.range 30).foldl (fun (g : List Nat) j =>
    ((g ++ [0]).zip (0 :: g)).map fun (e : Nat × Nat) => e.1 ^^^ gfMul (gfPow j) e.2) [1]).tail

/-- The remainder of a polynomial times x^30 by the generator, its coefficients highest power first. -/
def rsRemainder (msg : List Nat) : List Nat :=
  msg.foldl (fun (r : List Nat) m =>
    let top := m ^^^ r.headD 0
    ((r.tail ++ [0]).zip rsGenerator).map fun (e : Nat × Nat) => e.1 ^^^ gfMul top e.2) (List.replicate 30 0)

/-- The message symbols of 5,140 message bits: bit j is bit j mod 10 of symbol ⌊j ÷ 10⌋. -/
def messageSymbols (bits : Nat) : List Nat := (List.range 514).map fun k => bits / 2 ^ (10 * k) % 1024

/-- A codeword: the message symbols, then the 30 check symbols. -/
def rsEncode (msg : List Nat) : List Nat := msg ++ rsRemainder msg

/-- Whether 544 received symbols are a codeword. -/
def isCodeword (w : List Nat) : Bool := w.length = 544 && rsRemainder (w.take 514) = w.drop 514

/-! ## Lanes, levels -/

/-- The symbols of a codeword that go to a lane: symbol s goes to lane s mod 4. -/
def laneSymbols (w : List Nat) (lane : Nat) : List Nat := (List.range 136).map fun k => w.getD (4 * k + lane) 0

/-- The codeword of the symbols that four lanes carried. -/
def lanesMerge (lanes : List (List Nat)) : List Nat :=
  (List.range 544).map fun k => (lanes.getD (k % 4) []).getD (k / 4) 0

/-- The Gray code of a pair of bits, and the pair of a level: its own inverse. -/
def gray (pair : Nat) : Nat := if pair = 2 then 3 else if pair = 3 then 2 else pair

/-- The five levels of a symbol, before precoding: pairs from bit 0 on, the first bit of a pair the less significant. -/
def symbolLevels (sym : Nat) : List Nat := (List.range 5).map fun k => gray (sym / 4 ^ k % 4)

/-- The symbol of five levels. -/
def levelsSymbol (l : List Nat) : Nat := (l.take 5).foldr (fun v acc => gray v + 4 * acc) 0

/-- Precode 1/(1+D) mod 4: each level less the level sent before it. -/
def precode : Nat → List Nat → List Nat
  | _, [] => []
  | last, v :: l =>
    let out := (v + 4 - last % 4) % 4
    out :: precode out l

/-- The way back: each level plus the level received before it. -/
def unprecode : Nat → List Nat → List Nat
  | _, [] => []
  | last, v :: l => (v + last) % 4 :: unprecode v l

/-- The symbols of a lane's levels. -/
def levelsSymbols : Nat → List Nat → List Nat
  | 0, _ => []
  | n + 1, l => levelsSymbol l :: levelsSymbols n (l.drop 5)

/-- The 544 symbols that the levels of four lanes carry, after the levels `last` that came before them. -/
def receivedWord (last : List Nat) (lanes : List (List Nat)) : List Nat :=
  lanesMerge (lanes.zipIdx.map fun (e : List Nat × Nat) => levelsSymbols 136 (unprecode (last.getD e.2 0) e.1))

/-- The message bits of 514 symbols. -/
def symbolsMessage (w : List Nat) : Nat := (w.take 514).foldr (fun v acc => v % 1024 + 1024 * acc) 0

/-! ## The line of a port -/

/-- The state of a port's line. -/
def State.lineOf (s : State) (port : Nat) : LineTx := s.lines.getD port {}

/-- Replace the state of a port's line. -/
def State.putLine (s : State) (port : Nat) (l : LineTx) : State := { s with lines := s.lines.setD port {} l }

/-- A codeword goes out on the four lanes of a port, each as its 680 levels. -/
def State.sendCodeword (s : State) (port message : Nat) : State :=
  let w := rsEncode (messageSymbols message)
  let l := s.lineOf port
  let out := (List.range 4).map fun k => precode (l.levels.getD k 0) ((laneSymbols w k).flatMap symbolLevels)
  (s.putLine port { l with levels := out.map fun x => x.getLastD 0 }).emit (.codeword port out)

/-- The bits of a slot, byte 0 bit 0 first: the sideband, then the flit (02 R17). -/
def slotBits (x : Slot) : Nat := x.side.toNat + x.flit.toNat * 2 ^ 64

/-- A slot goes out: scrambled, behind the message bits that wait; each 5,140 of them are a codeword (R266). [PRESUMED log 142] -/
def State.sendSlot (s : State) (port : Nat) (x : Slot) : State :=
  let s := s.emit (.slot port x)
  let l := s.lineOf port
  let r := scramble 36 16 l.scrambler (slotBits x)
  let message := l.message + r.2 * 2 ^ l.length
  if l.length + 576 < 5140 then s.putLine port { l with scrambler := r.1, message := message, length := l.length + 576 }
  else
    (s.putLine port { l with scrambler := r.1, message := message / 2 ^ 5140, length := l.length + 576 - 5140 }).sendCodeword port
      (message % 2 ^ 5140)

/-- A CAPS block goes out in a codeword of its own: message bytes 0 to 63 hold the block, the rest is zero, and the message is scrambled
as slots are (R266, R277). The slot stream that follows starts a codeword (02 R17). [PRESUMED log 142] -/
def State.sendCapsBlock (s : State) (port : Nat) (block : Flit) : State :=
  let s := s.emit (.caps port block)
  let l := s.lineOf port
  let r := scramble 20 257 l.scrambler block.toNat
  (s.putLine port { l with scrambler := r.1, message := 0, length := 0 }).sendCodeword port r.2

end Sys2Proof.Machine
end

