-- ==== Sys2Proof/Machine/Switch.lean ====
section
/-! DEFINITION. Packets through the module: flits accepted, heads checked and routed, tails checked, stomps, and what
becomes of packets when a port leaves ACTIVE (02 R20, R38 to R43, R51; 03 R65, R94; 04 R95). -/

namespace Sys2Proof.Machine

/-- A stomp record (02 R39). -/
def stompRecord (cause port module : Nat) : BitVec 32 := BitVec.ofNat 32 (cause + 256 * port + 65536 * module)

/-! ## The queued copy of an arriving packet -/

/-- Change the queued packet that (port, VC) `src` feeds. -/
def State.modFed (s : State) (po vo src : Nat) (g : State → OutPkt → State × Option OutPkt) : State :=
  let k := 16 * po + vo
  match (s.outqOf k).findIdx? fun o => o.src = some src && !o.whole with
  | none => s
  | some i =>
    match (s.outqOf k)[i]? with
    | none => s
    | some o =>
      let r := g s o
      match r.2 with
      | some o' => r.1.putOutqOf k ((r.1.outqOf k).set i o')
      | none => r.1.putOutqOf k ((r.1.outqOf k).eraseIdx i)

/-- The queued packet that `src` feeds, if there is one. -/
def State.fed? (s : State) (po vo src : Nat) : Option OutPkt :=
  (s.outqOf (16 * po + vo)).find? fun o => o.src = some src && !o.whole

/-- Pass one more flit on to the output (cut-through, 02 R38). -/
def State.feed (s : State) (po vo src : Nat) (f : Flit) (last : Bool) (crc : BitVec 32) (win : Nat) : State :=
  (s.modFed po vo src fun s o =>
    let r := s.chargeMore (16 * po + vo) o.chg
    (r.1, some { o with flits := o.flits ++ [f], whole := last, crc := if last then crc else o.crc, win := win, chg := r.2 })
  ).serveCells.serveCells

/-- End one queued packet whose head has left with a stomped TAIL: `inPlace` of the real tail, behind the flits that wait, or at once
(02 R40). -/
def State.stompOut (s : State) (key : Nat) (o : OutPkt) (record : BitVec 32) (inPlace : Bool) : State × OutPkt :=
  if inPlace then (s, { o with stomp := true, whole := true, crc := record })
  else
    (s.releaseAll key o.chg, { o with
      flits := o.flits.take o.sent, chg := { acct := o.chg.acct, tc := o.chg.tc }, stomp := true, whole := true, crc := record })

/-- End a queued packet for a cause found here: a stomped TAIL if its head has left; one whose head has not left is discarded
whole, without a stomp (02 R40). [DEDUCED log 22] -/
def State.stompFed (s : State) (po vo src : Nat) (record : BitVec 32) (inPlace : Bool) : State :=
  s.modFed po vo src fun s o =>
    if 0 < o.sent then let r := s.stompOut (16 * po + vo) o record inPlace; (r.1, some r.2)
    else (s.releaseAll (16 * po + vo) o.chg, none)

/-- Whether the head of the packet that `src` feeds has left. -/
def State.headLeft (s : State) (po vo src : Nat) : Bool := (s.fed? po vo src).any fun o => 0 < o.sent

/-! ## Arriving packets -/

/-- The header of an arriving packet. -/
def InPkt.hdr (p : InPkt) : Flit := p.flits.headD 0

def State.modFront (s : State) (k : Nat) (g : InPkt → InPkt) : State :=
  s.modInqOf k fun q => match q with | p :: r => g p :: r | [] => []

def State.popFront (s : State) (k : Nat) : State := s.modInqOf k (·.drop 1)

/-- The packet still open on (port, VC): the last of its queue, if its tail has not come. -/
def State.open? (s : State) (k : Nat) : Option InPkt :=
  match (s.inqOf k).getLast? with
  | some p => if p.ended then none else some p
  | none => none

def State.modLast (s : State) (k : Nat) (g : InPkt → InPkt) : State :=
  s.modInqOf k fun q => match q.getLast? with | some p => q.dropLast ++ [g p] | none => []

def State.dropLast (s : State) (k : Nat) : State := s.modInqOf k (·.dropLast)

/-- How many flits of an arriving packet are charged to the account of its arrival rather than at its output. Flits that go into a replay
entry only hold no cell. -/
def InPkt.charged (p : InPkt) : Nat :=
  match p.route with
  | .forward _ _ => if p.broken = 0 && p.ended && !p.stomp then 1 else 0
  | .discard => 0
  | _ => p.flits.length

/-- At the ingress edge a packet cannot be completed (02 R43): stomp downstream with SCAUSE 5 if its head has left, in place of the real
tail where its CRC failed there, else discard it and give its FLOW_SEQ back; free the entry, record, tell the source. A packet that the
endpoint stomped itself keeps the record it came with (R41). -/
def State.voidIngress (s : State) (src : Nat) (p : InPkt) (inPlace : Bool) : State :=
  let port := src / 16
  let h := match p.flits, p.flow with
    | [], some (k, seq) => ((s.entry? k seq).map fun r => r.pkt.hdr).getD p.hdr
    | _, _ => p.hdr
  let s := s.raise E.e2eCrc port (linkInfo h) (linkInfo2 h)
  let left := match p.route with | .forward po vo => s.headLeft po vo src | _ => false
  let record := if p.stomp then p.crc else stompRecord 5 port s.self
  let s := match p.route with
    | .forward po vo => s.stompFed po vo src record (inPlace || p.stomp)
    | _ => s
  let s := match p.flow with
    | some (k, seq) => s.freeEntry k seq (!left && p.broken = 0)
    | none => s
  s.tellSource h 3

/-- A packet is ended before its tail, or its flit count is wrong, or its CRC failed (`inPlace`): SCAUSE `cause` at a module other than
its ingress edge (02 R40, R42, R43). The packet is already out of its input queue; its flits there are released. -/
def State.endBad (s : State) (src : Nat) (p : InPkt) (cause : Nat) (inPlace : Bool := false) : State :=
  let port := src / 16
  let s := s.dropFlits src p.charged
  if p.flits = [] && p.broken = 0 then s
  else if s.isMemberPort port then
    match p.route with
    | .discard => s
    | _ => s.voidIngress src p inPlace
  else
    match p.route with
    | .forward po vo => s.stompFed po vo src (stompRecord cause port s.self) inPlace
    | .egress | .local_ | .fanout =>
      if sequenced p.hdr then
        s.arriveStomped (flowKey (flowOf p.hdr)) (hget p.hdr H.flowSeq) cause port (port / 36) (src % 16) []
      else s
    | _ => s

/-- Close the packet still open on (port, VC) as truncated (02 R20, R39 SCAUSE 6). -/
def State.closeOpen (s : State) (k : Nat) : State :=
  match s.open? k with
  | some p => (s.dropLast k).endBad k p 6
  | none => s

/-- A protocol error of 02 R20 or R32. -/
def State.protocolError (s : State) (port : Nat) : State := (s.wr F.portLlstatProtocol 1 port).raise E.protocol port

/-- A VC on which a packet is closed already but its TAIL has not come: its rest is dropped (02 R31, R40). -/
def State.dropVc (s : State) (port vc : Nat) : State := s.modRxOf port fun r => { r with dropVcs := vc :: r.dropVcs }

def State.undropVc (s : State) (port vc : Nat) : State :=
  s.modRxOf port fun r => { r with dropVcs := r.dropVcs.filter (· ≠ vc) }

/-- Accept a BODY or TAIL of the packet open on (port, VC), in link window `win`. -/
def State.acceptRest (s : State) (port vc ftype : Nat) (stomp : Bool) (crc : BitVec 32) (f : Flit) (win : Nat) : State :=
  let k := 16 * port + vc
  match s.open? k with
  | none => (s.dropFlit k).protocolError port
  | some p =>
    if ftype = 1 && hget p.hdr H.len + 1 ≤ p.flits.length + 1 && p.route ≠ .undecided && p.route ≠ .discard then
      -- more flits than LEN + 1: truncated at once
      (((s.dropFlit k).dropLast k).endBad k p 6).dropVc port vc
    else
      let s := s.modLast k fun p =>
        { p with flits := if ftype = 2 && stomp then p.flits else p.flits ++ [f]
                 ended := ftype = 2, crc := if ftype = 2 then crc else p.crc, stomp := ftype = 2 && stomp, win := win }
      if ftype = 2 && stomp || p.broken ≠ 0 || p.route = .discard then s.dropFlit k
      else
        match p.route with
        | .forward po vo => if ftype = 1 then s.feed po vo k f false 0 win else s
        | _ => s

/-- Accept one flit in order, in link window `win` (02 R20, R32, R36). A head debits its member's bucket at once (04 R97). `none` tells
that the flit overran its credits. -/
def State.acceptFlit (s : State) (port vc ftype : Nat) (stomp : Bool) (crc : BitVec 32) (f : Flit) (win : Nat) : Option State :=
  let k := 16 * port + vc
  if !(vc < 6 || (8 ≤ vc && vc ≤ 10)) then some (s.protocolError port)
  else if (s.vcb k).credits = 0 then none
  else
    let s := s.modVcb k fun b => { b with credits := b.credits - 1, flits := b.flits + 1 }
    let dropping := (s.rxOf port).dropVcs.contains vc
    let s := s.onlyIf (ftype = 2 && stomp) fun s => s.linkCount port 3
    if ftype = 1 || ftype = 2 then
      some (if dropping then (let s := s.dropFlit k; if ftype = 2 then s.undropVc port vc else s)
            else s.acceptRest port vc ftype stomp crc f win)
    else
      let s := s.debit port vc f
      let s := if dropping then (s.undropVc port vc).protocolError port
        else if (s.open? k).isSome then (s.closeOpen k).protocolError port else s
      some (s.modInqOf k fun q => q ++ [{ flits := [f], ended := ftype = 3, crc := if ftype = 3 then crc else 0, win := win }])

/-! ## The head (02 R51, 04 R95) -/

/-- The classes and casts that 02 R49 allows a packet type. -/
def typeOk (h : Flit) : Bool :=
  let t := hget h H.ptype
  let c := hget h H.tc
  (if t ≤ 3 then c = 0 || c = 3
   else if t ≤ 6 then c = 1
   else if t = 7 then c = 2
   else if t ≤ 10 then c = 4
   else t = 11 && c = 5) &&
  (hget h H.mcast = 0 || t = 0 || t = 5 || t = 6 || t = 7)

/-- LEN and TAILB in their ranges (02 R51). -/
def lenOk (h : Flit) : Bool :=
  hget h H.len ≤ 64 && hget h H.tailb ≤ 64 && (hget h H.len ≠ 0 || hget h H.tailb = 0)

/-- BYTES in its range and, on a MEM_WR, described exactly by LEN and TAILB (02 R53). [DEDUCED log 36] -/
def memLenOk (h : Flit) : Bool :=
  let n := hget h H.bytes
  let t := hget h H.ptype
  if t = 1 then 1 ≤ n && n ≤ 4096 && hget h H.len = (n + 63) / 64 && hget h H.tailb % 64 = n % 64
  else if t = 2 then 1 ≤ n && n ≤ 4096
  else true

/-- Whether DST names a module of the rack in the plan (02 R48). -/
def State.moduleOk (s : State) (id : Nat) : Bool := id < 32 && id % 16 < s.plan.g

/-- What an endpoint may send, and the DMOD and SMOD fields it must carry (02 R49, R50). -/
def senderOk (h : Flit) : Bool :=
  let t := hget h H.ptype
  (t = 0 || t = 1 || t = 2 || t = 4 || t = 11) && hget h H.smod = 0 &&
  hget h H.dmod = (if t = 0 || t = 11 then 0 else 1)

/-- The slice checks of the ingress edge (04 R95); GATE packets are checked by the gateway. -/
def State.sliceOk (s : State) (port : Nat) (h : Flit) : Bool :=
  let e := s.tables.portSlice.getD port 0
  let sl := hget h H.slice
  e.testBit 8 && sl = e % 256 &&
  (if hget h H.mcast = 1 then
     (if hget h H.caxis = 1 then
        s.sliceCol sl (hget h H.dst % 32) && (List.range 16).all fun g => !(castMask h).testBit g || s.sliceRow sl g
      else s.sliceRow sl (destGroup h) &&
        (List.range 32).all fun m => !(hget h H.cmask).testBit m || s.sliceCol sl m)
   else if hget h H.dmod = 1 then s.sliceRow sl (hget h H.dst % 16)
   else if hget h H.ptype = PT.gate then true
   else s.sliceRow sl (destGroup h) && s.sliceCol sl (hget h H.dst % 32))

/-- Run the checks in order; the first that fails, by itself or by a loaded die, discards the packet. -/
def State.headChecks (s : State) (h : Flit) : List (Nat × Nat × Bool) → State × Bool
  | [] => (s, true)
  | (code, unit, bad) :: rest =>
    let r := s.check code unit bad
      (if code / 1024 = 3 then s.qswInfo h else linkInfo h) (if code / 1024 = 3 then 0 else linkInfo2 h)
    if r.2 then (r.1, false) else r.1.headChecks h rest

/-- The checks of 02 R51 and 04 R95 that a head meets at this module, in their order. -/
def State.checksOf (s : State) (port : Nat) (h : Flit) : List (Nat × Nat × Bool) :=
  [(E.hcrcFail, port, decide (hget h H.hcrc ≠ hcrcOf h)),
   (E.genUnsupported, port, hget h H.gen ≠ 0),
   (E.malformed, port, !typeOk h || !lenOk h),
   (E.hopLimit, port, 4 < hget h H.hops),
   (E.malformed, port, hget h H.dmod = 1 && !s.moduleOk (hget h H.dst)),
   (E.malformed, port, hget h H.dmod = 1 && hget h H.dst = s.self && !memLenOk h)] ++
  (if s.isMemberPort port then
    [(E.ptypeDenied, port, !senderOk h),
     (E.planeMismatch, port, (hget h H.plane = 1) ≠ s.plane),
     (E.idRsvd, port, hget h H.src / 512 ≠ 0),
     (E.sliceDenied, qswUnit port, !s.sliceOk port h)]
   else [])

/-- Discard the front packet of an input queue at its head; the flits that have come are released now, later ones as they
come (02 R51). -/
def State.discardFront (s : State) (k : Nat) : State :=
  match s.inqOf k with
  | p :: _ => (s.dropFlits k p.flits.length).modFront k fun p => { p with route := .discard }
  | [] => s

/-- Set the route of the front packet and, for an output, queue what has come of it; one that has already come with more flits than its
LEN says is truncated at once (02 R39 SCAUSE 6, R51). -/
def State.startPkt (s : State) (k : Nat) (d : Decision) (flow : Option (Nat × Nat)) : State :=
  match s.inqOf k with
  | [] => s
  | p :: _ =>
    let flits := match p.flits with | _ :: r => d.hdr :: r | [] => []
    let s := s.modFront k fun p => { p with flits := flits, route := d.route, flow := flow }
    match d.route with
    | .forward po vo =>
      let fs := if p.ended && !p.stomp then flits.dropLast else flits
      let s := s.enqueue po vo { flits := fs, gen := k / 16, src := some k, flow := flow
                                 chg := { acct := k, tc := hget d.hdr H.tc, near := fs.length } }
      if !p.ended && hget d.hdr H.len + 1 < flits.length + 1 && 1 < flits.length then
        let q := { p with flits := flits, route := d.route, flow := flow }
        ((s.popFront k).endBad k q 6).dropVc (k / 16) (k % 16)
      else s
    | .discard => (s.noRoute (d.err.getD E.unreachable) d.hdr (k / 16) flow).discardFront k
    | _ => s

/-- HEAD_RECEIVE: the front packet of (port, VC), whose head is undecided, is checked, sequenced at its ingress edge and
routed (02 R51; 03 R55 to R66, R70, R77; 04 R95). A packet that its flow has no room for waits (R70). -/
def State.headReceive (s : State) (port vc : Nat) : State :=
  let k := 16 * port + vc
  match s.inqOf k with
  | [] => s
  | p :: _ =>
    if p.route ≠ .undecided || p.flits = [] then s
    else
      let h := p.hdr
      let ingress := s.isMemberPort port
      let fk := flowKey (flowOf h)
      let q := port / 36
      let checks := s.headChecks h (s.checksOf port h)
      if !checks.2 then checks.1.discardFront k
      else if ingress && hget h H.dmod = 0 && hget h H.mcast = 0 && s.epFenced (hget h H.dst) then
        (checks.1.tellSource h 4).discardFront k
      else if ingress && hget h H.ptype = PT.gate then
        -- the gateway takes it once its tail has passed: no FLOW_SEQ, no replay copy (12 R292)
        checks.1.startPkt k { route := .local_, hdr := h } none
      else if ingress && sequenced h && !s.flowRoom fk q (hget h H.len + 1) then s
      else
        let s := checks.1
        if ingress then
          let h := hsets h [(H.hops, 0), (H.esc, 0), (H.spray, 0), (H.flowSeq, 0)]
          let r := s.sequence fk { hdr := h, pay := [], crc := 0 } port q false .endpoint
          let h := hset h H.flowSeq r.1
          let d := r.2.routeOf h port none true
          d.2.startPkt k d.1 (some (fk, r.1))
        else
          let d := s.routeOf h port (some vc) false
          d.2.startPkt k d.1 none

/-! ## The tail (02 R40 to R43) -/

/-- A whole, good packet at a module where it stops: delivered in its flow's order, or handed to the unit that takes
acknowledgements. Its flits are in the shared buffer. -/
def State.arriveWhole (s : State) (port vc : Nat) (p : Packet) (flow : Option (Nat × Nat)) (held : List (Nat × CellRead)) : State :=
  let src := Src.cells (16 * port + vc)
  if !sequenced p.hdr then
    if hget p.hdr H.dmod = 1 then s.toLocal p src
    else (s.toMember (hget p.hdr H.dst % 32) port (some vc) p src).getD (s.dropSrc src p)
  else if s.isMemberPort port && hget p.hdr H.ptype = PT.gate then s.toLocal p src
  else
    match flow with
    | some (k, seq) =>
      if hget p.hdr H.mcast = 1 && hget p.hdr H.caxis = 1 then s.sendRouted k seq p port (port / 36) 6 src
      else s.arrive k seq (some p) port (port / 36) vc src held
    | none => s.arrive (flowKey (flowOf p.hdr)) (hget p.hdr H.flowSeq) (some p) port (port / 36) vc src held

/-- Resend a packet from its entry, which is complete and good (02 R43); `held` may hold reads of the replay store for its sequence. -/
def State.resendOwn (s : State) (k seq : Nat) (held : List (Nat × CellRead)) : State :=
  match s.entry? k seq with
  | some r => s.resendRead k r ((held.filter fun x => x.1 = seq).map (·.2))
  | none => s

/-- TAIL_RECEIVE: the front packet of (port, VC), whose tail has come and whose head is decided. -/
def State.tailReceive (s : State) (port vc : Nat) (held : List (Nat × CellRead)) : State :=
  let k := 16 * port + vc
  match s.inqOf k with
  | [] => s
  | p :: _ =>
    if !p.ended || p.route = .undecided then s
    else if p.route = .discard then s.popFront k
    else
      let h := p.hdr
      let pk : Packet := { hdr := h, pay := p.flits.drop 1, crc := p.crc }
      let ingress := s.isMemberPort port
      let s := s.popFront k
      if p.stomp then
        if ingress then (s.dropFlits k p.charged).voidIngress k p true
        else
          match p.route with
          | .forward po vo => s.modFed po vo k fun s o => (s, some { o with stomp := true, whole := true, crc := p.crc })
          | _ =>
            let s := s.dropFlits k p.charged
            if sequenced h then
              s.arriveStomped (flowKey (flowOf h)) (hget h H.flowSeq) (p.crc.toNat % 256) port (port / 36) vc held
            else s
      else if p.flits.length ≠ hget h H.len + 1 then
        let s := if ingress then s else s.raise E.malformed port (linkInfo h) (linkInfo2 h)
        s.endBad k p 6
      else
        let e := s.evaluate E.e2eCrc port (p.crc ≠ e2eCrc h pk.pay)
        let s := e.1
        if e.2.1 then
          if ingress then (s.dropFlits k p.charged).voidIngress k p true
          else
            (s.raise E.e2eCrc port (linkInfo h) (linkInfo2 h) none e.2.2).endBad k p 4 true
        else
          let s := match p.flow with
            | some (fk, seq) => s.modEntry fk seq fun r => { r with pkt := pk, complete := true }
            | none => s
          match p.route with
          | .forward po vo =>
            if p.broken = 0 then s.feed po vo k (p.flits.getLastD 0) true p.crc p.win
            else
              match p.flow with
              | some (fk, seq) => if p.broken = 1 then s.resendOwn fk seq held else s
              | none => s
          | _ => s.arriveWhole port vc pk p.flow held

/-! ## Escape and loss of a port -/

/-- The packet that (port, VC) `src` feeds to queue `key` is no longer fed: its rest is still taken into its replay entry, or dropped. -/
def State.detach (s : State) (key : Nat) (o : OutPkt) : State :=
  match o.src with
  | none => s
  | some src =>
    if o.whole then s
    else
      match s.inqOf src with
      | p :: _ =>
        if p.route = .forward (key / 16) (key % 16) && p.broken = 0 then
          (s.dropFlits src p.charged).modFront src fun p =>
            if p.flow.isSome then { p with broken := 2 } else { p with route := .discard }
        else s
      | [] => s

/-- Take a queued packet back onto its account of arrival, to be routed again; it has left its queue. -/
def State.takeOut (s : State) (key : Nat) (o : OutPkt) : State × OutPkt :=
  let r := s.chargeBack key o.chg
  (r.1, { o with chg := r.2 })

/-- Put a packet whose head has not left on another route; the packet that still feeds it follows (03 R67, R94). One that stood at a
member's port goes to another of its links; where there is none it is discarded as UNREACHABLE and its sequence expected again (R66). -/
def State.requeue (s : State) (o : OutPkt) (d : Decision) (oldMember : Option Nat) : State :=
  let o := { o with flits := (match o.flits with | _ :: r => d.hdr :: r | [] => []) }
  let refeed (r : Route) (s : State) : State :=
    match o.src with
    | some k => if o.whole then s else s.modFront k fun p =>
        if p.route ≠ .undecided && p.route ≠ .discard && p.broken = 0 then { p with route := r } else p
    | none => s
  match d.route with
  | .forward po vo => refeed d.route (s.enqueue po vo o)
  | .discard =>
    let s := s.dropFlits o.chg.acct o.chg.near
    let s := match o.src with
      | some k => if o.whole then s else s.dropFlits k (((s.inqOf k).headD {}).charged)
      | none => s
    refeed .discard (s.noRoute (d.err.getD E.unreachable) d.hdr (o.chg.acct / 16) o.flow)
  | _ =>
    match oldMember with
    | some m =>
      let r := s.rollAmong o.gen (s.memberLinks m)
      (match r.1, nextVc (hget d.hdr H.esc = 1) (hget d.hdr H.tc) (o.src.map (· % 16)) with
       | some port, some vc => r.2.enqueue port vc o
       | _, _ =>
         let s := r.2.dropFlits o.chg.acct o.chg.near
         if sequenced d.hdr then (s.raise E.unreachable (qswUnit (o.chg.acct / 16)) (s.qswInfo d.hdr)).undeliver d.hdr
         else { s with notices := s.notices ++ [(m, { hdr := d.hdr, pay := o.flits.drop 1, crc := o.crc })] })
    | none => s.dropFlits o.chg.acct o.chg.near

/-- ESCAPE_MOVE: the oldest packet of an output queue whose head has not left, blocked beyond the threshold, moves to the
escape lanes (03 R67, R68). A packet already on an escape VC waits. -/
def State.escapeMove (s : State) (port vc : Nat) : State :=
  let k := 16 * port + vc
  if 8 ≤ vc then s
  else
    match (s.outqOf k).findIdx? fun o => o.sent = 0 && !o.flits.isEmpty with
    | none => s
    | some i =>
      match (s.outqOf k)[i]? with
      | none => s
      | some o =>
        let r := (s.putOutqOf k ((s.outqOf k).eraseIdx i)).takeOut k o
        let d := r.1.escapeRoute (o.flits.headD 0) o.gen (o.src.map fun x => x % 16)
        d.2.requeue r.2 d.1 (s.memberOf port)

/-- Whether a packet queued here chose its path at this module: it has a replay entry here, or the module sent it outside any flow. -/
def State.beganHere (s : State) (o : OutPkt) : Bool :=
  let h := o.flits.headD 0
  o.flow.isSome || (hget h H.smod = 1 && hget h H.src = s.self)

/-- The new route of a packet whose port left ACTIVE (04 R94): at its ingress edge a new roll, elsewhere the path it has. -/
def State.routeAgain (s : State) (o : OutPkt) : Decision × State :=
  let h := o.flits.headD 0
  let began := s.beganHere o && hget h H.esc = 0
  if began && hget h H.mcast = 1 && hget h H.caxis = 1 && destGroup h ≠ s.group then s.columnRoute h o.gen
  else s.routeOf h o.gen (o.src.map (· % 16)) began

/-- The packets queued for a port that left ACTIVE: one whose head has left is gone, and its input's rest is dropped or
still taken into its replay entry; any other is routed again (04 R94). -/
def State.rerouteFrom (s : State) (port vc : Nat) : State :=
  let k := 16 * port + vc
  let os := s.outqOf k
  let s := s.putOutqOf k []
  os.foldl (fun s o =>
    if 0 < o.sent then (s.releaseAll k o.chg).detach k o
    else
      let r := s.takeOut k o
      let member := s.memberOf port
      let h := o.flits.headD 0
      if member.isSome && (hget h H.mcast = 1 || hget h H.dmod = 0) then
        r.1.requeue r.2 { route := .egress, hdr := h } member
      else
        let d := r.1.routeAgain r.2
        d.2.requeue r.2 d.1 member) s

/-- What a port's departure from ACTIVE does to its packets (02 R40, R43; 03 R65; 04 R94): packets that were arriving
on it end, packets queued for it are routed again, link state and credits go. -/
def State.trafficDown (s : State) (port : Nat) : State :=
  let vcs := [0, 1, 2, 3, 4, 5, 8, 9, 10]
  let s := s.each vcs fun s vc =>
    let k := 16 * port + vc
    ((s.inqOf k).filter fun p => !p.ended).foldl (fun s p => s.endBad k p 3)
      (s.modInqOf k fun q => q.filter fun p => p.ended)
  let s := s.each vcs fun s vc => s.rerouteFrom port vc
  let s := s.each vcs fun s vc =>
    let k := 16 * port + vc
    let n := (s.vcb k).credits + s.dueOf k
    (iter (·.freeCell k) n s).modVcb k fun b => { b with credits := 0, waits := false, age := 0 }
  let s := (s.putTxOf port {}).putRxOf port {}
  ((s.wr F.portLlstatTxState 0 port).wr F.portLlstatRxState 0 port).wr F.portLlstatReplays 0 port

/-- What entering ACTIVE does (02 R21, R34; 03 R62; 04 R90): windows from 0, every credit counter zero, the generator
loaded, notices that wait for the member's first link sent. -/
def State.trafficUp (s : State) (port : Nat) : State :=
  let q := port / 36
  let firstOfQuad := (List.range 36).all fun i => !s.active (36 * q + i) || 36 * q + i = port
  let s := (s.putTxOf port {}).putRxOf port {}
  let s := (((s.wr F.portLlstatTxState 1 port).wr F.portLlstatRxState 1 port).wr F.portLlstatReplays 0 port).wr
    F.portLlstatTxSeq 0 port
  let s := s.loadLfsr port
  let s := if firstOfQuad then s.each [0, 1, 2, 3] fun s k => s.loadLfsr (coreGen q k) else s
  let s := s.each (List.range 6) fun s tc => s.modVcb (16 * port + tc) fun b => { b with allow := s.allowance q tc }
  match s.memberOf port with
  | some m =>
    let mine := s.notices.filter fun n => n.1 = m
    let s := { s with notices := s.notices.filter fun n => n.1 ≠ m }
    mine.foldl (fun s n => s.notify m n.2) s
  | none => s

end Sys2Proof.Machine
end

