-- ==== Sys2Proof/Machine/Lanes.lean ====
section
/-! DEFINITION. Serial lanes (11): bring-up, training, capability exchange, leaving ACTIVE, DEEP, measurement, and what the
ledger keeps of a lane. The unit of a port's LANE records is its first lane where no single lane is named. -/

namespace Sys2Proof.Machine

/-! ## Stages (11 R268) -/

def Stage.deep : Nat := 0
def Stage.detect : Nat := 1
def Stage.train : Nat := 2
def Stage.lock : Nat := 3
def Stage.caps : Nat := 4
def Stage.active : Nat := 5
def Stage.test : Nat := 6
def Stage.fenced : Nat := 7

def State.stage (s : State) (p : Nat) : Nat := s.rd F.laneStatStage p

def State.setStage (s : State) (p st : Nat) : State := s.wr F.laneStatStage st p

/-- The lanes of a port. -/
def portLanes (p : Nat) : List Nat := [4 * p, 4 * p + 1, 4 * p + 2, 4 * p + 3]

/-- Report a port's roll-call outcome, or once that is reported its change (14 R341). `far` names the neighbour found as `capsFound`. -/
def State.reportPort (s : State) (p : Nat) (o : Outcome341) (far : Nat) (up : Bool) : State :=
  if (s.port p).reported then s.report (.linkEvent s.self p up)
  else (s.modPort p fun x => { x with reported := true }).report (.rollcall s.self p o far)

/-- Enter DETECT. -/
def State.enterDetect (s : State) (p : Nat) : State :=
  (s.setStage p Stage.detect).modPort p fun x => { x with wait := .none, noPeer := false }

/-- Enter TRAIN with short training where coefficients are stored, else at preset P3 (11 R272, R273). -/
def State.enterTrain (s : State) (p : Nat) (short : Bool) : State :=
  let s := s.setStage p Stage.train
  let s := s.modPort p fun x => { x with wait := .none, shortNow := short, capsRun := 0, ack := false, go := false }
  s.each (portLanes p) fun s l => s.modLane l fun x =>
    { x with pre := if short then x.pre else -4, post := if short then x.post else -8, answered := false, ackSeq := 0,
             stPre := 0, stPost := 0, farReady := 0, ownReady := false, seen := false, signal := false,
             reqPre := 0, reqPost := 0, preset := 0 }

/-- LANE_CTL.BRINGUP_LIMIT as it acts. -/
def State.bringupLimit (s : State) (p : Nat) : Nat :=
  if s.rd F.laneCtlBringupLimit p = 0 then 8 else s.rd F.laneCtlBringupLimit p

/-- A failure in TRAIN, LOCK or CAPS (11 R269): the port waits at TRAIN, 1 ms, or 1 s after BRINGUP_LIMIT failures. -/
def State.bringupFails (s : State) (p code : Nat) : State :=
  let s := (s.addSat F.laneStatFails 1 p).wr F.laneStatFailCode code p
  let n := s.rd F.laneStatFails p
  let s := (s.setStage p Stage.train).modPort p fun x =>
    { x with wait := if s.bringupLimit p ≤ n then .s1 else .ms1, fails := x.fails + 1, ack := false, go := false }
  if n = s.bringupLimit p then
    (s.raise E.laneBringupFailed (4 * p) code).reportPort p .failed 0 false
  else s

/-- Leave ACTIVE for a cause other than LOS (11 R282): recorded, traffic ended, the port waits 1 ms at TRAIN. -/
def State.leaveActive (s : State) (p detector unit failCode : Nat) (inj : Bool := false) : State :=
  let s := s.raise detector unit failCode 0 none inj
  let s := s.setStage p Stage.train
  let s := (s.wr F.laneStatFailCode failCode p).modPort p fun x => { x with wait := .ms1, ack := false, go := false }
  (s.trafficDown p).reportPort p .missing 0 false

/-- LOS in ACTIVE, or the end of a stage by LOS (11 R269, R282). -/
def State.los (s : State) (p lane : Nat) : State :=
  let st := s.stage p
  let l := 4 * p + lane % 4
  let e := if st = Stage.active then s.evaluate E.los l true else (s, true, false)
  if st < Stage.train || Stage.active < st || (s.port p).wait ≠ .none || (st = Stage.train && !(s.lane l).signal) then s
  else if st = Stage.active then
    let s := e.1.raise E.los l 9
    let s := (s.enterDetect p).wr F.laneStatFailCode 9 p
    (s.trafficDown p).reportPort p .missing 0 false
  else (s.enterDetect p).wr F.laneStatFailCode 9 p

def execLos (port lane : Nat) (s : State) : Host.Outcome State Fault Refusal := .next (s.los port lane)

/-! ## DETECT -/

/-- Receiver detect: far terminations on all four lanes end DETECT (11 R268). -/
def execReceiverDetect (port : Nat) (seen : BitVec 4) (s : State) : Host.Outcome State Fault Refusal :=
  .next (if s.stage port = Stage.detect && seen = 15 then s.enterTrain port (s.port port).shortOk else s)

/-- NO_PEER is reported 10 ms into DETECT (11 R268). -/
def execNoPeer (port : Nat) (s : State) : Host.Outcome State Fault Refusal :=
  .next (if s.stage port = Stage.detect && !(s.port port).noPeer then
    (((s.wr F.laneStatFailCode 1 port).modPort port fun x => { x with noPeer := true }).reportPort port .missing 0 false)
  else s)

/-! ## TRAIN (11 R271 to R274) -/

/-- CRC8 of a training word: polynomial 0x07, initial 0, over bits [55:0], byte 0 first (11 R271). -/
def trainCrc (w : BitVec 64) : BitVec 8 := crcMsb (0x07 : BitVec 8) 0 ((leBytes 8 w.toNat).take 7)

/-- The presets of 11 R272: PRE and POST. -/
def presetOf : Nat → Option (Int × Int)
  | 1 => some (0, 0)
  | 2 => some (0, -8)
  | 3 => some (-4, -8)
  | 4 => some (-4, -16)
  | 5 => some (-8, -20)
  | _ => none

/-- The coefficient range of 11 R272. -/
def coeffOk (pre post : Int) : Bool := -16 ≤ pre && pre ≤ 0 && -24 ≤ post && post ≤ 0 && -40 ≤ pre + post

/-- Apply one coefficient request: hold 0, increment 1, decrement 2, RSVD 3. Answers the new value and the status:
0 not applied, 1 applied, 2 at limit, 3 refused. -/
def applyReq (req : Nat) (v : Int) (ok : Int → Bool) : Int × Nat :=
  match req with
  | 0 => (v, 0)
  | 1 => if ok (v + 1) then (v + 1, 1) else (v, 2)
  | 2 => if ok (v - 1) then (v - 1, 1) else (v, 2)
  | _ => (v, 3)

/-- Apply a word's request once per SEQ and hold its answer (11 R271, R272). -/
def LaneSt.answer (l : LaneSt) (w : BitVec 64) : LaneSt :=
  let seq := bitsOf w 32 8
  if l.answered && l.ackSeq = seq then l
  else
    let l := { l with answered := true, ackSeq := seq }
    if bitsOf w 6 3 ≠ 0 then
      match presetOf (bitsOf w 6 3) with
      | some (pre, post) => { l with pre := pre, post := post, stPre := 1, stPost := 1 }
      | none => { l with stPre := 3, stPost := 3 }
    else
      let a := applyReq (bitsOf w 2 2) l.pre fun v => coeffOk v l.post
      let b := applyReq (bitsOf w 4 2) l.post fun v => coeffOk a.1 v
      { l with pre := a.1, post := b.1, stPre := a.2, stPost := b.2 }

/-- The training word a lane sends (11 R271). -/
def LaneSt.word (l : LaneSt) (k : Nat) (short : Bool) : BitVec 64 :=
  let v := k + 4 * l.reqPre + 16 * l.reqPost + 64 * l.preset + (if short then 512 else 0)
    + (if l.ownReady then 1024 else 0) + 2048 * l.stPre + 8192 * l.stPost + 2 ^ 32 * l.seq + 2 ^ 40 * l.ackSeq
  let w := BitVec.ofNat 64 v
  w ||| ((trainCrc w).setWidth 64 <<< 56)

/-- The lane order the frames seen so far show: straight, reversed, or neither (11 R267). -/
def State.laneOrder (s : State) (p : Nat) : Option Bool :=
  let seen := (List.range 4).filter fun k => (s.lane (4 * p + k)).seen
  if seen.all fun k => (s.lane (4 * p + k)).farLane = k then some false
  else if seen.all fun k => (s.lane (4 * p + k)).farLane = 3 - k then some true
  else none

/-- Training frames seen in LOCK, CAPS or ACTIVE (11 R269). -/
def State.farRestart (s : State) (p : Nat) : State :=
  let act := s.stage p = Stage.active
  let s := ((s.raise E.farRestart (4 * p) 14).wr F.laneStatFailCode 14 p).enterTrain p (s.port p).shortOk
  if act then (s.trafficDown p).reportPort p .missing 0 false else s

/-- TRAIN ends: codewords begin, or TEST is entered (11 R274, R285). -/
def State.endTrain (s : State) (p : Nat) : State :=
  let s := s.wr F.laneStatShortUsed (if (s.port p).shortNow then 1 else 0) p
  let s := s.modRxOf p fun r => { r with lockRun := 0 }
  if s.rd F.laneCtlTest p ≠ 0 then s.setStage p Stage.test else s.setStage p Stage.lock

/-- A receiver shows in each TRAIN whether it corrects a lane's polarity (11 R267). -/
def State.polarity (s : State) (p k : Nat) (inverted : Bool) : State :=
  let v := s.rd F.laneStatPolInv p
  s.wr F.laneStatPolInv (v - v / 2 ^ k % 2 * 2 ^ k + (if inverted then 2 ^ k else 0)) p

/-- One training frame received on one lane (11 R267, R271 to R274). -/
def State.trainingFrame (s : State) (p lane : Nat) (w : BitVec 64) (x : TrainSense) : State :=
  let k := lane % 4
  let l := 4 * p + k
  let st := s.stage p
  if st = Stage.lock || st = Stage.caps || st = Stage.active then s.farRestart p
  else if st ≠ Stage.train || (s.port p).wait ≠ .none then s
  else
    let s := s.modLane l fun y => { y with signal := true }
    if (trainCrc w).toNat ≠ bitsOf w 56 8 then s
    else
      let s := s.polarity p k x.inverted
      let first := !(s.lane l).seen
      let full := first && (s.port p).shortNow && bitsOf w 9 1 = 0
      let s := if full then s.enterTrain p false else s
      let s := s.modLane l fun y =>
        let y := { y with seen := true, signal := true, farLane := bitsOf w 0 2,
                          farReady := if bitsOf w 10 1 = 1 then Nat.min 2 (y.farReady + 1) else 0,
                          ownReady := y.ownReady || x.adapted, ctle := x.ctle, dfe := x.dfe }
        let y := if y.reqPre = x.reqPre && y.reqPost = x.reqPost && y.preset = x.preset then y
          else { y with reqPre := x.reqPre, reqPost := x.reqPost, preset := x.preset, seq := (y.seq + 1) % 256 }
        y.answer w
      match s.laneOrder p with
      | none => s.bringupFails p 3
      | some rev =>
        let s := s.wr F.laneStatReversed (if rev then 1 else 0) p
        if x.skewBad then s.bringupFails p 4
        else
          let s := s.emit (.trainWord p k ((s.lane l).word k (s.port p).shortNow))
          if (portLanes p).all fun l => (s.lane l).ownReady && (s.lane l).farReady = 2 then s.endTrain p else s

def execTrainingFrameReceive (port lane : Nat) (word : BitVec 64) (sense : TrainSense) (s : State) :
    Host.Outcome State Fault Refusal := .next (s.trainingFrame port lane word sense)

/-- TRAIN runs out: a short training is followed at once by full training, a full one fails (11 R268, R273). -/
def execTrainTimeout (port : Nat) (s : State) : Host.Outcome State Fault Refusal :=
  .next (if s.stage port ≠ Stage.train || (s.port port).wait ≠ .none then s
    else if (s.port port).shortNow then s.enterTrain port false
    else s.bringupFails port 2)

/-- The wait of 11 R269 ends: the port restarts at TRAIN. -/
def execBringupWaitExpire (port : Nat) (s : State) : Host.Outcome State Fault Refusal :=
  .next (if s.stage port = Stage.train && (s.port port).wait ≠ .none then s.enterTrain port (s.port port).shortOk else s)

/-! ## LOCK and CAPS (11 R275 to R280) -/

/-- LOCK runs out at 200 µs (11 R276). -/
def execCwLock (port : Nat) (s : State) : Host.Outcome State Fault Refusal :=
  .next (if s.stage port = Stage.lock then s.bringupFails port 5 else s)

/-- No valid CAPS block came within 1 ms (11 R268). -/
def execCapsTimeout (port : Nat) (s : State) : Host.Outcome State Fault Refusal :=
  .next (if s.stage port = Stage.caps && (s.port port).capsRun = 0 then s.bringupFails port 6 else s)

/-- A CAPS block's bytes. -/
def capsField (b : Flit) (byte n : Nat) : Nat := b.toNat / 2 ^ (8 * byte) % 2 ^ (8 * n)

/-- MAGIC and CRC hold (11 R277). -/
def capsValid (b : Flit) : Bool :=
  capsField b 0 4 = 0x53504143 && capsField b 60 4 = (crc32c ((flitBytes b).take 60)).toNat

/-- Who sent a block, for the roll call: the ID, 2^16 times the port, 2^24 for an endpoint, 2^25 times its tray. -/
def capsFound (b : Flit) : Nat := capsField b 8 3 + 2 ^ 24 * (capsField b 5 1 % 2) + 2 ^ 25 * (capsField b 30 1 % 128)

/-- A block without FLAGS [2:1] and CRC (11 R277). -/
def capsCore (b : Flit) : Flit :=
  b &&& ~~~((0x6 : Flit) <<< 40) &&& ~~~((0xFFFFFFFF : Flit) <<< 480)

/-- The check of 11 R279 against the plan: the hold code, none where all matches. [DEDUCED log 84] -/
def State.capsHold (s : State) (p : Nat) (b : Flit) : Nat :=
  match s.portPlan p with
  | none => 4
  | some x =>
    if x.cls = 0 then
      if capsField b 5 1 % 2 ≠ 1 || capsField b 30 1 % 128 ≠ x.tray + 32 * x.pos then 1
      else if capsField b 10 1 ≠ x.farPort then 2 else 0
    else
      if capsField b 5 1 % 2 ≠ 0 || capsField b 8 2 ≠ x.farId then 1
      else if capsField b 10 1 ≠ x.farPort then 2
      else if !s.planLive || capsField b 12 8 ≠ s.planHash.toNat % 2 ^ 64 then 3 else 0

/-- The CAPS block this module sends on a port (11 R277). -/
def State.capsBlock (s : State) (p : Nat) : Flit :=
  let x := s.portPlan p
  let hold := s.rd F.laneStatHoldCode p
  let flags := (if (s.port p).ack then 2 else 0) + (if (s.port p).go then 4 else 0) + (if hold ≠ 0 then 8 else 0)
  let assigned := match x with | some y => if y.cls = 0 then 0x8000 + y.endpoint else 0 | none => 0
  let body := leBytes 4 0x53504143 ++ [0] ++ leBytes 1 flags ++ [4] ++ leBytes 1 ((x.map (·.cls)).getD 0) ++
    leBytes 2 s.self ++ leBytes 1 p ++ leBytes 1 hold ++ leBytes 8 (s.planHash.toNat % 2 ^ 64) ++
    leBytes 8 s.trust.devId ++ leBytes 2 assigned ++ leBytes 1 s.tray ++ leBytes 29 0
  flitOf (body ++ leBytes 4 (crc32c body).toNat)

/-- The 48 bytes of a lane's ledger record (11 R287). -/
def laneBytes (lane : Nat) (r : LaneRec) : List Byte :=
  let i8 (v : Int) : List Byte := leBytes 1 (v % 256).toNat
  leBytes 2 lane ++ leBytes 1 r.kind ++ [0] ++ leBytes 4 r.hours ++ leBytes 8 r.farDev ++ i8 r.txPre ++ i8 r.txPost ++
  leBytes 1 r.ctle ++ (List.range 12).flatMap (fun i => i8 (r.dfe.getD i 0)) ++ [0] ++ leBytes 2 r.eye ++
  leBytes 4 r.bringups ++ leBytes 4 r.fails ++ leBytes 6 0

/-- A lane's record as it stands now. [DESIGN CHOICE log 26; DEDUCED log 83] -/
def State.laneRec (s : State) (lane kind eye : Nat) : LaneRec :=
  let l := s.lane lane
  let p := s.port (lane / 4)
  { kind := kind, hours := l.hours, farDev := p.farDev, txPre := l.pre, txPost := l.post, ctle := l.ctle, dfe := l.dfe,
    eye := eye, bringups := p.bringups, fails := p.fails }

def emptyLaneRec : LaneRec :=
  { kind := 0, hours := 0, farDev := 0, txPre := 0, txPost := 0, ctle := 0, dfe := [], eye := 0, bringups := 0, fails := 0 }

/-- Commit a lane's record and keep it as the latest (11 R288). [DEDUCED log 83] -/
def State.writeLane (s : State) (lane kind eye : Nat) : State :=
  let r := s.laneRec lane kind eye
  let g := s.ledger
  let s := { s with ledger := { g with
    lanes := g.lanes.setD lane emptyLaneRec r
    laneBase := if kind = 1 then g.laneBase.setD lane emptyLaneRec r else g.laneBase } }
  s.askLedger 4 lane (laneBytes lane r)

/-- The port reaches ACTIVE (11 R278, R288): a BASELINE at the first time under a plan or when the far part changed; the
eye it records is a measurement the block does not carry, a free value. [DESIGN CHOICE log 26] -/
def State.reachActive (s : State) (p : Nat) : State :=
  let b := (s.port p).capsLast
  let dev := capsField b 20 8
  let fresh := !(s.port p).baseline || (s.port p).farDev ≠ dev
  let s := ((s.setStage p Stage.active).wr F.laneStatFails 0 p).modPort p fun x =>
    { x with bringups := x.bringups + 1, farDev := dev, farId := capsField b 8 2, baseline := true, shortOk := true }
  let s := s.trafficUp p
  let s := if fresh then s.each (portLanes p) fun s l =>
      let d := s.draw
      d.2.writeLane l 1 (Config.freeNat d.1 % 65536)
    else s
  s.reportPort p .expected (s.port p).farId true

/-- One CAPS block received (11 R277 to R280). -/
def State.capsReceive (s : State) (p : Nat) (b : Flit) : State :=
  if s.stage p ≠ Stage.caps then s
  else if !capsValid b then s.modPort p fun x => { x with capsRun := if x.capsRun = 0 then 0 else 1, capsLast := 0 }
  else
    let same := capsCore b = capsCore (s.port p).capsLast
    let s := s.modPort p fun x => { x with capsRun := if same then x.capsRun + 1 else 1, capsLast := b }
    if (s.port p).capsRun < 3 then s.sendCapsBlock p (s.capsBlock p)
    else if capsField b 6 1 ≠ 4 then s.bringupFails p 7
    else
      let old := s.rd F.laneStatHoldCode p
      let hold := s.capsHold p b
      let s := s.wr F.laneStatHoldCode hold p
      if hold ≠ 0 then
        let s := s.modPort p fun x => { x with ack := false, go := false }
        let s := if old = hold then s
          else s.reportPort p (match hold with | 1 => .unexpected | 2 => .wrongPort | 3 => .planMismatch | _ => .unusedPeer)
            (capsFound b) false
        s.sendCapsBlock p (s.capsBlock p)
      else if capsField b 5 1 / 8 % 2 = 1 then
        -- the far side holds, an endpoint with ID_CONFLICT (R280)
        let s := if (s.port p).reported then s else s.reportPort p .idConflict (capsFound b) false
        s.sendCapsBlock p (s.capsBlock p)
      else
        let farAck := capsField b 5 1 / 2 % 2 = 1
        let farGo := capsField b 5 1 / 4 % 2 = 1
        let go := (s.port p).go || ((s.port p).ack && farAck)
        let s := s.modPort p fun x => { x with ack := true, go := go }
        let s := s.sendCapsBlock p (s.capsBlock p)
        if go && farGo then s.reachActive p else s

def execCapsBlockReceive (port : Nat) (block : Flit) (s : State) : Host.Outcome State Fault Refusal :=
  .next (s.capsReceive port block)

/-! ## ACTIVE, DEEP, measurement -/

/-- One 1 ms interval's corrected symbol ratio: above 10^(−DEGRADE ÷ 10) in three consecutive intervals records
FEC_DEGRADE (11 R282). [DEDUCED log 27] -/
def State.fecInterval (s : State) (p corrected total : Nat) : State :=
  if s.stage p ≠ Stage.active then s
  else
    let above := decide (total ^ 10 < corrected ^ 10 * 10 ^ s.rd F.laneCtlDegrade p)
    let run := if above then (s.rxOf p).degradeRun + 1 else 0
    let e := s.evaluate E.fecDegrade (4 * p) (3 ≤ run)
    let s := e.1.modRxOf p fun r => { r with degradeRun := if 3 ≤ run then 0 else run }
    if e.2.1 then s.raise E.fecDegrade (4 * p) 0 0 none e.2.2 else s

def execFecDegrade (port corrected total : Nat) (s : State) : Host.Outcome State Fault Refusal :=
  .next (s.fecInterval port corrected total)

/-- Far energy on a port in DEEP that the plan does not assign (11 R283). -/
def execQUnusedPort (port : Nat) (s : State) : Host.Outcome State Fault Refusal :=
  .next (if s.stage port = Stage.deep && (s.portPlan port).isNone then
    (s.wr F.laneStatHoldCode 4 port).reportPort port .unusedPeer 0 false
  else s)

/-- The PLL has relocked after DEEP was cleared: the port enters DETECT and will train short (11 R283). -/
def execDeepExitRelock (port : Nat) (s : State) : Host.Outcome State Fault Refusal :=
  .next (if s.stage port = Stage.deep && !s.flag F.laneCtlDeep port then
    (s.enterDetect port).modPort port fun x => { x with shortOk := true }
  else s)

/-- Set or clear LANE_CTL.DEEP (11 R270, R283): setting it abandons any stage but FENCED. -/
def State.setDeep (s : State) (p : Nat) (on : Bool) : State :=
  let s := s.wr F.laneCtlDeep (if on then 1 else 0) p
  if on && s.stage p ≠ Stage.fenced && s.stage p ≠ Stage.deep then
    let act := s.stage p = Stage.active
    let s := (s.setStage p Stage.deep).modPort p fun x => { x with wait := .none, ack := false, go := false }
    if act then (s.trafficDown p).reportPort p .missing 0 false else s
  else s

/-- Fence a port: transmitters idle, terminations removed (11 R268, R270; 14 R352). -/
def State.fencePort (s : State) (p : Nat) : State :=
  if s.stage p = Stage.fenced then s
  else
    let act := s.stage p = Stage.active
    let s := (s.setStage p Stage.fenced).modPort p fun x => { x with wait := .none, ack := false, go := false }
    if act then (s.trafficDown p).reportPort p .missing 0 false else s

/-- Release a port's fence: it enters DETECT, or DEEP if DEEP is set (11 R270). -/
def State.unfencePort (s : State) (p : Nat) : State :=
  if s.stage p ≠ Stage.fenced then s
  else if s.flag F.laneCtlDeep p then s.setStage p Stage.deep else s.enterDetect p

/-- LANE_CTL.CLR: clear the PRBS and FEC counters (11 R284, R286). [DEDUCED log 129] -/
def State.clearLaneCounters (s : State) (p : Nat) : State :=
  let s := s.each (portLanes p) fun s l => (s.wr F.lanePrbserrErrors 0 l).wr F.laneSymerrCount 0 l
  s.each (List.range 17) fun s k => s.wr F.laneFechistCount 0 (17 * p + k)

/-- [DEDUCED log 129] -/
def execLaneCounterClear (port : Nat) (s : State) : Host.Outcome State Fault Refusal :=
  .next (s.clearLaneCounters port)

/-- A SNAPSHOT after 720 h of lane time in ACTIVE, and the drift check against BASELINE (11 R288). -/
def State.snapshot (s : State) (lane eye : Nat) : State :=
  let l := s.lane lane
  if l.hours < l.snapHours + 7200 then s
  else
    let s := (s.modLane lane fun x => { x with snapHours := x.hours }).writeLane lane 2 eye
    let b := s.ledger.laneBase.getD lane emptyLaneRec
    let far (a c : Int) (n : Int) : Bool := n < a - c || n < c - a
    if b.kind = 1 && (far l.ctle b.ctle 6 || far (l.dfe.getD 0 0) (b.dfe.getD 0 0) 24 || decide (2 * eye < b.eye)) then
      s.raise E.laneDrift lane
    else s

def execLaneSnapshot (lane eye : Nat) (s : State) : Host.Outcome State Fault Refusal := .next (s.snapshot lane eye)

/-- The feedback taps of PRBS7, PRBS13 and PRBS31 as IEEE 802.3 defines them: the next bit is the exclusive-or of the bits
that many places back (11 R284). -/
def prbsTaps : Nat → List Nat
  | 1 => [6, 7]
  | 2 => [1, 2, 12, 13]
  | _ => [28, 31]

/-- The checker: the first bits seed it, then each bit is compared with the one its own sequence gives; answers the new
history (newest first) and the errors. -/
def prbsRun (taps : List Nat) (len : Nat) (hist : List Bool) : List Bool → List Bool × Nat
  | [] => (hist, 0)
  | b :: bs =>
    if hist.length < len then prbsRun taps len (b :: hist) bs
    else
      let e := taps.foldl (fun x t => x ^^ hist.getD (t - 1) false) false
      let r := prbsRun taps len ((e :: hist).take len) bs
      (r.1, r.2 + (if e = b then 0 else 1))

/-- PRBS bits received on a lane of a port in TEST, after Gray decoding (11 R284, R285). -/
def execPrbsCheck (lane : Nat) (bits : List Bool) (s : State) : Host.Outcome State Fault Refusal :=
  .next (
    let p := lane / 4
    let t := s.rd F.laneCtlTest p
    if s.stage p ≠ Stage.test || t = 0 then s
    else
      let len := [0, 7, 13, 31].getD t 31
      let r := prbsRun (prbsTaps t) len (s.lane lane).prbs bits
      let s := s.modLane lane fun x => { x with prbs := r.1 }
      (s.addSat F.lanePrbserrErrors r.2 lane).wr F.lanePrbserrSync (if len ≤ r.1.length then 1 else 0) lane)

end Sys2Proof.Machine
end

