-- ==== Sys2Proof/Machine/Link.lean ====
section
/-! DEFINITION. The fabric link (02): slots, windows, checkpoints, link-level retry, credits, and codewords (11 R266). -/

namespace Sys2Proof.Machine

/-! ## The sideband (02 R18) -/

def slotVc (x : Slot) : Nat := bitsOf x.side 0 4
def slotFtype (x : Slot) : Nat := bitsOf x.side 4 2
def slotStomp (x : Slot) : Bool := x.side.getLsbD 6
def slotValid (x : Slot) : Bool := x.side.getLsbD 7
def slotCrVc (x : Slot) : Nat := bitsOf x.side 8 4
def slotCrCount (x : Slot) : Nat := bitsOf x.side 12 4
def slotCkpt (x : Slot) : Nat := bitsOf x.side 16 16
def slotCrc (x : Slot) : BitVec 32 := BitVec.extractLsb' 32 32 x.side

/-- A sideband word from its fields. -/
def mkSide (vc ftype : Nat) (stomp valid : Bool) (crVc crCount ckpt : Nat) (crc : BitVec 32) : BitVec 64 :=
  BitVec.ofNat 64 (vc + 16 * ftype + (if stomp then 64 else 0) + (if valid then 128 else 0) + 256 * crVc + 4096 * crCount
    + 65536 * ckpt + 2 ^ 32 * crc.toNat)

/-- A slot's 72 bytes in wire order (02 R17). -/
def slotWire (x : Slot) : List Byte := leBytes 8 x.side.toNat ++ flitBytes x.flit

/-- The CRC-64 of a window (02 R23). -/
def windowCrc (slots : List Slot) : BitVec 64 := crc64 (slots.flatMap slotWire)

/-! ## Transmit -/

/-- The CKPT field of slot `pos` of a new window (02 R22). Window 0 has no window before it: its fields carry what stands
for none. [DEDUCED log 21] -/
def State.ckptField (s : State) (port pos : Nat) : Nat :=
  let t := s.txOf port
  if pos < 4 then bitsOf t.lastCrc (16 * pos) 16
  else if pos = 4 then t.lastSeq
  else if pos = 5 then (s.rxOf port).lastOk
  else if pos = 6 then (if s.rd F.portLlstatRxState port = 2 then 1 else 0)
  else 0

/-- What the front packet of output queue `key` puts in the next slot: FTYPE, stomp, the flit, and whether it ends there; nothing while
its next flit has not come, or waits for a cell. Only a packet whose last flit has come and passed its checks ends unstomped. [DEDUCED log 21] -/
def OutPkt.next (o : OutPkt) (key : Nat) : Option (Nat × Bool × Flit × Bool) :=
  if o.sent < o.flits.length then
    let last := o.whole && !o.stomp && o.sent + 1 = o.flits.length
    if o.chg.ready key = 0 then none
    else some (if o.sent = 0 then (if last then 3 else 0) else if last then 2 else 1, false, o.flits.getD o.sent 0, last)
  else if o.stomp then some (2, true, 0, true)
  else none

/-- The header of a packet that crosses a global link or crosslink gains one hop (02 R47). -/
def State.hopHeader (s : State) (port : Nat) (o : OutPkt) : OutPkt :=
  if o.sent = 0 && !s.isMemberPort port then
    match o.flits with
    | h :: r => { o with flits := hset h H.hops (hget h H.hops + 1) :: r }
    | [] => o
  else o

/-- An uncorrectable flit of the front packet of a queue (02 R39, R40, R42; 04 R86): discarded whole if its head has not left; else
stomped at once with SCAUSE 2, or, on a link to its endpoint, which receives no stomped flit, broken off and asked for again. SPORT
is the generator number of the port by which the packet came, 144 and above for an internal core port. Answers the packet where it
goes on. [DEDUCED log 22; DESIGN CHOICE log 141] -/
def State.bufferLost (s : State) (port vc : Nat) (o : OutPkt) (rest : List OutPkt) : State × Option OutPkt :=
  let k := 16 * port + vc
  let h := o.flits.headD 0
  let member := s.isMemberPort port
  if o.sent = 0 || member then
    let s := (((s.releaseAll k o.chg).detach k o).putOutqOf k rest).onlyIf member fun s => s.undeliver h
    (s.onlyIf (member && o.sent ≠ 0 && sequenced h && hget h H.mcast = 0) fun s =>
      s.sendNack (flowKey (flowOf h)) (hget h H.flowSeq) 2 true, none)
  else
    let r := (s.detach k o).stompOut k o (stompRecord 2 (o.gen % 256) s.self) false
    (r.1, some r.2)

/-- Take the next flit of a VC, if the link holds a credit for it (02 R33): the slot's VC, FTYPE, STOMP, flit and CRC. `read` is the
read of its cell; FTYPE 16 stands for a packet lost there that leaves the slot idle. -/
def State.takeFlit (s : State) (port vc : Nat) (read : CellRead) : Option (State × Nat × Bool × Flit × BitVec 32) :=
  let k := 16 * port + vc
  match s.outqOf k with
  | [] => none
  | o :: rest =>
    if (s.txOf port).credits.getD vc 0 = 0 then none
    else
      let o := s.hopHeader port o
      match o.next k with
      | none => none
      | some (ft, st, f, last) =>
        let x := if st || o.chg.qn + o.chg.far = 0 then (s, f, false) else s.cellRead (portQuad port) 2 read f
        let e := x.1.evaluate E.bufferEcc (qswUnit port) (x.2.2)
        let spend (s : State) : State := s.modTxOf port fun t => { t with credits := t.credits.mod vc 0 (· - 1) }
        let send (s : State) (o : OutPkt) (ft : Nat) (st : Bool) (f : Flit) (last : Bool) :=
          let r := if st then (s, o.chg) else s.releaseOne k o.chg
          let o := { o with chg := r.2, sent := o.sent + (if st then 0 else 1) }
          let s := (spend r.1).onlyIf st fun s => s.linkCount port 2
          some (s.putOutqOf k (if last then rest else o :: rest), ft, st, f, if last then o.crc else 0)
        if e.2.1 && !o.stomp then
          let s := e.1.raise E.bufferEcc (qswUnit port) 0 0 none e.2.2
          match s.bufferLost port vc o rest with
          | (s, none) => some (s, 16, false, 0, 0)
          | (s, some o) => send s o 2 true 0 true
        else
          -- a second cause in a packet already stomped is only recorded (R41)
          let s := if e.2.1 then e.1.raise E.bufferEcc (qswUnit port) 0 0 none e.2.2 else e.1
          send s o ft st x.2.1 last

/-- Close the window in progress once it has 32 slots (02 R21, R27). -/
def State.closeWindow (s : State) (port : Nat) : State :=
  let t := s.txOf port
  if t.cur.length < 32 then s
  else
    let seq := s.rd F.portLlstatTxSeq port
    (s.putTxOf port { t with cur := [], buf := t.buf ++ [{ seq := seq, slots := t.cur }],
                             lastCrc := windowCrc t.cur, lastSeq := seq }).wr F.portLlstatTxSeq ((seq + 1) % 65536) port

/-- Start a replay at a window boundary (02 R27): every window still in the retry buffer is sent again. -/
def State.startReplay (s : State) (port : Nat) : State :=
  let t := s.txOf port
  if t.askReplay && t.cur = [] then
    let again := t.buf.flatMap (·.slots)
    let s := s.putTxOf port { t with askReplay := false, resend := again }
    if again = [] then s.wr F.portLlstatTxState 1 port else s
  else s

/-- Send a slot of a new window: a flit of the VC chosen if there is one to send, else an idle slot, with credits returned
on the VC chosen (02 R17 to R22, R33, R34). -/
def State.newSlot (s : State) (port : Nat) (vc : Option Nat) (crVc : Nat) (read : CellRead) : State :=
  let taken := vc.bind fun v => (s.takeFlit port v read).map fun r => (v, r)
  let s := match taken with | some (_, s', _) => s' | none => s
  let cr := if crVc < 6 || (8 ≤ crVc && crVc ≤ 10) then s.returnCredits port crVc else (s, 0)
  let s := cr.1
  let ck := s.ckptField port (s.txOf port).cur.length
  let cv := if cr.2 = 0 then 0 else crVc
  let x : Slot := match taken with
    | some (v, _, ft, st, f, crc) =>
      if ft = 16 then { side := mkSide 0 0 false false cv cr.2 ck 0, flit := 0 }
      else { side := mkSide v ft st true cv cr.2 ck crc, flit := f }
    | none => { side := mkSide 0 0 false false cv cr.2 ck 0, flit := 0 }
  ((s.modTxOf port fun t => { t with cur := t.cur ++ [x] }).sendSlot port x).closeWindow port

/-- SLOT_TRANSMIT: the next slot of a port in ACTIVE; in REPLAY the retry buffer's slots again, unchanged (02 R27). A new
window is not begun while the retry buffer holds its 64. -/
def State.slotTransmit (s : State) (port : Nat) (vc : Option Nat) (crVc : Nat) (read : CellRead) : State :=
  if !s.active port then s
  else
    let s := s.startReplay port
    let t := s.txOf port
    match t.resend with
    | x :: rest =>
      let s := (s.putTxOf port { t with resend := rest }).sendSlot port x
      if rest = [] then s.wr F.portLlstatTxState 1 port else s
    | [] =>
      if t.cur = [] && 64 ≤ t.buf.length then s else (s.newSlot port vc crVc read).startReplay port

def execSlotTransmit (port : Nat) (vc : Option Nat) (crVc : Nat) (read : CellRead) (s : State) :
    Host.Outcome State Fault Refusal := .next (s.slotTransmit port vc crVc read).moveCells

/-! ## Retry (02 R27 to R30) -/

/-- PORT_LLCFG.RETRY_LIMIT as it acts. -/
def State.retryLimit (s : State) (port : Nat) : Nat :=
  if s.rd F.portLlcfgRetryLimit port = 0 then 8 else s.rd F.portLlcfgRetryLimit port

/-- Enter REPLAY: counted from its oldest window; beyond the limit the link fails (02 R27, R29, R30). -/
def State.enterReplay (s : State) (port : Nat) : State :=
  if s.rd F.portLlstatTxState port ≠ 1 then s
  else
    let t := s.txOf port
    let oldest := ((t.buf.head?).map (·.seq)).getD (s.rd F.portLlstatTxSeq port)
    let n := if t.replayFrom = some oldest then s.rd F.portLlstatReplays port + 1 else 1
    let e := s.evaluate E.linkRetryExhausted port (s.retryLimit port < n)
    if e.2.1 then e.1.leaveActive port E.linkRetryExhausted port 12 e.2.2
    else
      let s := ((e.1.linkCount port 1).wr F.portLlstatReplays (Nat.min n 15) port).wr F.portLlstatTxState 2 port
      (s.modTxOf port fun t => { t with askReplay := true, replayFrom := some oldest }).startReplay port

/-- The retry timer expires with windows outstanding (02 R27). [DESIGN CHOICE log 4] -/
def execRetryTimerExpire (port : Nat) (s : State) : Host.Outcome State Fault Refusal :=
  .next (if s.active port && (s.txOf port).buf ≠ [] then s.enterReplay port else s)

/-- A verified WACK frees the windows up to it; an advance resets the replay count (02 R27, R30). -/
def State.applyWack (s : State) (port wack : Nat) : State :=
  let t := s.txOf port
  match t.buf.findIdx? fun w => w.seq = wack with
  | some i =>
    (s.putTxOf port { t with buf := t.buf.drop (i + 1), acked := some wack, replayFrom := none }).wr
      F.portLlstatReplays 0 port
  | none => s

/-! ## Receive -/

/-- What a verified window carries: credits, then WACK, then RETRY_REQ (02 R25, R29, R33). -/
def State.applyWindow (s : State) (port : Nat) (slots : List Slot) : State :=
  let s := slots.foldl (fun s x =>
    if slotCrCount x = 0 then s
    else s.modTxOf port fun t => { t with credits := t.credits.mod (slotCrVc x) 0 (· + slotCrCount x) }) s
  let s := s.applyWack port (slotCkpt (slots.getD 5 ⟨0, 0⟩))
  if slotCkpt (slots.getD 6 ⟨0, 0⟩) % 2 = 1 then s.enterReplay port else s

/-- Forward the flit of one slot of link window `win`, if it carries one (02 R26, R32, R36). A flit without credit fails the link. -/
def State.forwardSlot (s : State) (port : Nat) (x : Slot) (win : Nat) : State :=
  if !s.active port || !slotValid x then s
  else
    match s.acceptFlit port (slotVc x) (slotFtype x) (slotStomp x) (slotCrc x) x.flit win with
    | some s => s
    | none => (s.wr F.portLlstatCreditOverrun 1 port).leaveActive port E.creditOverrun port 13

/-- Take the flit of a replayed slot into the replay entry of the packet that was stomped for it at its ingress edge (02 R43). -/
def State.refillSlot (s : State) (port : Nat) (x : Slot) : State :=
  let k := 16 * port + slotVc x
  let q := s.inqOf k
  let tail := slotFtype x = 2 || slotFtype x = 3
  let stomp := slotFtype x = 2 && slotStomp x
  match q.findIdx? fun p => p.broken ≠ 0 && !p.ended with
  | none => s
  | some i => s.putInqOf k (q.modify i fun p =>
      { p with flits := if stomp then p.flits else p.flits ++ [x.flit], ended := tail, stomp := stomp
               crc := if tail then slotCrc x else p.crc })

/-- Forward the slots `i`, `i + 1`, … of window `win` that `skip` does not name; of those it names, `refill` tells which go into a
replay entry. -/
def State.forwardFrom (s : State) (port : Nat) (skip refill : BitVec 32) (win i : Nat) : List Slot → State
  | [] => s
  | x :: xs =>
    (if !skip.getLsbD i then s.forwardSlot port x win
     else if refill.getLsbD i then s.refillSlot port x else s).forwardFrom port skip refill win (i + 1) xs

/-- The packets that the forwarded slots of a window hold on a VC, oldest first, as the slots of each. -/
def segments (slots : List Slot) (fwd : BitVec 32) (vc : Nat) : List (List Nat) :=
  (slots.zipIdx).foldl (fun (acc : List (List Nat)) (e : Slot × Nat) =>
    if !slotValid e.1 || !fwd.getLsbD e.2 || slotVc e.1 ≠ vc then acc
    else if slotFtype e.1 = 0 || slotFtype e.1 = 3 then acc ++ [[e.2]]
    else acc.dropLast ++ [acc.getLastD [] ++ [e.2]]) []

/-- Take back the last `n` flits of the packet open on a VC, so that the replay brings them again: the credits they used are given
back to their VC. [DEDUCED log 22] -/
def State.takeBack (s : State) (k n : Nat) : State :=
  match s.open? k with
  | none => s
  | some p =>
    let s := s.modVcb k fun b => { b with flits := b.flits - n, credits := b.credits + n }
    if n < p.flits.length then s.modLast k fun p => { p with flits := p.flits.take (p.flits.length - n) }
    else
      let s := (s.dropLast k).undebit (k / 16) (k % 16) p.hdr
      match p.flow with
      | some (fk, seq) => s.freeEntry fk seq true
      | none => s

/-- Take back flits already passed to an output whose head has not left. [DEDUCED log 22] -/
def State.takeBackFed (s : State) (po vo k n : Nat) : State :=
  s.modFed po vo k fun s o =>
    let r := s.chargeTake (16 * po + vo) o.chg n
    let flits := o.flits.take (o.flits.length - n)
    (r.1, if flits = [] then none else some { o with flits := flits, chg := r.2 })

/-- Packets that came whole by (port, VC) `k`, their tail in link window `w`, and are leaving: stomped, and at their ingress edge resent from
their entry, which is complete (02 R40, R43). -/
def State.stompWhole (s : State) (k w : Nat) (record : BitVec 32) : State :=
  (s.outq.map (·.1)).foldl (fun s key =>
    match s.outqOf key with
    | o :: rest =>
      if o.src = some k && o.whole && !o.stomp && 0 < o.sent && o.win = w then
        let r := s.stompOut key o record false
        let s := r.1.putOutqOf key (r.2 :: rest)
        match o.flow with
        | some (fk, seq) => s.resendOwn fk seq []
        | none => s
      else s
    | [] => s) s

/-- The bits `is` of a record, set or cleared. -/
def markBits (r : BitVec 32) (is : List Nat) (on : Bool) : BitVec 32 :=
  is.foldl (fun (b : BitVec 32) i => if on then b ||| ((1 : BitVec 32) <<< i) else b &&& ~~~((1 : BitVec 32) <<< i)) r

/-- The packet at the front of a VC, whose head has left, had flits in the failed window `at_`: stomped at once; its remaining flits are
dropped, or at its ingress edge taken into its entry, the failed ones from the replay (02 R31, R40, R43). Answers whether it is so taken. -/
def State.failLeftPacket (s : State) (port vc : Nat) (p : InPkt) (at_ : List Nat) : State × Bool :=
  let k := 16 * port + vc
  let s := match p.route with
    | .forward po vo => s.onlyIf (decide (p.broken = 0)) fun s => s.stompFed po vo k (stompRecord 1 port s.self) false
    | _ => s
  let s := s.dropFlits k p.charged
  if p.flow.isSome then
    let n := at_.length - (if p.ended && p.stomp then 1 else 0)
    (s.modFront k fun p => { p with flits := p.flits.take (p.flits.length - n), ended := false, stomp := false
                                    broken := if p.broken = 0 then 1 else p.broken }, true)
  else if p.ended then (s.modFront k fun p => { p with route := .discard }, false)
  else ((s.popFront k).dropVc port vc, false)

/-- The packet open on a VC, whose head has not left, had flits in the failed window: the replay brings them again. One whose tail came is
left as it is; its own check decides. [DEDUCED log 22] -/
def State.failOpen (s : State) (port vc : Nat) (p : InPkt) (at_ : List Nat) : State :=
  let k := 16 * port + vc
  match p.route with
  | .forward po vo => (s.takeBackFed po vo k at_.length).takeBack k at_.length
  | _ => s.takeBack k at_.length

/-- A window `w` fails after some of its flits on a VC were forwarded (02 R31, R40, R43). Answers the record of R31 and the slots that go into
replay entries. -/
def State.failVc (s : State) (port w vc : Nat) (segs : List (List Nat)) (r : BitVec 32 × BitVec 32) :
    State × BitVec 32 × BitVec 32 :=
  let k := 16 * port + vc
  let s := s.stompWhole k w (stompRecord 1 port s.self)
  let q := s.inqOf k
  let slotsOf (i : Nat) : List Nat := if q.length ≤ segs.length + i then segs.getD (segs.length + i - q.length) [] else []
  let front := slotsOf 0
  let back := slotsOf (q.length - 1)
  let hit := (q.head?).any fun p => front ≠ [] && (p.broken ≠ 0 || match p.route with
    | .forward po vo => s.headLeft po vo k
    | _ => false)
  let x := match q with
    | p :: _ => if hit then
        (let y := s.failLeftPacket port vc p front
         (y.1, r.1, if y.2 then markBits r.2 front true else r.2))
      else (s, r)
    | [] => (s, r)
  match q.getLast? with
  | some p =>
    if p.ended || back = [] || p.route = .discard || (hit && q.length = 1) then x
    else (x.1.failOpen port vc p back, markBits x.2.1 back false, x.2.2)
  | none => x

/-- Enter DISCARD because of window `w` (02 R24, R28, R31). [DEDUCED log 22] -/
def State.failWindow (s : State) (port w : Nat) (slots : List Slot) (fwd : BitVec 32) : State :=
  let s := (s.linkCount port 0).wr F.portLlstatRxState 2 port
  let r := [0, 1, 2, 3, 4, 5, 8, 9, 10].foldl (fun (x : State × BitVec 32 × BitVec 32) vc =>
    let segs := segments slots fwd vc
    if segs = [] then x else x.1.failVc port w vc segs x.2) (s, fwd, 0)
  r.1.modRxOf port fun x => { x with record := r.2.1, refill := r.2.2, fwdPrev := 0, fwdCur := 0 }

/-- Fail the window in progress if an uncorrectable codeword overlaps it. If the one before it has not been tested, none of its flits
has been forwarded (R26), and that test still follows. -/
def State.failCurrent (s : State) (port : Nat) : State :=
  let x := s.rxOf port
  if s.rd F.portLlstatRxState port = 1 && x.badWins.contains x.winIdx then
    if x.tested then s.failWindow port x.winIdx x.cur x.fwdCur
    else (((s.linkCount port 0).wr F.portLlstatRxState 2 port).modRxOf port fun x => { x with early := true })
  else s

/-- Forward the held first slots of the window in progress once the window before it has verified (02 R26). -/
def State.forwardHeld (s : State) (port : Nat) : State :=
  let s := s.failCurrent port
  if s.rd F.portLlstatRxState port ≠ 1 then s
  else
    let x := s.rxOf port
    let s := s.putRxOf port { x with fwdCur := BitVec.ofNat 32 (2 ^ x.cur.length - 1) }
    s.forwardFrom port 0 0 x.winIdx 0 x.cur

/-- The test of window n at the end of slot 4 of window n + 1 (02 R24, R26, R28). -/
def State.testWindow (s : State) (port : Nat) : State :=
  let x := s.rxOf port
  let c (i : Nat) : Nat := slotCkpt (x.cur.getD i ⟨0, 0⟩)
  let crc := c 0 + 2 ^ 16 * c 1 + 2 ^ 32 * c 2 + 2 ^ 48 * c 3
  let ok := (windowCrc x.prev).toNat = crc && c 4 = x.expect && !(x.winIdx ≠ 0 && x.badWins.contains (x.winIdx - 1))
  let s := s.putRxOf port { x with tested := true, early := false, badWins := x.badWins.filter fun w => x.winIdx ≤ w }
  let good (s : State) : State :=
    (s.modRxOf port fun x => { x with lastOk := x.expect, expect := (x.expect + 1) % 65536 }).applyWindow port x.prev
  if s.rd F.portLlstatRxState port = 2 && !x.early then
    if ok then
      let s := s.wr F.portLlstatRxState 1 port
      let s := s.modRxOf port fun x => { x with record := 0, refill := 0 }
      ((good s).forwardFrom port x.record x.refill (x.winIdx - 1) 0 x.prev).forwardHeld port
    else s
  else if ok then
    -- window n + 1 may have failed before this test: none of it was forwarded
    if x.early then (good s).modRxOf port fun x => { x with record := 0, refill := 0, fwdPrev := 0, fwdCur := 0 }
    else (good s).forwardHeld port
  else s.failWindow port (x.winIdx - 1) x.prev x.fwdPrev

/-- SLOT_RECEIVE: one slot of a port in ACTIVE. -/
def State.slotReceive (s : State) (port : Nat) (slot : Slot) : State :=
  if !s.active port then s
  else
    let x := s.rxOf port
    let pos := x.cur.length
    let s := s.putRxOf port { x with cur := x.cur ++ [slot] }
    let s :=
      if pos = 4 && x.prev ≠ [] then s.testWindow port
      else if s.rd F.portLlstatRxState port = 1 && x.tested then
        let s := s.failCurrent port
        if s.rd F.portLlstatRxState port = 1 then
          (s.modRxOf port fun x => { x with fwdCur := x.fwdCur ||| ((1 : BitVec 32) <<< pos) }).forwardSlot port slot x.winIdx
        else s
      else s
    let y := s.rxOf port
    if y.cur.length = 32 then
      s.putRxOf port { y with prev := y.cur, cur := [], fwdPrev := y.fwdCur, fwdCur := 0, tested := false,
                              winIdx := y.winIdx + 1 }
    else s

def execSlotReceive (port : Nat) (slot : Slot) (s : State) : Host.Outcome State Fault Refusal :=
  .next (s.slotReceive port slot).moveCells

/-! ## Codewords (11 R266, R276, R282, R286) -/

/-- The windows that codeword `c` of a slot stream overlaps: 5,140 message bits against 18,432 bits a window. -/
def windowsOf (c : Nat) : List Nat :=
  let a := 5140 * c / 18432
  let b := (5140 * c + 5139) / 18432
  if a = b then [a] else [a, b]

/-- One codeword decoded on a port in ACTIVE. -/
def State.codeword (s : State) (port : Nat) (cw : Codeword) : State :=
  let x := s.rxOf port
  match cw with
  | .corrected a b c d =>
    let n := Nat.min 15 (a + b + c + d)
    let s := s.addSat F.laneFechistCount 1 (17 * port + n)
    let s := (((s.addSat F.laneSymerrCount a (4 * port)).addSat F.laneSymerrCount b (4 * port + 1)).addSat
      F.laneSymerrCount c (4 * port + 2)).addSat F.laneSymerrCount d (4 * port + 3)
    s.modRxOf port fun x => { x with cwIdx := x.cwIdx + 1, uncorrRun := 0 }
  | .uncorrectable =>
    let s := s.addSat F.laneFechistCount 1 (17 * port + 16)
    let ws := (windowsOf x.cwIdx).filter fun w => x.winIdx ≤ w + 1
    let recent := s.now :: x.uncorrAt.filter fun t => s.now < t + 1000000
    let s := s.putRxOf port { x with cwIdx := x.cwIdx + 1, uncorrRun := x.uncorrRun + 1, uncorrAt := recent.take 16,
                                     badWins := x.badWins ++ ws }
    -- a window overlapped fails as soon as the codeword is decoded (02 R24)
    let s := if s.rd F.portLlstatRxState port = 1 && !x.tested && x.winIdx ≠ 0 && ws.contains (x.winIdx - 1) then
        s.failWindow port (x.winIdx - 1) x.prev x.fwdPrev
      else s.failCurrent port
    let burst := s.evaluate E.uncorrBurst (4 * port) (16 ≤ recent.length)
    let lock := burst.1.evaluate E.lockLost (4 * port) (4 ≤ x.uncorrRun + 1)
    let s := lock.1
    if lock.2.1 then s.leaveActive port E.lockLost (4 * port) 10 lock.2.2
    else if burst.2.1 then s.leaveActive port E.uncorrBurst (4 * port) 11 burst.2.2
    else s

/-- CODEWORD_RECEIVE: in LOCK sixteen good codewords in a row end the stage (11 R276). -/
def execCodewordReceive (port : Nat) (cw : Codeword) (s : State) : Host.Outcome State Fault Refusal :=
  .next (
    if s.stage port = Stage.lock then
      match cw with
      | .corrected a b c d =>
        if a + b + c + d ≤ 15 then
          let n := (s.rxOf port).lockRun + 1
          let s := s.modRxOf port fun x => { x with lockRun := n }
          if 16 ≤ n then
            (s.setStage port Stage.caps).modPort port fun x => { x with capsRun := 0, capsLast := 0, ack := false, go := false }
          else s
        else s.modRxOf port fun x => { x with lockRun := 0 }
      | .uncorrectable => s.modRxOf port fun x => { x with lockRun := 0 }
    else if s.active port then s.codeword port cw
    else s)

end Sys2Proof.Machine
end

