-- ==== Sys2Proof/Machine/Edge.lean ====
section
/-! DEFINITION. The edges of the fabric (03 R70 to R84): acknowledgements, NACKs, timers and stalled endpoints; the
table-generation switch (R57); and the packet commands, each followed by what it causes at once inside
the module. -/

namespace Sys2Proof.Machine

/-! ## Packets through the switch -/

def execHeadReceive (port vc : Nat) (s : State) : Host.Outcome State Fault Refusal := .next (s.headReceive port vc).settle

def execTailReceive (port vc : Nat) (held : List (Nat × CellRead)) (s : State) : Host.Outcome State Fault Refusal :=
  .next (s.tailReceive port vc held).settle

def execEscapeMove (port vc : Nat) (s : State) : Host.Outcome State Fault Refusal := .next (s.escapeMove port vc).settle

/-! ## Acknowledgements (03 R71, R78) -/

/-- ACK_DELAY_EXPIRE: 1 µs after the oldest delivery not yet acknowledged. -/
def execAckDelayExpire (flow : FlowId) (s : State) : Host.Outcome State Fault Refusal :=
  .next (let k := flowKey flow
    if flow.cast = 0 && 0 < (s.egFlow k).sinceAck then s.sendAck k else s)

/-- Free the entries of a unicast flow up to and including ASEQ. -/
def State.ackFlow (s : State) (k aseq : Nat) : State :=
  let done := (s.inFlow k).entries.filter fun r => seqLe r.seq aseq
  let s := s.modInFlow k fun f => { f with entries := f.entries.filter fun r => !seqLe r.seq aseq }
  done.foldl (fun s r => s.tellUnit r true 0) s

/-- E2E_ACK_RECEIVE: the first waiting E2E_ACK. -/
def execE2eAckReceive (s : State) : Host.Outcome State Fault Refusal :=
  .next (match s.takeLocal (isType PT.e2eAck) with
    | none => s
    | some (p, _, s) =>
      let k := flowKey (flowNamed s p.hdr)
      (if hget p.hdr H.kind = 0 then s.ackFlow k (hget p.hdr H.aseq)
       else s.mergeLeaves k (hget p.hdr H.aseq) (hget p.hdr H.leafStatus)).settle)

/-! ## Gaps and replays (03 R72 to R76) -/

/-- GAP_TIMEOUT: the first missing sequence is asked for again; the timer restarts. [DESIGN CHOICE log 4] -/
def execGapTimeout (flow : FlowId) (s : State) : Host.Outcome State Fault Refusal :=
  .next (let k := flowKey flow
    if (s.egFlow k).gapOn then (s.sendNack k (s.egFlow k).expect 1 true).settle else s)

/-- E2E_NACK_RECEIVE: the first waiting E2E_NACK that asks for a packet again. -/
def execE2eNackReceive (reads : List CellRead) (s : State) : Host.Outcome State Fault Refusal :=
  .next (match s.takeLocal fun h => isType PT.e2eNack h && hget h H.ncause ≠ 4 with
    | none => s
    | some (p, _, s) =>
      let k := flowKey (flowNamed s p.hdr)
      let seq := hget p.hdr H.aseq
      let s := s.modEntry k seq fun r => { r with nacks := hget p.hdr H.rcount }
      (match s.entry? k seq with
       | none => s
       | some r => s.replay k r reads).settle)

/-- ACK_TIMEOUT: no acknowledgement has advanced a flow; its oldest entry is resent once (03 R75). [DESIGN CHOICE log 4] -/
def execAckTimeout (flow : FlowId) (reads : List CellRead) (s : State) : Host.Outcome State Fault Refusal :=
  .next (let k := flowKey flow
    match (s.inFlow k).entries with
    | [] => s
    | r :: _ =>
      let r := { r with resends := r.resends + 1 }
      ((s.modEntry k r.seq fun _ => r).replay k r reads).settle)

/-- FLOW_ERROR_RECEIVE: at the egress edge the flow's held packets are discarded, the flow is reset and the header flit
goes on to the destination endpoint (03 R76, R79); at an ingress edge that a stalled egress edge tells (R83), the flow
ends. -/
def execFlowErrorReceive (s : State) : Host.Outcome State Fault Refusal :=
  .next (match s.takeLocal fun h => isType PT.e2eNack h && hget h H.ncause = 4 with
    | none => s
    | some (p, _, s) =>
      let f := flowNamed s p.hdr
      let k := flowKey f
      if hget p.hdr H.src = egressModule f && f.cast = 0 && (s.inFlows.find k).isSome && ingressModule f = s.self then
        (s.endFlow k (p.pay.headD p.hdr)).settle
      else
        let s := { s with egFlows := s.egFlows.erase k }
        if f.cast ≠ 0 || f.dmod then s
        else
          let h := hsets (s.e2eHdr f PT.e2eNack f.dst false (hget p.hdr H.aseq)) [(H.ncause, 4)]
          let q := s.flowQuad f
          let n := mkPacketF h p.pay
          match s.toMember (f.dst % 32) (coreGen q 3) none n (.unit q 6) with
          | some s => s
          | none => { s with notices := s.notices ++ [(f.dst % 32, n)] })

/-! ## A stalled endpoint (03 R83) -/

/-- The ports of a member's links. -/
def State.memberPortsOf (s : State) (m : Nat) : List Nat :=
  ((List.range 8).map fun l => s.tables.memberPorts.getD (8 * m + l) 0).filterMap fun e => if e = 0 then none else some (e - 1)

/-- Discard what is queued for a port; input packets on their way to it are discarded as they arrive. [DEDUCED log 56] -/
def State.dropQueued (s : State) (port vc : Nat) : State :=
  let k := 16 * port + vc
  (s.outqOf k).foldl (fun s o => (s.releaseAll k o.chg).detach k o) (s.putOutqOf k [])

/-- The first packet of each unicast flow that waits for an endpoint, queued for its links or held out of order (03 R83). -/
def State.flowsHeld (s : State) (ep : Nat) (ports vcs : List Nat) : Tab Flit :=
  let queued := ports.flatMap fun p => vcs.flatMap fun v => (s.outqOf (16 * p + v)).map fun o => o.flits.headD 0
  let held := s.egFlows.flatMap fun e => e.2.held.filterMap fun h => h.pkt.map (·.hdr)
  (queued ++ held).foldl (fun (t : Tab Flit) h =>
    let k := flowKey (flowOf h)
    if sequenced h && hget h H.dmod = 0 && hget h H.mcast = 0 && hget h H.dst = ep && (t.find k).isNone then t.insert k h else t) []

/-- ENDPOINT_STALL: the endpoint returned no credit on a VC for CONSUME_LIMIT while flits wait for it. Each flow with a packet
discarded here ends with FLOW_ERROR. [DEDUCED log 56] -/
def execEndpointStall (ep vc : Nat) (s : State) : Host.Outcome State Fault Refusal :=
  .next (let m := ep % 32
    let ports := s.memberPortsOf m
    let vcs := List.range 11
    match ports.find? fun p => s.active p && s.outqOf (16 * p + vc) ≠ [] with
    | none => s
    | some port =>
      if ep / 32 % 16 ≠ s.group then s
      else
        let s := (s.check E.endpointStall (qswUnit port) true).1
        let flows := s.flowsHeld (ep % 512) ports vcs
        let s := s.each ports fun s p => s.each vcs fun s v => s.dropQueued p v
        let s := flows.foldl (fun s e =>
          let f := keyFlow e.1
          ({ s with egFlows := s.egFlows.erase e.1 }).sendCtl
            (mkPacketF (hset (s.e2eHdr f PT.e2eNack (ingressModule f) true (hget e.2 H.flowSeq)) H.ncause 4) [asSent e.2])
            (s.flowQuad f)) s
        (s.each ports State.fencePort).settle)

/-! ## The table-generation switch (03 R57; 13 R327) -/

/-- What a switch makes active: the shadow tables, with GEN and PORT_SLICE. -/
def State.switchTables (s : State) (gen : Nat) : State :=
  let t := { s.shadow with gen := gen }
  let s := { s with tables := t, shadow := t, agent := { s.agent with pendingSwitch := none }
                    streamHeld := s.streamHeld.filter fun sl => t.portSlice.any fun e => e.2 = 256 + sl }
  let s := s.each [0, 1, 2, 3] fun s q => (s.wr F.qswTgenGen gen q).wr F.qswTgenPending 0 q
  s.each (List.range 144) fun s p =>
    let v := t.portSlice.getD p 0
    (s.wr F.portSliceSlice (v % 256) p).wr F.portSliceValid (v / 256 % 2) p

end Sys2Proof.Machine
end

