-- ==== Sys2Proof/Machine/Ext.lean ====
section
/-! DEFINITION. The Ethernet ports and the gateway (12 R289 to R296), and PCIe: the window into fabric memory and the DMA
engine (12 R298 to R301). -/

namespace Sys2Proof.Machine

/-! ## Ethernet ports -/

/-- Whether a sub-port of an Ethernet port is up. -/
def State.ethUp (s : State) (port sub : Nat) : Bool := port < 8 && (s.rd F.ethStatLink port).testBit sub

/-- The four addresses of a port, those that have been set. -/
def State.ownAddrs (s : State) (port : Nat) : List Nat :=
  ((List.range 4).map fun i => s.ethAddr.getD (4 * port + i) 0).filter (· ≠ 0)

/-- The inbound queue of a port, in bytes: GATE packets it has accepted and the fabric has not yet taken, of a priority. -/
def State.inboundBytes (s : State) (port prio : Nat) : Nat :=
  (s.heldPkts.map fun x => match x.origin with
    | .gate p q n => if p = port && q = prio then n else 0
    | _ => 0).sum

/-- ETH_CFG.PFC_XOFF in bytes; a value below 64 acts as 64. -/
def State.xoffBytes (s : State) (port : Nat) : Nat := 1024 * Nat.max 64 (s.rd F.ethCfgPfcXoff port)

/-- Send PFC XOFF on each enabled priority whose queue exceeds the level, and XON below half of it (12 R295). -/
def State.pfcTurn (s : State) (port sub : Nat) : State :=
  s.each (List.range 8) fun s prio =>
    let e := s.ethOf (2 * port + sub)
    let n := s.inboundBytes port prio
    if !(s.rd F.ethCfgPfcEn port).testBit prio then s
    else if !e.xoff.testBit prio && s.xoffBytes port < n then
      ((s.putEthOf (2 * port + sub) { e with xoff := e.xoff + 2 ^ prio }).emit (.pfc port sub prio true)).ev (U.eth port) 0x05
    else if e.xoff.testBit prio && n < s.xoffBytes port / 2 then
      (s.putEthOf (2 * port + sub) { e with xoff := e.xoff - 2 ^ prio }).emit (.pfc port sub prio false)
    else s

/-- The pauses of every sub-port that is up, as occupancies stand. -/
def State.pfcTurns (s : State) : State :=
  s.each (List.range 16) fun s k => if s.ethUp (k / 2) (k % 2) then s.pfcTurn (k / 2) (k % 2) else s

/-! ## The gateway (12 R291 to R294) -/

/-- The 32-byte encapsulation header of a tunnel frame (12 R293). -/
def encapsulation (t : Tunnel) (h : Flit) (len : Nat) : List Byte :=
  leBytes 1 1 ++ leBytes 1 (hget h H.poison) ++ leBytes 2 len ++ leBytes 2 (hget h H.src) ++ leBytes 2 (hget h H.remoteEp) ++
    leBytes 4 t.keyTx ++ leBytes 4 (hget h H.gtag) ++ leBytes 16 (hget h H.opaque_)

/-- A number's bytes, most significant first. -/
def beBytes (n v : Nat) : List Byte := (leBytes n v).reverse

/-- One's complement sum of 16-bit words in network order. -/
def onesSum (bs : List Byte) : Nat :=
  let n := (List.range ((bs.length + 1) / 2)).foldl (fun a k =>
    a + 256 * (bs.getD (2 * k) 0).toNat + (bs.getD (2 * k + 1) 0).toNat) 0
  iter (fun x => x % 65536 + x / 65536) 4 n

/-- The UDP checksum over the pseudo-header of either IP version (PRESUMED from RFC 768 and RFC 8200). [PRESUMED log 60] -/
def udpChecksum (ipVer src dst sport dport : Nat) (bytes : List Byte) : Nat :=
  let n := 8 + bytes.length
  let w := if ipVer = 6 then 16 else 4
  let c := 65535 - onesSum (beBytes w src ++ beBytes w dst ++ beBytes 4 n ++ beBytes 4 17 ++ beBytes 2 sport ++ beBytes 2 dport
    ++ beBytes 2 n ++ beBytes 2 0 ++ bytes)
  if c = 0 then 65535 else c

/-- The frame that carries a GATE packet through a tunnel. [PRESUMED log 60] -/
def State.gateFrame (s : State) (t : Tunnel) (p : Packet) : Frame :=
  let pay := payBytes p
  let bytes := encapsulation t p.hdr pay.length ++ pay
  let src := s.ethAddr.getD (4 * t.port + t.localIdx) 0
  let sport := 49152 + (crc32c (leBytes 2 (hget p.hdr H.src) ++ leBytes 2 (hget p.hdr H.remoteEp))).toNat % 16384
  let dport := s.rd F.ethGatecfgUdpPort t.port
  { kind := .udp, vlan := t.vlan, prio := t.pcp, dstMac := t.nextHop, srcIp := src, dstIp := t.remote, ipVer := t.ipVer
    dscp := t.dscp, ttl := 64, srcPort := sport, dstPort := dport
    csum := udpChecksum t.ipVer src t.remote sport dport bytes, csumOk := true, bytes := bytes }

/-- The bytes a frame takes in its outbound queue: headers, payload and FCS (12 R293). -/
def frameSize (f : Frame) : Nat := (if f.vlan ≠ 0 then 18 else 14) + (if f.ipVer = 6 then 40 else 20) + 8 + f.bytes.length + 4

/-- The outbound queue of a sending port: 1 MiB. -/
def outboundLimit : Nat := 1048576

/-- GATE_PACKET_RECEIVE: the first waiting GATE packet is checked, and queued as a frame or dropped (12 R292, R293, R295). [DEDUCED log 90] -/
def execGatePacketReceive (s : State) : Host.Outcome State Fault Refusal :=
  .next (match s.takeLocal (isType PT.gate) with
    | none => s
    | some (p, _, s) =>
      let t := s.tables.tunnels.getD (hget p.hdr H.tunnel) {}
      let cause := if !t.valid then 1 else if t.slice ≠ hget p.hdr H.slice then 2 else if !s.ethUp t.port t.sub then 3 else 0
      let c := s.check E.gateDenied t.port (cause ≠ 0) (Config.extCause cause)
      if c.2 then c.1
      else
        let s := c.1
        let f := s.gateFrame t p
        let k := 2 * t.port + t.sub
        let e := s.ethOf k
        if outboundLimit < e.outBytes + (frameSize f) then (s.addSat F.ethStatTxDrop 1 t.port).ev (U.eth t.port) 0x07
        else
          (s.putEthOf k { e with outq := e.outq ++ [f], outBytes := e.outBytes + (frameSize f) }))

/-- The tunnel through which a received frame comes (12 R294). -/
def State.tunnelOf (s : State) (port sub key srcIp : Nat) : Option (Nat × Tunnel) :=
  s.tables.tunnels.find? fun e =>
    e.2.valid && e.2.keyRx = key && e.2.remote = srcIp && e.2.port = port && e.2.sub = sub

/-- Whether an endpoint lies in a slice as the tables hold it. -/
def State.epInSlice (s : State) (sl ep : Nat) : Bool := s.sliceRow sl (ep / 32 % 16) && s.sliceCol sl (ep % 32)

/-- A frame to the tunnel port: the checks of 12 R294, then a GATE packet to its endpoint. -/
def State.tunnelFrame (s : State) (port sub : Nat) (f : Frame) : State :=
  let b := f.bytes
  let len := fieldAt b 2 2
  let ep := fieldAt b 6 2 % 512
  match s.tunnelOf port sub (fieldAt b 8 4) f.srcIp with
  | none => s.addSat F.ethStatGateReject 1 port
  | some (i, t) =>
    if !((s.ownAddrs port).contains f.dstIp) || (f.csum ≠ 0 && !f.csumOk) || fieldAt b 0 1 ≠ 1 || b.length ≠ 32 + len ||
        4096 < len || !s.epInSlice t.slice ep then s.addSat F.ethStatGateReject 1 port
    else
      let h := mkHdr [(H.ptype, PT.gate), (H.tc, 5), (H.poison, fieldAt b 1 1 % 2), (H.dst, ep), (H.slice, t.slice),
        (H.tunnel, i), (H.remoteEp, fieldAt b 4 2 % 4096), (H.gtag, fieldAt b 12 4), (H.opaque_, fieldAt b 16 16)]
      ((s.ev (U.eth port) 0x04).originate h (b.drop 32) (port / 2) 5 (.gate port f.prio (frameSize f))).pfcTurn port sub

/-- ETH_FRAME_RECEIVE: what a port takes in is answered, applied or accepted; every other frame is discarded and counted
(12 R290, R294 to R296). -/
def State.ethFrame (s : State) (port sub : Nat) (f : Frame) : State :=
  if !s.ethUp port sub then s
  else
    let s := s.ev (U.eth port) 0x02
    let own := (s.ownAddrs port).contains f.dstIp
    let discard := s.addSat F.ethStatDiscards 1 port
    match f.kind with
    | .arp | .neighbour | .icmp | .icmp6 => if own then s.emit (.pingReply port sub f) else discard
    | .ptp =>
      if s.plan.ptp then
        let d := s.draw
        (({ d.2 with phys := { d.2.phys with ptpOffset := Int.ofNat (Config.freeNat d.1) - 2 ^ 63 } }).emit .ptpReply)
      else discard
    | .pfc =>
      -- class-enable vector, then one 16-bit pause time per priority
      let en := fieldAt f.bytes 0 2
      let e := s.ethOf (2 * port + sub)
      let paused := (List.range 8).foldl (fun n i =>
        let on : Bool := if en.testBit i then fieldAt f.bytes (2 + 2 * i) 2 ≠ 0 else e.paused.testBit i
        if on && (s.rd F.ethCfgPfcEn port).testBit i then n + 2 ^ i else n) 0
      (s.putEthOf (2 * port + sub) { e with paused := paused }).onlyIf (en ≠ 0) (·.ev (U.eth port) 0x06)
    | .udp => if f.dstPort = s.rd F.ethGatecfgUdpPort port then s.tunnelFrame port sub f else discard
    | .other => discard

/-- [PRESUMED log 60; DESIGN CHOICE log 61] -/
def execEthFrameReceive (port sub : Nat) (frame : Frame) (s : State) : Host.Outcome State Fault Refusal :=
  .next ((s.ethFrame port sub frame).settle.pfcTurns)

/-- ETH_FRAME_SEND: the oldest queued frame of a priority that is not paused leaves (12 R293, R295). -/
def execEthFrameSend (port sub : Nat) (s : State) : Host.Outcome State Fault Refusal :=
  .next (if !s.ethUp port sub then s
    else
      let k := 2 * port + sub
      let e := s.ethOf k
      match e.outq.findIdx? fun f => !e.paused.testBit f.prio with
      | none => s
      | some i =>
        match e.outq[i]? with
        | none => s
        | some f =>
          let s := s.putEthOf k { e with outq := e.outq.eraseIdx i, outBytes := e.outBytes - (frameSize f) }
          (((s.emit (.eth port sub f)).ev (U.eth port) 0x01).onlyIf (f.kind = .udp) (·.ev (U.eth port) 0x03)).pfcTurns)

/-- A sub-port loses its link: its queue is discarded (12 R295). [DEDUCED log 103] -/
def State.ethDown (s : State) (port sub : Nat) : State :=
  if s.ethUp port sub then
    (s.wr F.ethStatLink (s.rd F.ethStatLink port - 2 ^ sub) port).putEthOf (2 * port + sub) {}
  else s

def execEthLinkDown (port sub : Nat) (s : State) : Host.Outcome State Fault Refusal := .next (s.ethDown port sub)

/-- ETH_LINK_UP: a sub-port that the mode allows comes up (12 R289). -/
def execEthLinkUp (port sub : Nat) (s : State) : Host.Outcome State Fault Refusal :=
  .next (let m := s.rd F.ethCfgMode port
    let ok : Bool := port < 8 && s.flag F.hubIdStatMainOn && !s.phys.fatal && ((m = 1 && sub = 0) || (m = 2 && sub < 2))
    if ok && !s.ethUp port sub then
      (s.wr F.ethStatLink (s.rd F.ethStatLink port + 2 ^ sub) port).putEthOf (2 * port + sub) {}
    else s)

/-! ## PCIe: the BAR2 window (12 R299) -/

/-- The base of the window: above 953 it acts as 953. -/
def State.winBase (s : State) : Nat := Nat.min 953 (s.rd F.hubPcieWinBase) * 2 ^ 30

/-- Whether a BAR2 access reaches fabric memory in service. -/
def State.bar2Ok (s : State) (a n : Nat) : Bool := s.memReady && !s.phys.fatal && a + n ≤ s.memTop

/-- BAR2_READ. -/
def execBar2Read (off len : Nat) (reads : List Ecc) (s : State) : Host.Outcome State Fault Refusal :=
  .next (let a := s.winBase + off
    let s := (s.ev U.pcie 0x01).ev U.pcie 0x06
    if 2 ^ 36 < off + len || !s.bar2Ok a len then (s.emit .pcieUr).ev U.pcie 0x02
    else
      let r := s.readMem a len reads
      let s := ((r.1.emit (.pcieData r.2.1 r.2.2)).ev U.pcie 0x02).ev U.pcie 0x04 (ceilDiv len 64)
      s.onlyIf r.2.2 (·.ev U.pcie 0x07))

/-- BAR2_WRITE: a write TLP; EP stores poison. -/
def execBar2Write (off : Nat) (data : List Byte) (ep : Bool) (reads : List Ecc) (s : State) : Host.Outcome State Fault Refusal :=
  .next (let a := s.winBase + off
    let s := ((s.ev U.pcie 0x01).ev U.pcie 0x06).ev U.pcie 0x03 (ceilDiv data.length 64)
    let s := s.onlyIf ep (·.ev U.pcie 0x07)
    if 2 ^ 36 < off + data.length || !s.bar2Ok a data.length then s.emit .pcieUr
    else s.writeMem a data ep reads)

/-! ## PCIe: the DMA engine (12 R300) -/

/-- A write of RUN = 1: the channel starts, or reads the descriptor at which it stops once more. [DEDUCED log 87] -/
def State.dmaRun (s : State) (ch : Nat) : State :=
  if 8 ≤ ch then s
  else if s.flag F.hubPcieDmactlRun ch then
    { s with dmaRecheck := if s.dmaRecheck.contains ch then s.dmaRecheck else ch :: s.dmaRecheck }
  else s.wr F.hubPcieDmactlRun 1 ch

def execDmaRun (ch : Nat) (s : State) : Host.Outcome State Fault Refusal := .next (s.dmaRun ch)

/-- The host address of a channel's next descriptor. -/
def State.dmaAddr (s : State) (ch : Nat) : Nat := s.rd F.hubPcieDmaringBase ch + 32 * s.dmaIdx.getD ch 0

/-- Write a descriptor's STATUS, then clear OWN, then raise the vector if it asks; the channel moves on. -/
def State.dmaDone (s : State) (ch status : Nat) (irq : Bool) : State :=
  let s := (s.emit (.hostStatus (s.dmaAddr ch) status)).ev U.pcie 0x05
  let s := { s with dmaIdx := s.dmaIdx.setD ch 0 ((s.dmaIdx.getD ch 0 + 1) % Nat.max 1 (s.rd F.hubPcieDmactlRingSize ch)) }
  s.onlyIf irq (·.irq (32 + ch))

/-- The transfer of one descriptor and its status: 1 ADDR_RANGE, 2 POISONED, 3 HOST_ERROR. [DEDUCED log 62] -/
def State.dmaTransfer (s : State) (d : HostDesc) (data : List Byte) (hostErr hostPoison : Bool) (reads : List Ecc) : State × Nat :=
  if d.bytes = 0 || 16777216 < d.bytes || !s.bar2Ok (d.faddr % 2 ^ 48) d.bytes then (s, 1)
  else if d.dir then
    let r := s.readMem (d.faddr % 2 ^ 48) d.bytes reads
    let s := (r.1.emit (.hostWrite d.haddr r.2.1 r.2.2)).ev U.pcie 0x04 (ceilDiv d.bytes 64)
    (s, if hostErr then 3 else if r.2.2 then 2 else 0)
  else if hostErr then (s, 3)
  else
    let s := s.writeMem (d.faddr % 2 ^ 48) (data.take d.bytes ++ List.replicate (d.bytes - data.length) 0) hostPoison reads
    (s.ev U.pcie 0x03 (ceilDiv d.bytes 64), if hostPoison then 2 else 0)

/-- DMA_DESCRIPTOR_COMPLETE: the channel has read the descriptor `desc` and carried it out; one with OWN = 0 stops it,
after one more look if RUN was written meanwhile. -/
def execDmaDescriptorComplete (ch : Nat) (desc : HostDesc) (data : List Byte) (hostErr hostPoison : Bool) (reads : List Ecc)
    (s : State) : Host.Outcome State Fault Refusal :=
  .next (if 8 ≤ ch || !s.flag F.hubPcieDmactlRun ch || s.rd F.hubPcieDmactlRingSize ch = 0 then s
    else if !desc.own then
      if s.dmaRecheck.contains ch then { s with dmaRecheck := s.dmaRecheck.filter (· ≠ ch) }
      else s.wr F.hubPcieDmactlRun 0 ch
    else
      let r := s.dmaTransfer desc data hostErr hostPoison reads
      r.1.dmaDone ch r.2 desc.irq)

/-- What a function reset does to the DMA engine and the window: running descriptors end ABORTED, all channels stop. -/
def State.dmaStop (s : State) : State :=
  let s := s.each (List.range 8) fun s ch =>
    if s.flag F.hubPcieDmactlRun ch then (s.emit (.hostStatus (s.dmaAddr ch) 4)).wr F.hubPcieDmactlRun 0 ch else s
  ({ s with dmaRecheck := [] }).wr F.hubPcieWinBase 0

/-- PCIE_LINK_UP: the link settles at a speed and a width (12 R298). -/
def execPcieLinkUp (gtps width : Nat) (s : State) : Host.Outcome State Fault Refusal :=
  .next (let s := { s with phys := { s.phys with pcieUp := true, pcieGtps := gtps, pcieWidth := width } }
    if gtps < 64 || width < 16 then s.raise E.pcieDegraded 8 (Config.extCause 4) else s)

end Sys2Proof.Machine
end

