-- ==== Sys2Proof/Machine/Mbx.lean ====
section
/-! DEFINITION. Mailboxes and the controller (13): submission, acceptance, completion, what a role may ask, restarts of the
controller, and interrupts. Key of a mailbox: HOST 0 to 31, MGMT 32 to 47, MCTP 48 to 51, PEER 52 to 115. -/

namespace Sys2Proof.Machine

/-! ## Mailboxes (13 R310, R315) -/

/-- How many mailboxes a set has. -/
def setSize : MbxSet → Nat
  | .host => 32
  | .mgmt => 16
  | .mctp => 4
  | .peer => 64

def mbxKey (mb : MbxRef) : Nat :=
  match mb.set with
  | .host => mb.idx
  | .mgmt => 32 + mb.idx
  | .mctp => 48 + mb.idx
  | .peer => 52 + mb.idx

/-- The mailbox that a key names. -/
def keyMbx (k : Nat) : MbxRef :=
  if k < 32 then ⟨.host, k⟩ else if k < 48 then ⟨.mgmt, k - 32⟩ else if k < 52 then ⟨.mctp, k - 48⟩ else ⟨.peer, k - 52⟩

/-- One key for a requester on a set: its session, 0 for the fabric host, the module for a peer (R315, R318). -/
def requester (mb : MbxRef) (session : Nat) : Nat :=
  4 * session + (match mb.set with | .host => 0 | .mgmt => 1 | .mctp => 2 | .peer => 3)

/-- The bytes of a host mailbox's image. -/
def State.mbxByte (s : State) (m o : Nat) : Byte := (s.mbxImage.getD (512 * m + o / 8) 0).extractLsb' (8 * (o % 8)) 8

def State.mbxBytes (s : State) (m o n : Nat) : List Byte := (List.range n).map fun k => s.mbxByte m (o + k)

/-- Write bytes of a host mailbox's image. -/
def State.putMbxBytes (s : State) (m o : Nat) (bs : List Byte) : State :=
  { s with mbxImage := (bs.zipIdx).foldl (fun (t : Tab Word) (e : Byte × Nat) =>
      let a := o + e.2
      t.mod (512 * m + a / 8) 0 fun w => withBits w (8 * (a % 8)) 8 e.1.toNat) s.mbxImage }

/-- Change a mailbox's STATE; a host mailbox shows it in HUB_MBX_CTL, with OWN. -/
def State.setMbx (s : State) (k : Nat) (x : MbxSt) (own : Bool) : State :=
  let s := s.putMbxOf k x
  if k < 32 then (s.wr F.hubMbxCtlState x.state k).wr F.hubMbxCtlOwn (if own then 1 else 0) k else s

/-- What a remote set hears of its mailbox (R316). -/
def State.mbxSay (s : State) (k : Nat) : State :=
  let x := s.mbxOf k
  if k < 32 then s else s.emit (.mbxMsg (keyMbx k) x.seq x.req.token x.state x.status x.detail x.rsp)

/-- A mailbox reaches DONE or BUSY: the response is written, then STATE, then OWN = 0; its vector is raised if IRQ_EN
(R311, R330). -/
def State.mbxEnd (s : State) (k : Nat) (x : MbxSt) : State :=
  let s := if k < 32 then
      s.putMbxBytes k 14 (leBytes 2 x.rsp.length ++ leBytes 2 x.status ++ leBytes 2 x.detail) |>.putMbxBytes k 32 (leBytes 8 x.doneTime)
        |>.putMbxBytes k 64 x.rsp
    else s
  let s := (s.setMbx k x false).mbxSay k
  if k < 32 && s.flag F.hubMbxCtlIrqEn k then s.irq k else s

/-- BUSY with a reason: the command had no effect (R312). -/
def State.busy (s : State) (k reason : Nat) : State :=
  let x := s.mbxOf k
  (s.mbxEnd k { x with state := 3, status := 0, detail := reason, rsp := [], doneTime := s.rackTime }).ev U.hub 0x02

/-- DONE with STATUS, DETAIL and a response, for a mailbox that is ACCEPTED. -/
def State.complete (s : State) (mb : MbxRef) (status : Nat) (rsp : List Byte := []) (detail : Nat := 0) : State :=
  let k := mbxKey mb
  let x := s.mbxOf k
  if x.state ≠ 2 then s
  else
    let x := { x with state := 4, status := status, detail := detail, rsp := rsp.take 4032, doneTime := s.rackTime }
    let s := s.mbxEnd k x
    if k < 32 then s
    else { s with stored := (k, x) :: s.stored.filter fun e => decide (s.rackTime ≤ e.2.doneTime + 1000000000) && e.1 ≠ k }

/-- STATUS codes (R319). -/
def St.ok : Nat := 0x0000
def St.version : Nat := 0x0001
def St.opcode : Nat := 0x0002
def St.length : Nat := 0x0003
def St.notPermitted : Nat := 0x0004
def St.accessDenied : Nat := 0x0005
def St.unreachable : Nat := 0x0006
def St.powerOff : Nat := 0x0007
def St.controlRestart : Nat := 0x0008
def St.field : Nat := 0x0009
def St.running : Nat := 0x0010
def St.noResources : Nat := 0x0011
def St.planInvalid : Nat := 0x0020
def St.sliceConflict : Nat := 0x0021
def St.linksExhausted : Nat := 0x0022
def St.groupInvalid : Nat := 0x0030
def St.bindingInvalid : Nat := 0x0031
def St.programInvalid : Nat := 0x0032
def St.programResident : Nat := 0x0033
def St.slotConflict : Nat := 0x0034
def St.regionInvalid : Nat := 0x0040
def St.streamInvalid : Nat := 0x0041
def St.epochPending : Nat := 0x0042
def St.locked : Nat := 0x0050
def St.signature : Nat := 0x0051
def St.rollback : Nat := 0x0052
def St.untrusted : Nat := 0x0060

/-- The request of a mailbox that is ACCEPTED and whose opcode is `op`. -/
def State.request? (s : State) (mb : MbxRef) (op : Nat) : Option MbxSt :=
  let x := s.mbxOf (mbxKey mb)
  if mb.idx < setSize mb.set && x.state = 2 && x.req.opcode = op then some x else none

/-! ## Opcodes (13 R317, R320) -/

/-- A row of the command set: opcode, deadline in µs, the least and greatest REQ_LEN, and whether it is a conductor
command. Where the table gives fields by offset, the length is that of the last field named. -/
structure OpRow where
  op : Nat
  deadline : Nat
  lo : Nat
  hi : Nat
  cond : Bool := false
  main : Bool := false
deriving DecidableEq, Repr

def opRows0 : List OpRow := [
  ⟨0x0000, 50, 2, 2, false, false⟩, ⟨0x0001, 50, 0, 0, false, false⟩, ⟨0x0010, 50, 16, 2056, false, false⟩,
  ⟨0x0011, 200, 32, 3848, false, false⟩, ⟨0x0100, 1000, 8, 8, false, false⟩, ⟨0x0101, 50, 0, 0, false, false⟩,
  ⟨0x0102, 1000, 1, 1, false, false⟩, ⟨0x0103, 1000, 2, 2, false, false⟩, ⟨0x0104, 10000, 64, 4032, false, false⟩,
  ⟨0x0200, 10000, 16, 4032, true, false⟩, ⟨0x0201, 1000000, 48, 48, true, false⟩, ⟨0x0202, 1000, 6, 6, true, false⟩,
  ⟨0x0203, 100, 0, 0, true, false⟩, ⟨0x0204, 1000, 2, 2, true, false⟩, ⟨0x0205, 1000000, 0, 0, true, false⟩,
  ⟨0x0206, 100, 8, 8, true, false⟩, ⟨0x0207, 600000000, 2, 2, true, false⟩, ⟨0x0300, 100000, 6, 6, true, false⟩,
  ⟨0x0301, 100000, 1, 1, true, false⟩, ⟨0x0302, 100, 1, 1, true, false⟩, ⟨0x0303, 1000, 2, 2, true, false⟩,
  ⟨0x0304, 100, 40, 40, false, false⟩, ⟨0x0310, 200, 8, 4032, false, true⟩, ⟨0x0311, 100, 16, 16, false, true⟩,
  ⟨0x0312, 20, 19, 19, false, true⟩, ⟨0x0400, 1000, 10, 10, true, false⟩, ⟨0x0401, 1000, 2, 2, true, false⟩,
  ⟨0x0402, 10000, 2, 2, true, false⟩, ⟨0x0403, 500, 112, 112, false, true⟩, ⟨0x0404, 200, 2, 2, false, true⟩]

def opRows1 : List OpRow := [
  ⟨0x0405, 50, 2, 2, false, true⟩, ⟨0x0406, 50, 4, 4, false, true⟩, ⟨0x0407, 20000, 4, 4, false, true⟩,
  ⟨0x0408, 2000, 16, 4032, false, true⟩, ⟨0x0409, 1000, 2, 2, false, true⟩, ⟨0x040A, 100, 0, 0, false, false⟩,
  ⟨0x0500, 200, 24, 24, false, true⟩, ⟨0x0501, 50, 2, 2, false, true⟩, ⟨0x0502, 100, 72, 72, false, true⟩,
  ⟨0x0503, 100, 8, 8, false, true⟩, ⟨0x0504, 50, 2, 2, false, true⟩, ⟨0x0505, 1000, 48, 48, true, false⟩,
  ⟨0x0506, 1000, 4, 4, true, false⟩, ⟨0x0507, 50, 0, 0, false, true⟩, ⟨0x0600, 1000, 8, 168, true, false⟩,
  ⟨0x0601, 1000, 4, 4, true, false⟩, ⟨0x0602, 1000, 0, 0, false, false⟩, ⟨0x0603, 1000, 0, 0, false, false⟩,
  ⟨0x0700, 200, 12, 12, false, false⟩, ⟨0x0701, 200, 2, 2, false, false⟩, ⟨0x0702, 200, 18, 18, false, false⟩,
  ⟨0x0800, 100, 2, 2, false, false⟩, ⟨0x0801, 50, 2, 2, false, false⟩, ⟨0x0802, 100, 8, 8, false, false⟩,
  ⟨0x0803, 100, 2, 2, false, false⟩, ⟨0x0804, 1000, 1, 1, false, true⟩, ⟨0x0805, 1000, 4, 4, false, true⟩,
  ⟨0x0806, 1000, 5, 5, false, false⟩, ⟨0x0900, 100, 2, 2, false, true⟩, ⟨0x0901, 1000, 2, 2, false, false⟩,
  ⟨0x0902, 200, 48, 48, false, true⟩, ⟨0x0903, 50, 1, 1, false, true⟩, ⟨0x0904, 200, 32, 32, false, true⟩,
  ⟨0x0A00, 50000, 16, 4032, false, false⟩, ⟨0x0A01, 120000000, 48, 48, false, false⟩, ⟨0x0A02, 100000, 1, 4032, false, false⟩,
  ⟨0x0A03, 100000, 0, 144, false, false⟩, ⟨0x0A04, 100000, 97, 193, false, false⟩]

def opRow? (op : Nat) : Option OpRow := (opRows0 ++ opRows1).find? fun r => r.op = op

/-- The deadline of an accepted command, in µs (R317, R320, R323). -/
def opDeadline (s : State) (r : OpRow) (req : Request) : Nat :=
  let base := if r.op = 0x0403 && fieldAt req.payload 5 1 / 64 % 2 = 1 then 1500
    else if r.op = 0x0408 && fieldAt req.payload 8 1 % 2 = 1 then 20000
    else if r.op = 0x0A00 && fieldAt req.payload 8 1 % 2 = 1 then 30000000
    else if r.op = 0x0311 then 100 + (fieldAt req.payload 8 8 - s.rackTime) / 1000
    else r.deadline
  if r.cond then base + 100 else base

/-- Whether a role may use an opcode (R317). [DEDUCED log 32] -/
def roleMay (s : State) (role : Role) (op : Nat) : Bool :=
  let fam := op / 256
  match role with
  | .rm => fam ≠ 4 || op = 0x0405 || op = 0x0406 || op = 0x040A
  | .peer => true
  | .runtime => op = 0x0000 || op = 0x0001 || op = 0x0010 || op = 0x0203 || op = 0x0302 || fam = 4 || fam = 5 || op = 0x0A02
  | .host =>
    if fam = 1 then op ≠ 0x0104
    else if fam = 2 then op = 0x0202 || op = 0x0203 || op = 0x0204 || op = 0x0206
    else if fam = 3 then op = 0x0302
    else if fam = 6 then op ≠ 0x0600
    else if fam = 8 then op ≤ 0x0803
    else if fam = 9 then op = 0x0901 || op = 0x0903
    else if fam = 10 then op = 0x0A02 || ((op = 0x0A00 || op = 0x0A01) && s.plan.hostUpdate)
    else true

/-- The slice of a group. -/
def State.groupSlice (s : State) (g : Nat) : Option Nat := (s.groups.find g).map fun x => x.dfn.slice

/-- The slice of a slot's binding. -/
def State.slotSlice (s : State) (slot : Nat) : Option Nat := (s.slot slot).bound.bind fun b => s.groupSlice b.group

/-- The slice of a shard: that of the update slot at its holder, by this module's binding or the conductor's record of it. [DEDUCED log 31] -/
def State.shardSlice (s : State) (m slot : Nat) : Option Nat :=
  if m = s.self then s.slotSlice slot
  else (s.cond.bindings.find? fun b => b.1 = m && b.2.1 = slot).bind fun b => (s.cond.groups.find b.2.2).map fun g => g.dfn.slice

/-- The slices that a command of families 3 to 5 names: those of the groups, slots, streams, regions and shards in it, of an
entry that it writes and of the one that it replaces (R317). [DEDUCED log 31] -/
def State.slicesNamed (s : State) (req : Request) : List Nat :=
  let p := req.payload
  let op := req.opcode
  let entry (valid : Bool) (slice : Nat) : List Nat := if valid then [slice] else []
  let region (r : Region) : List Nat := entry (r.mode.testBit 2) r.slice
  let stream (e : StreamEntry) : List Nat := entry e.valid e.slice
  let shard (x : Shard) : List Nat := (s.shardSlice x.module x.slot).toList
  if op = 0x0300 || op = 0x0301 || op = 0x0302 || op = 0x0303 then [fieldAt p 0 1]
  else if op = 0x0400 then fieldAt p 2 1 :: (s.groupSlice (fieldAt p 0 2)).toList
  else if op = 0x0401 || op = 0x0402 then (s.groupSlice (fieldAt p 0 2)).toList
  else if op = 0x0403 then (s.groupSlice (fieldAt p 2 2 % 4096)).toList ++ (s.slotSlice (fieldAt p 0 2 % 4096)).toList
  else if op = 0x0404 || op = 0x0405 || op = 0x0406 || op = 0x0407 then (s.slotSlice (fieldAt p 0 2 % 4096)).toList
  else if op = 0x0500 then
    entry ((fieldAt p 17 1).testBit 2) (fieldAt p 16 1) ++ region (s.shadow.regions.getD (fieldAt p 0 1) {})
  else if op = 0x0501 then
    (List.range (fieldAt p 1 1)).flatMap fun k => region (s.tables.regions.getD (fieldAt p 0 1 + k) {})
  else if op = 0x0502 then
    entry (fieldAt p 15 1 % 2 = 1) (fieldAt p 42 1) ++ stream (s.streamShadowOf (fieldAt p 0 2)) ++
      (if fieldAt p 15 1 % 2 = 1 && (fieldAt p 50 2).testBit 15 then (s.slotSlice (fieldAt p 50 2 % 4096)).toList else [])
  else if op = 0x0504 then stream (s.streamOf (fieldAt p 0 2))
  else if op = 0x0505 then
    (s.shardSlice (fieldAt p 2 2) (fieldAt p 4 2)).toList ++ ((s.cond.shards.find (fieldAt p 0 2)).map shard).getD []
  else if op = 0x0506 then
    ((s.cond.shards.filter fun e => fieldAt p 0 2 ≤ e.1).take (Nat.min 84 (fieldAt p 2 2))).flatMap fun e => shard e.2
  else []

/-- Whether a command reads only. -/
def isQuery (op : Nat) : Bool := [0x0405, 0x0406, 0x040A, 0x0501, 0x0504, 0x0506, 0x0507].contains op

/-- The refusal of a command at acceptance, none where its own row runs it: version, opcode, role, slice, power, held
slices, length (R307, R317 to R319; 14 R349). [DEDUCED log 31] -/
def State.refusal (s : State) (mb : MbxRef) (x : MbxSt) : Option Nat :=
  let op := x.req.opcode
  let r := requester mb x.session
  if op ≠ 0 && !(s.hello.contains (r, 256 * x.req.verMaj + x.req.verMin)) then some St.version
  else
    match opRow? op with
    | none => some St.opcode
    | some row =>
      if !roleMay s x.role op then some St.notPermitted
      else if x.role = .runtime && (s.slicesNamed x.req).any (fun sl => !(s.grants.getD x.session 0).testBit sl) then
        some St.accessDenied
      else if row.main && !s.flag F.hubIdStatMainOn then some St.powerOff
      else if (op / 256 = 4 || op / 256 = 5) && !isQuery op && op ≠ 0x0407 &&
          (s.slicesNamed x.req).any s.streamHeld.contains then some St.running
      else if x.reqLen < row.lo || row.hi < x.reqLen || (op = 0x0A03 && x.reqLen ≠ 0 && x.reqLen ≠ 144) then some St.length
      else none

/-! ## Submission and acceptance (R311 to R313) -/

/-- The request that stands in a host mailbox's image; a REQ_LEN above 4,032 reads no payload. -/
def State.imageRequest (s : State) (m : Nat) : Request × Nat :=
  let f (o n : Nat) : Nat := ofLe (s.mbxBytes m o n)
  let len := f 12 2
  ({ opcode := f 8 2, verMaj := f 10 1, verMin := f 11 1, token := f 24 8,
     payload := if len ≤ 4032 then s.mbxBytes m 64 len else [] }, len)

/-- MAILBOX_SUBMIT: OWN = 1 is written; the engine marks the mailbox RECEIVED. While OWN = 1 the write has no effect. -/
def execMailboxSubmit (m : Nat) (seq : Nat) (irqEn : Bool) (s : State) : Host.Outcome State Fault Refusal :=
  .next (let s := s.ev U.pcie 0x01
    if 32 ≤ m || s.flag F.hubMbxCtlOwn m then s
    else
      let r := s.imageRequest m
      let s := (s.wr F.hubMbxCtlSeq (seq % 256) m).wr F.hubMbxCtlIrqEn (if irqEn then 1 else 0) m
      { s.setMbx m { role := .host, seq := seq % 256, state := 1, req := r.1, reqLen := r.2, recvOrder := s.recvCount } true with
        recvCount := s.recvCount + 1 })

/-- REMOTE_REQUEST_RECEIVE: outside a session it is discarded; a repeat of a request completed within 1 s is answered from
the stored DONE; a mailbox in progress takes no other request (R315, R316; 16 R408). [DEDUCED log 32] -/
def execRemoteRequestReceive (mb : MbxRef) (role : Role) (session seq : Nat) (req : Request) (s : State) :
    Host.Outcome State Fault Refusal :=
  .next (let k := mbxKey mb
    let roleOk : Bool := match mb.set with
      | .host => false
      | .mgmt => role = .rm || role = .runtime
      | .mctp => role = .rm
      | .peer => role = .peer
    let open_ : Bool := mb.set = .peer || (s.planLive && session ≠ 0) ||
      (!s.planLive && session = 0 && [0x0000, 0x0001, 0x0A02].contains req.opcode)
    if setSize mb.set ≤ mb.idx || !roleOk || !open_ then s
    else
      match s.stored.find? fun e => e.1 = k && e.2.seq = seq && e.2.req.token = req.token &&
          decide (s.rackTime ≤ e.2.doneTime + 1000000000) with
      | some (_, d) => s.emit (.mbxMsg mb d.seq d.req.token d.state d.status d.detail d.rsp)
      | none =>
        if (s.mbxOf k).state = 1 || (s.mbxOf k).state = 2 then s
        else
          let x : MbxSt := { role := role, session := session, seq := seq, state := 1, req := req,
                             reqLen := req.payload.length, recvOrder := s.recvCount }
          ({ s.putMbxOf k x with recvCount := s.recvCount + 1 }).mbxSay k)

/-- Whether a RECEIVED mailbox is the one to be accepted next: earliest received, ties to the lower number. -/
def State.nextToAccept (s : State) (k : Nat) : Bool :=
  s.mbx.all fun e => e.2.state ≠ 1 || (s.mbxOf k).recvOrder ≤ e.2.recvOrder

/-- COMMAND_ACCEPT: ACCEPTED with its DEADLINE, and DONE at once where the command is refused; BUSY while the controller
starts or restarts (R306, R312, R313, R317 to R319). [DEDUCED log 64] -/
def execCommandAccept (mb : MbxRef) (s : State) : Host.Outcome State Fault Refusal :=
  .next (let k := mbxKey mb
    let x := s.mbxOf k
    if setSize mb.set ≤ mb.idx || x.state ≠ 1 || !s.nextToAccept k then s
    else
      let early : Bool := (x.req.opcode = 0 || x.req.opcode = 1) && 2 ≤ s.rd F.hubIdStatBoot
      if s.restarting then s.busy k 2
      else if !s.flag F.hubIdStatReady && !early then s.busy k 1
      else
        let deadline := match opRow? x.req.opcode with | some r => opDeadline s r x.req | none => 50
        let s := (if k < 32 then s.putMbxBytes k 20 (leBytes 4 deadline) else s).setMbx k
          { x with state := 2, deadline := s.rackTime + 1000 * deadline } true
        let s := (s.mbxSay k).ev U.hub 0x01
        match s.refusal mb x with
        | some st => s.complete mb st
        | none => s)

/-- The object a command touches: a kind and a number (R313). [DEDUCED log 65] -/
def objectOf (req : Request) : Option (Nat × Nat) :=
  let p := req.payload
  let op := req.opcode
  if op = 0x0011 || op = 0x0010 then some (0, 0)
  else if op = 0x0310 || op = 0x0311 then some (1, 0)
  else if 0x0300 ≤ op && op ≤ 0x0303 then some (2, fieldAt p 0 1)
  else if 0x0400 ≤ op && op ≤ 0x0402 then some (3, fieldAt p 0 2)
  else if 0x0403 ≤ op && op ≤ 0x0407 then some (4, fieldAt p 0 2 % 4096)
  else if 0x0408 ≤ op && op ≤ 0x040A then some (5, 0)
  else if op = 0x0502 || op = 0x0504 then some (6, fieldAt p 0 2)
  else none

/-- The request that an RCS row runs now: accepted, of that opcode, not already waiting for its end, and no command on the
same object accepted before it (R313). [DEDUCED log 65] -/
def State.ready? (s : State) (mb : MbxRef) (op : Nat) : Option MbxSt :=
  match s.request? mb op with
  | none => none
  | some x =>
    if (s.waitCmds.any fun w => w.1 = mb) then none
    else if (objectOf x.req).isSome && s.mbx.any (fun e => e.2.state = 2 && e.2.recvOrder < x.recvOrder &&
        objectOf e.2.req = objectOf x.req && !(s.waitCmds.any fun w => mbxKey w.1 = e.1)) then none
    else some x

/-- Run an RCS command on its request. -/
def State.rcs (s : State) (mb : MbxRef) (op : Nat) (f : State → MbxSt → State) : State :=
  match s.ready? mb op with
  | some x => f s x
  | none => s

/-! ## The controller's restart and start (R303, R306, R312; 19 R451) -/

/-- Every accepted command completes with CONTROL_RESTART; the controller starts again from its ROM; a conductor in it goes
COLD (R303, R305; 14 R359). [DEDUCED log 64, 81] -/
def State.restartController (s : State) : State :=
  let s := (s.mbx.filter fun e => e.2.state = 2).foldl (fun s e => s.complete (keyMbx e.1) St.controlRestart) s
  let s := { s with waitCmds := [], restarting := true }
  let s := ((s.wr F.hubIdStatReady 0).wr F.hubIdStatBoot 1).wr F.hubIdStatRestarts ((s.rd F.hubIdStatRestarts + 1) % 256)
  let s := s.onlyIf (s.rd F.condStatRole ≠ 0 && s.rd F.condStatMode ≠ 6) fun s => s.wr F.condStatMode 5
  s.askLedger 17 0 (leBytes 4 (s.rd F.ledgHoursCycles) ++ leBytes 4 s.ledger.boots ++ leBytes 4 (s.rd F.hubIdStatRestarts) ++
    leBytes 36 0)

/-- A command reports a condition as met: it is a loaded die's firing while one fires on this evaluation, and real
otherwise (17 R425, R426, R429). [DEDUCED log 66] -/
def State.detected (s : State) (code inst : Nat) : State × Bool :=
  let e := s.evaluate code inst false
  (e.1, e.2.2)

/-- LOCKSTEP_MISMATCH: recorded, fatal the second time within 24 h of hours of use; the controller restarts. -/
def execLockstepMismatch (s : State) : Host.Outcome State Fault Refusal :=
  .next (let d := s.detected E.lockstepMismatch 0
    let s := d.1
    let h := s.rd F.ledgHoursHoursMain
    let recent := s.mismatchHours.filter fun x => h < x + 240
    let s := ({ s with mismatchHours := h :: recent }).wr F.hubIdStatMismatches (Nat.min (recent.length + 1) 255)
    let s := if recent = [] then s.raise E.lockstepMismatch 0 0 0 none d.2
      else s.newRecord { code := E.lockstepMismatch, sev := 3, inst := 0, injected := d.2, escalated := true }
    s.restartController)

/-- CONTROL_WATCHDOG: a command not DONE 100 ms after its deadline restarts the controller. -/
def execControlWatchdog (mb : MbxRef) (s : State) : Host.Outcome State Fault Refusal :=
  .next (let x := s.mbxOf (mbxKey mb)
    if setSize mb.set ≤ mb.idx || x.state ≠ 2 || s.rackTime < x.deadline + 100000000 then s
    else
      let d := s.detected E.controlWatchdog 0
      (d.1.raise E.controlWatchdog 0 x.req.opcode 0 none d.2).restartController)

/-- The library programs' extension of the program measurement (16 R409): they bear their class, the library version and
no UNCHECKED mark; their digests lie outside the spec and are free. -/
def measure (m : BitVec 384) (digest : BitVec 384) (cls version : Nat) (unchecked : Bool) : BitVec 384 :=
  sha384 (leBytes 48 m.toNat ++ leBytes 48 digest.toNat ++ leBytes 2 cls ++ leBytes 4 version ++ leBytes 1 (if unchecked then 1 else 0))

/-- CONTROLLER_READY: the ledger is mounted, the plan loaded, DRP started; READY sets, and an image that first reaches it
raises the floor (R306; 16 R404). A conductor that restarted is COLD; one at its first start leads or follows (14 R355). [DEDUCED log 116, 127] -/
def execControllerReady (s : State) : Host.Outcome State Fault Refusal :=
  .next (if s.flag F.hubIdStatReady || !s.flag F.ledgStatMounted || s.trust.recovering || !s.phys.standby then s
    else
      let s := { (s.wr F.hubIdStatReady 1).wr F.hubIdStatBoot 6 with
        restarting := false, trust := { s.trust with recovered := false, rmOnly := false } }
      let t := s.trust
      let s := if t.floorVersion < t.version then
          (({ s with trust := { t with floorVersion := t.version, floorSvn := t.svn } }).wr F.ledgFloorVersion t.version).askLedger 12 0
            (leBytes 4 t.version ++ leBytes 1 t.svn ++ leBytes 3 0 ++ leBytes 8 s.rackTime ++ leBytes 32 0)
        else s
      let burn : Bool := t.image.length ≠ 0 && (fieldAt t.image 5 1).testBit 1
      let s := if burn && s.trust.svnFuses < t.svn then
          ({ s with trust := { s.trust with svnFuses := t.svn } }).wr F.ledgFloorOtpSvn t.svn
        else s
      let role := if s.planLive && s.plan.primary = s.self then 1 else if s.planLive && s.plan.secondary = s.self then 2 else 0
      let m := (List.range 11).foldl (fun m k => measure m (Config.libraryDigest (k + 1)) (k + 1) s.trust.libVer false) 0
      let s := s.onlyIf (s.trust.measurement = 0) fun s => { s with trust := { s.trust with measurement := m } }
      let s := s.wr F.condStatRole role
      if role ≠ 0 && s.rd F.condStatMode = 0 then
        (s.wr F.condStatMode (if role = 1 then 1 else 3)).wr F.condStatCterm 1
      else s)

/-! ## Interrupts (R330, R331) -/

/-- IRQ_CLEAR: a W1C write of HUB_IRQ_STAT; `events` are the sources that have an event on the same edge: they win, and send
one new message each. -/
def execIrqClear (mask events : BitVec 64) (s : State) : Host.Outcome State Fault Refusal :=
  .next (let s := s.ev U.pcie 0x01
    let s := s.setReg .hubIrqStat 0 (s.reg .hubIrqStat 0 &&& ~~~mask)
    s.each ((List.range 46).filter fun v => events.getLsbD v) State.irq)

/-- IRQ_UNMASK: a write of HUB_IRQ_MASK; each pending bit that it unmasks sends its message at once. -/
def execIrqUnmask (mask : BitVec 64) (s : State) : Host.Outcome State Fault Refusal :=
  .next (let s := s.ev U.pcie 0x01
    let old := s.reg .hubIrqMask 0
    let s := s.wr F.hubIrqMaskMask (mask.toNat % 2 ^ 46)
    s.each ((List.range 46).filter fun v => old.getLsbD v && !mask.getLsbD v && (s.reg .hubIrqStat 0).getLsbD v) State.msix)

/-! ## PCIe function resets (12 R300; 13 R314, R318) -/

/-- PCIE_FUNCTION_RESET: DMA ends, the window returns to 0; FLR and hot reset clear IRQ_EN in every host mailbox and answer
those still RECEIVED with BUSY, RESET. The HOST set's governing version ends with an FLR. -/
def State.functionReset (s : State) (kind : PcieReset) : State :=
  let s := s.dmaStop
  let s := { s with msixTable := [], pba := 0 }
  let s := if kind = .linkDown then { s with phys := { s.phys with pcieUp := false } }
    else
      s.each (List.range 32) fun s k =>
        let s := s.wr F.hubMbxCtlIrqEn 0 k
        if (s.mbxOf k).state = 1 then s.busy k 3 else s
  if kind = .flr then { s with hello := s.hello.filter fun e => e.1 ≠ 0 } else s

/-- [PRESUMED log 19; DEDUCED log 62] -/
def execPcieFunctionReset (kind : PcieReset) (s : State) : Host.Outcome State Fault Refusal := .next (s.functionReset kind)

/-! ## BAR0 writes (R308, R309, R311) -/

/-- A masked write of `size` bytes within one 8-byte word: the mask. -/
def writeMask (off size : Nat) : Word := BitVec.ofNat 64 ((2 ^ (8 * size) - 1) * 2 ^ (8 * (off % 8)))

/-- BAR0_WRITE: the writes that no other row carries: mailbox images and the other bits of HUB_MBX_CTL, the DMA rings, the
window, the MSI-X table; a write to a block marked read is discarded and flagged. A write across an aligned word or to a
reserved area is discarded. [DEDUCED log 30] -/
def State.barWrite (s : State) (off size : Nat) (value : BitVec 64) : State :=
  let v := value <<< (8 * (off % 8))
  let m := writeMask off size
  if size = 0 || 8 < off % 8 + size || 0xC00000 ≤ off then s
  else if 0x100000 ≤ off && off < 0x120000 then
    let k := (off - 0x100000) / 4096
    let o := off % 4096
    if o < 8 then
      let s := if m.getLsbD 4 then s.wr F.hubMbxCtlIrqEn (bitsOf v 4 1) k else s
      let s := if m.getLsbD 5 && v.getLsbD 5 then s.wr F.hubMbxCtlWriteOwned 0 k else s
      if m.getLsbD 8 && !s.flag F.hubMbxCtlOwn k then s.wr F.hubMbxCtlSeq (bitsOf v 8 8) k else s
    else if s.flag F.hubMbxCtlOwn k then s.wr F.hubMbxCtlWriteOwned 1 k
    else { s with mbxImage := s.mbxImage.mod (512 * k + o / 8) 0 fun w => (w &&& ~~~m) ||| (v &&& m) }
  else if 0x1000 ≤ off && off < 0x2000 then s
  else if off / 8 * 8 = 0x2000 then
    if off < 0x2004 then s.setReg .hubPcieWin 0 ((s.reg .hubPcieWin 0 &&& ~~~m) ||| (v &&& m &&& 0x3FF)) else s
  else if 0x2020 ≤ off && off < 0x20A0 then
    let ch := (off - 0x2020) / 16
    let run := s.flag F.hubPcieDmactlRun ch
    if off % 16 < 8 then
      let s := if run then s else
        let f : Word := 0xFFFF00
        let s := s.setReg .hubPcieDmactl ch ((s.reg .hubPcieDmactl ch &&& ~~~(m &&& f)) ||| (v &&& m &&& f))
        if (m &&& f) ≠ 0 then { s with dmaIdx := s.dmaIdx.setD ch 0 0 } else s
      if m.getLsbD 0 && v.getLsbD 0 then s.dmaRun ch else s
    else if run then s
    else { s.setReg .hubPcieDmaring ch ((s.reg .hubPcieDmaring ch &&& ~~~m) ||| (v &&& m)) with dmaIdx := s.dmaIdx.setD ch 0 0 }
  else if 0x10000 ≤ off && off < 0x10400 then
    let i := (off - 0x10000) / 8
    let old := s.msixTable.getD i (if i % 2 = 1 then 1 <<< 32 else 0)
    let new := (old &&& ~~~m) ||| (v &&& m)
    let s := { s with msixTable := s.msixTable.setD i (if i % 2 = 1 then 1 <<< 32 else 0) new }
    -- unmasking a vector that pends sends its message
    if i % 2 = 1 && !new.getLsbD 32 && s.pba.getLsbD (i / 2) then
      ({ s with pba := s.pba &&& ~~~((1 : Word) <<< (i / 2)) }).msix (i / 2)
    else s
  else if off < 0x1000 || (0x11000 ≤ off && off < 0x11008) || (0x200000 ≤ off && off < 0x830000) then
    s.wr F.hubIdStatBarWriteDrop 1
  else s

def execBar0Write (off size : Nat) (value : BitVec 64) (s : State) : Host.Outcome State Fault Refusal :=
  .next ((s.ev U.pcie 0x01).barWrite off size value)

/-! ## DRP messages of the fabric (14 R336) -/

/-- The DIGEST of a DRP message (14 R336): bytes 0 to 15 of SHA-384 over DCLASS, DTYPE, SEQ, AGENT and the body. -/
def drpDigestOf (dclass dtype seq agent : Nat) (body : List Byte) : BitVec 128 :=
  BitVec.ofNat 128 ((sha384 (leBytes 1 dclass ++ leBytes 2 dtype ++ leBytes 8 seq ++ leBytes 2 agent ++ body)).toNat % 2 ^ 128)

/-- The DIGEST of a DRP message whose body is one of 14 R337. -/
def drpDigest (dclass dtype seq agent : Nat) (body : DrpBody) : BitVec 128 :=
  drpDigestOf dclass dtype seq agent (Config.drpBody body)

/-- Whether the header fields of a DRP message are good: version, class, digest. -/
def drpOk (m : DrpMsg) : Bool :=
  m.dver = 1 && 1 ≤ m.dclass && m.dclass ≤ 9 && m.digest = drpDigest m.dclass m.dtype m.seq m.agent m.body

/-- CTRL_RECEIVE: the first waiting CTRL packet carries `msg` into the hub's DRP buffers; a bad one is discarded and
recorded; the conductor's answer to a forwarded command completes its mailbox (R317, R336). -/
def execCtrlReceive (msg : DrpMsg) (s : State) : Host.Outcome State Fault Refusal :=
  .next (match s.takeLocal (isType PT.ctrl) with
    | none => s
    | some (_, _, s) =>
      let s := s.ev U.hub 0x04
      let c := s.check E.drpDiscard s.self (!drpOk msg) msg.seq
      if c.2 then c.1
      else
        match msg.body with
        | .answer mb st d p =>
          if c.1.waitCmds.any fun w => w.1 = mb && w.2.1 = 2 then
            ({ c.1 with waitCmds := c.1.waitCmds.filter fun w => w.1 ≠ mb }).complete mb st p d
          else c.1
        | _ => { c.1 with agent := { c.1.agent with rxq := c.1.agent.rxq ++ [msg] } })

end Sys2Proof.Machine
end

