-- ==== Sys2Proof/Machine/RegRead.lean ====
section
/-! DEFINITION. Reading registers (13 R308, R309, R320): the place that a block, an instance and an offset name, the values
derived from other state, and REG_READ. -/

namespace Sys2Proof.Machine

/-- Every register of the register file. -/
def allRegs : List Reg := [
  .hubIdStat, .hubIdReset, .hubMbxCtl, .hubIrqStat, .hubIrqMask, .hubPcieWin, .hubPcieDmactl, .hubPcieDmaring, .cntSscfg,
  .cntSsbase, .cntSsptr, .cntUstat, .cntSel, .cntVal, .errStat, .errDrop, .errCfg, .errInjsel, .errInjstat, .laneStat,
  .laneCtl, .lanePrbserr, .laneFechist, .laneSymerr, .portLlcfg, .portLlstat, .portSlice, .portIngctl, .ethCfg, .ethGatecfg,
  .ethStat, .qswTgen, .qswEsccfg, .qswSpraycfg, .qswE2ecfg, .qswE2ecfg2, .qswStat, .qswBufcfg, .qswBufrsv, .qswBufarb,
  .qswRate, .qbankTop, .qbankRepaircfg, .qbankStat, .qbankRetmap, .pipDealcfg, .pipFence, .pipStat, .memcStat, .memcTop,
  .memcScrub, .strmEpoch, .strmStat, .pwrStat, .pwrTherm, .pwrLeak, .pwrCfg, .pwrBrake, .ledgStat, .ledgArb, .ledgHours,
  .ledgFloor, .ledgWear, .condStat, .condSelftest, .condPres]

/-- What an offset names: a register of the file and its key, a counter of the CNT window, or a word of the error ring. -/
inductive RegPlace where
  | reg (r : Reg) (i : Nat)
  | cycle (u : Nat)
  | topDown (u j : Nat)
  | link (p k : Nat)
  | always (i : Nat)
  | ring (e w : Nat)
deriving DecidableEq, Repr

/-- The element of a register's array at an offset. -/
def Reg.elemAt (r : Reg) (off : Nat) : Option Nat :=
  let i := r.info
  if i.count = 1 then (if off = i.off then some 0 else none)
  else if i.stride = 0 then none
  else if i.off ≤ off && (off - i.off) % i.stride = 0 && (off - i.off) / i.stride < i.count then some ((off - i.off) / i.stride)
  else none

/-- The unit frames of the CNT window (18): a unit has the counters that R430 gives it. -/
def cntPlace (off : Nat) : Option RegPlace :=
  if 0x10000 ≤ off && off < 0x10000 + 256 * 274 then
    let u := (off - 0x10000) / 256
    let o := off % 256
    if o = 0 then some (.reg .cntUstat u)
    else if 0x10 ≤ o && o < 0x10 + 8 * unitCounters u && o % 8 = 0 then some (.reg .cntSel (8 * u + (o - 0x10) / 8))
    else if o = 0x50 then some (.cycle u)
    else if u < 128 && 0x58 ≤ o && o < 0x78 && o % 8 = 0 then some (.topDown u ((o - 0x58) / 8))
    else if 0x80 ≤ o && o < 0x80 + 8 * unitCounters u && o % 8 = 0 then some (.reg .cntVal (8 * u + (o - 0x80) / 8))
    else none
  else if 0x40000 ≤ off && off < 0x40000 + 32 * 144 && off % 8 = 0 then some (.link ((off - 0x40000) / 32) (off % 32 / 8))
  else if 0x1000 ≤ off && off < 0x1000 + 8 * 36 && off % 8 = 0 then some (.always ((off - 0x1000) / 8))
  else if off = 0 then some (.reg .cntSscfg 0)
  else if off = 8 then some (.reg .cntSsbase 0)
  else if off = 16 then some (.reg .cntSsptr 0)
  else none

/-- The place that a block, an instance and an offset name; none where the block, the instance or the offset is undefined, or
the offset is not aligned to the register's width. -/
def locate (b : Block) (inst off : Nat) : Option RegPlace :=
  if b.instances ≤ inst then none
  else if b = .cnt then cntPlace off
  else if b = .err && 0x8000 ≤ off && off < 0x8000 + 64 * 512 && off % 8 = 0 then
    some (.ring ((off - 0x8000) / 64) (off % 64 / 8))
  else
    allRegs.findSome? fun r =>
      if r.info.block = b then (r.elemAt off).map fun e => .reg r (inst * r.info.count + e) else none

/-! ## Values (R309) -/

/-- Streams of a quadrant in a state of the active epoch. -/
def State.streamsIn (s : State) (q st : Nat) : Nat :=
  (s.runs.filter fun e => e.1 / 1024 = s.sepoch && e.1 % 1024 / 256 = q && e.2.status = st).length

/-- Whether a stream of a quadrant waits at a closed gate. -/
def State.streamsGated (s : State) (q : Nat) : Bool :=
  (s.startedIn q).any fun id =>
    let e := s.streamOf id
    let r := s.run (s.runKey id)
    e.gateEn && r.sent < e.packets && !s.gateOpen e (r.sent * e.perPacket) (Nat.min e.perPacket (e.elems - r.sent * e.perPacket))

/-- The active value of a register: the fields that other state gives are computed (07, 08, 10, 17, 18). -/
def State.value (s : State) (r : Reg) (i : Nat) : Word :=
  match r with
  | .hubIdStat => withBits (s.reg r i) 16 8 (Nat.min 255 (s.mismatchHours.filter fun h => s.rd F.ledgHoursHoursMain < h + 240).length)
  | .qbankRetmap => BitVec.ofNat 64 ((List.range 32).foldl (fun n j =>
      if s.retired.contains (512 * (i / 16) + 32 * (i % 16) + j) then n + 2 ^ j else n) 0)
  | .pipStat =>
    let live := ((List.range 32).filter fun k => !s.coreFenced.contains (32 * i + k)).length
    let busy := (s.ctxs.filter fun e => e.1 / 128 = i && e.2.run ≠ .free).length
    withBits (withBits (withBits (s.reg r i) 0 6 live) 6 8 busy) 16 11 (s.waitingInsts i).length
  | .strmStat => withBits (withBits (withBits (s.reg r i) 0 5 (s.streamsIn i 2)) 5 9 (s.streamsIn i 1)) 14 1
      (if s.streamsGated i then 1 else 0)
  | .strmEpoch => withBits (s.reg r i) 0 16 s.sepoch
  | .cntVal => BitVec.ofNat 64 (s.cnt.getD (16 * (i / 8) + i % 8) 0)
  | .errInjstat =>
    withBits (s.reg r i) 5 1 (if s.trust.unlock.isSome && s.plan.injection then 1 else 0)
  | _ => s.reg r i

/-- The shadow of a class E register (R327). -/
def State.shadowValue (s : State) (r : Reg) (i : Nat) : Word :=
  match r with
  | .qswTgen => withBits (s.value r i) 0 16 ((s.agent.pendingSwitch.map fun x => x.1).getD (s.rd F.qswTgenGen i))
  | .portSlice => BitVec.ofNat 64 (s.shadow.portSlice.getD i 0)
  | _ => s.value r i

/-- The 64 bytes of a ring entry: the record, its CSEQ and a CRC (17 R417). [DEDUCED log 30, 88] -/
def State.ringEntry (s : State) (i : Nat) : List Byte :=
  match s.errs.find i with
  | none => List.replicate 64 0
  | some r =>
    let b := errBytes r ++ leBytes 8 r.cseq
    b ++ leBytes 4 (crc32c b).toNat ++ leBytes 4 0

/-- What a place reads as. -/
def State.placeValue (s : State) (p : RegPlace) (shadow : Bool) : Word :=
  match p with
  | .reg r i =>
    if r.info.block.inMain && !s.flag F.hubIdStatMainOn then 0
    else if shadow then s.shadowValue r i else s.value r i
  | .cycle u => BitVec.ofNat 64 (s.cycles u)
  | .topDown u j => BitVec.ofNat 64 (s.topDown.getD (4 * u + j) 0)
  | .link p k => BitVec.ofNat 64 (s.linkCnt.getD (4 * p + k) 0)
  | .always i => BitVec.ofNat 64 (s.always.getD i 0)
  | .ring e w => BitVec.ofNat 64 (fieldAt (s.ringEntry e) (8 * w) 8)

/-- The values of the entries of a REG_READ, or the index of the first entry that names nothing. -/
def State.regReads (s : State) (p : List Byte) (n : Nat) : Nat → Nat → Except Nat (List Byte)
  | 0, _ => .ok []
  | fuel + 1, i =>
    let o := 8 + 8 * i
    match (Block.ofCode (fieldAt p o 1)).bind fun b => locate b (fieldAt p (o + 2) 2) (fieldAt p (o + 4) 4) with
    | none => .error i
    | some pl =>
      match s.regReads p n fuel (i + 1) with
      | .ok r => .ok (leBytes 8 (s.placeValue pl (fieldAt p (o + 1) 1 % 2 = 1)).toNat ++ r)
      | .error e => .error e

/-- REG_READ: up to 256 registers, active or shadow. -/
def execRegRead (mb : MbxRef) (s : State) : Host.Outcome State Fault Refusal :=
  .next (s.rcs mb 0x0010 fun s x =>
    let p := x.req.payload
    let n := fieldAt p 0 2
    if n = 0 || 256 < n || x.reqLen ≠ 8 + 8 * n then s.complete mb St.length
    else
      match s.regReads p n n 0 with
      | .ok v => s.complete mb St.ok (leBytes 2 n ++ leBytes 6 0 ++ v)
      | .error i => s.complete mb St.field [] i)

end Sys2Proof.Machine
end

