-- ==== Sys2Proof/Machine/RegWrite.lean ====
section
/-! DEFINITION. REG_WRITE: access types, change classes and IDLE states (13 R324 to R329), and what a written field does at
once in its block. -/

namespace Sys2Proof.Machine

/-- Whether the block that owns a register is IDLE (R329; 12, 15, 18). `i` is the register's key. -/
def State.blockIdle (s : State) (r : Reg) (i : Nat) : Bool :=
  match r.info.block with
  | .port | .lane =>
    let p := i / r.info.count
    s.stage p = Stage.deep || s.stage p = Stage.detect
  | .qsw =>
    let q := i / r.info.count
    (List.range 36).all fun k => !s.active (36 * q + k)
  | .eth => s.rd F.ethCfgMode i = 0
  | .qbank | .pip => (s.boundIn (i / r.info.count)) = []
  | .memc => s.rd F.memcStatState i ≠ 1
  | .strm => s.streams.all fun e => e.1 / 256 ≠ i || !e.2.valid
  | .cnt => if r = .cntSel then !s.flag F.cntSelEn i else !s.flag F.cntSscfgEn && s.ssBusy.isNone
  | .pwr => !s.flag F.hubIdStatMainOn
  | .hubPcie => !s.flag F.hubPcieDmactlRun i
  | _ => true

/-- Set the CFG_REJECT bit of the block that owns a register, where it has one (R326). -/
def State.cfgReject (s : State) (r : Reg) (i : Nat) : State :=
  match r.info.block with
  | .port | .lane => s.wr F.portLlstatCfgReject 1 (i / r.info.count)
  | .qsw => s.wr F.qswStatCfgReject 1 (i / r.info.count)
  | .eth => s.wr F.ethStatCfgReject 1 i
  | .cnt => if r = .cntSel then s.wr F.cntUstatCfgReject 1 (i / 8) else s
  | .pwr => s.wr F.pwrBrakeCfgReject 1
  | _ => s

/-- Bits that only their own commands or the plan write, or that are written through BAR0 (R325). -/
def ownBits (r : Reg) : Word :=
  match r.info.block with
  | .cond | .ledg | .hubPcie | .hubIrq | .hubMbx => BitVec.allOnes 64
  | _ =>
    match r with
    | .qswTgen | .qswSpraycfg | .portSlice | .portIngctl => BitVec.allOnes 64
    | .laneCtl => 1
    | _ => 0

/-- Write one field under its mask: the new register value, and whether an S field was refused. -/
def writeField (idle : Bool) (old mask value : Word) (f : FieldInfo) : Word × Bool :=
  let m := mask &&& ((BitVec.allOnes f.w).setWidth 64 <<< f.lo)
  if m = 0 then (old, false)
  else match f.acc with
    | .ro | .wo => (old, false)
    | .w1c => (old &&& ~~~(m &&& value), false)
    | .w1s => (old ||| (m &&& value), false)
    | .rw =>
      if f.cls = .s && !idle then (old, true) else ((old &&& ~~~m) ||| (m &&& value), false)

/-- Clear a programmable counter (18 R434). -/
def State.clearCounter (s : State) (u k : Nat) : State := { s with cnt := s.cnt.setD (16 * u + k) 0 0 }

/-- A write that clears LANE_CTL.TEST of a port in TEST takes effect: TEST lasts until it is cleared, and is left through
TRAIN (11 R285). [DEDUCED log 25] -/
def State.leavesTest (s : State) (r : Reg) (i : Nat) (mask value : Word) : Bool :=
  r = .laneCtl && s.stage i = Stage.test && bitsOf mask 1 2 ≠ 0 && bitsOf ((s.reg r i &&& ~~~mask) ||| (value &&& mask)) 1 2 = 0

/-- What a write does at once in its block. [DEDUCED log 25] -/
def State.written (s : State) (r : Reg) (i : Nat) (mask value : Word) : State :=
  match r with
  | .laneCtl =>
    let s := if mask.getLsbD 7 && value.getLsbD 7 then s.clearLaneCounters i else s
    if s.stage i = Stage.test && s.rd F.laneCtlTest i = 0 then s.enterTrain i false else s
  | .cntSel => if mask.getLsbD 12 && value.getLsbD 12 then s.clearCounter (i / 8) (i % 8) else s
  | .cntSscfg => if mask.getLsbD 0 && !value.getLsbD 0 then { s with ssSeq := 0 } else s
  | .qswRate =>
    let q := i / 32
    let m := i % 32
    -- the bucket is that of the quadrant in which the member's links lie (04 R97)
    if s.memberQuad m ≠ q then s
    else
    let s := s.putLevel m 3 (min (s.level m 3) (16 * (s.burst q m 3 : Nat)))
    s.putLevel m 5 (min (s.level m 5) (16 * (s.burst q m 5 : Nat)))
  | .qswE2ecfg =>
    let gap := Nat.max 200 (Nat.min 20000 (s.rd F.qswE2ecfgGapTimeout i))
    let ack := Nat.max 500 (Nat.min 30000 (s.rd F.qswE2ecfgAckTimeout i))
    if ack ≤ gap + 100 then s.wr F.qswStatCfgClamp 1 i else s
  | _ => s

/-- Request a main reset by HUB_ID_RESET: it starts, and its own command carries it out (19 R453, R455). [DEDUCED log 92] -/
def State.requestReset (s : State) (allowed : Bool) (mask value : Word) : State × Nat :=
  if !allowed then (s, St.notPermitted)
  else if !(mask.getLsbD 0 && value.getLsbD 0) then (s, St.ok)
  else if !s.flag F.hubIdStatMainOn && (!s.flag F.hubIdResetRunning || !s.phys.mainPg) then (s, St.powerOff)
  else if s.flag F.hubIdResetRunning then (s, St.running)
  else
    ({ s with phys := { s.phys with resetWaiting := some (mask.getLsbD 1 && value.getLsbD 1) } }.wr F.hubIdResetRunning 1, St.ok)

/-- Apply a masked write to one register; answers its status. [DEDUCED log 85] -/
def State.writeReg (s : State) (allowed : Bool) (r : Reg) (i : Nat) (mask value : Word) : State × Nat :=
  if r = .hubIdReset then s.requestReset allowed mask value
  else if mask &&& ownBits r ≠ 0 then (s, St.notPermitted)
  -- CHAIN on counter 0 is refused (18 R433)
  else if r = .cntSel && i % 8 = 0 && mask.getLsbD 10 && value.getLsbD 10 then (s, St.field)
  else if r.info.block.inMain && !s.flag F.hubIdStatMainOn then (s, St.powerOff)
  else
    let idle := s.blockIdle r i || s.leavesTest r i mask value
    let w := r.info.fields.foldl (fun (acc : Word × Bool) f =>
      let x := writeField idle acc.1 mask value f
      (x.1, acc.2 || x.2)) (s.reg r i, false)
    let s := (s.setReg r i w.1).written r i mask value
    if w.2 then (s.cfgReject r i, St.running) else (s, St.ok)

/-- Apply one entry to one instance. -/
def State.writeEntry1 (s : State) (allowed : Bool) (code inst off : Nat) (mask value : Word) : State × Nat :=
  match (Block.ofCode code).bind fun b => locate b inst off with
  | none => (s, St.field)
  | some (.reg r i) => s.writeReg allowed r i mask value
  | some _ => (s, St.ok)

/-- Apply one entry: INSTANCE 0xFFFF is every instance in ascending order (R324). -/
def State.writeEntry (s : State) (allowed : Bool) (e : List Byte) : State × Nat :=
  let code := fieldAt e 0 1
  let inst := fieldAt e 2 2
  let off := fieldAt e 4 4
  let mask : Word := BitVec.ofNat 64 (fieldAt e 8 8)
  let value : Word := BitVec.ofNat 64 (fieldAt e 16 8)
  if inst ≠ 0xFFFF then s.writeEntry1 allowed code inst off mask value
  else
    match Block.ofCode code with
    | none => (s, St.field)
    | some b => (List.range b.instances).foldl (fun (acc : State × Nat) k =>
        let x := acc.1.writeEntry1 allowed code k off mask value
        (x.1, if acc.2 = 0 then x.2 else acc.2)) (s, St.ok)

/-- REG_WRITE: the entries in order; STATUS is that of the first that failed, DETAIL its index (R324). -/
def execRegWrite (mb : MbxRef) (s : State) : Host.Outcome State Fault Refusal :=
  .next (s.rcs mb 0x0011 fun s x =>
    let p := x.req.payload
    let n := fieldAt p 0 2
    if n = 0 || 160 < n || x.reqLen ≠ 8 + 24 * n then s.complete mb St.length
    else
      let allowed : Bool := x.role = .rm || (x.role = .peer && x.session = s.agent.acting)
      let r := (List.range n).foldl (fun (acc : State × List Nat) k =>
        let w := acc.1.writeEntry allowed (sliceAt p (8 + 24 * k) 24)
        (w.1, acc.2 ++ [w.2])) (s, [])
      let bad := (r.2.findIdx? (· ≠ 0)).getD 0
      r.1.complete mb ((r.2.find? (· ≠ 0)).getD 0) (leBytes 2 n ++ leBytes 2 0 ++ r.2.flatMap (leBytes 2)) bad)

/-- COUNTER_CLEAR: a write of CNT_SEL.CLR (18 R434). -/
def execCounterClear (unit k : Nat) (s : State) : Host.Outcome State Fault Refusal :=
  .next (if unit < 274 && k < unitCounters unit && (!unitInMain unit || s.flag F.hubIdStatMainOn) then s.clearCounter unit k
    else s)

end Sys2Proof.Machine
end

