-- ==== Sys2Proof/Machine/Ledger.lean ====
section
/-! DEFINITION. The ledger (16 R385 to R399): commits in MRAM, copies in NOR, seals, the mount, hours, power failure; and
what a plan puts in force (14 R333 to R335). -/

namespace Sys2Proof.Machine

/-! ## Records and groups (R387 to R389) -/

/-- Whether records of a type are critical (R388). -/
def criticalType (t : Nat) : Bool := [1, 5, 8, 9, 12, 13, 14, 16].contains t

/-- Types whose groups are descriptor groups (R389). [DEDUCED log 68] -/
def blobType (t : Nat) : Bool := t = 8 || t = 9 || t = 13

/-- Records of a group: two for a descriptor, otherwise one for each 48 payload bytes. -/
def groupRecords (t : Nat) (payload : List Byte) : Nat :=
  if blobType t then 2 else Nat.max 1 (ceilDiv payload.length 48)

/-- The 48 payload bytes of record `i` of a group; a descriptor names its blob's address 0, its length and its hash. [DEDUCED log 68] -/
def recordPayload (g : LedgGroup) (i : Nat) : List Byte :=
  if blobType g.type then
    (if i = 0 then leBytes 8 0 ++ leBytes 4 g.payload.length ++ leBytes 36 0 else leBytes 48 (sha384 g.payload).toNat)
  else (sliceAt g.payload (48 * i) 48 ++ leBytes 48 0).take 48

/-- The payload bytes of all records of a group. -/
def groupPayload (g : LedgGroup) : List Byte := (List.range (groupRecords g.type g.payload)).flatMap (recordPayload g)

/-- The 64 bytes of record `i` of a group (R387); `before` and `after` tell whether other records of its group precede and follow
those of `g`, as in a seal. -/
def recordBytes (before after : Bool) (g : LedgGroup) (i : Nat) : List Byte :=
  let n := groupRecords g.type g.payload
  let body := leBytes 1 g.type ++
    leBytes 1 ((if i = 0 && !before then 1 else 0) + (if i + 1 = n && !after then 2 else 0) + (if criticalType g.type then 4 else 0)) ++
    leBytes 2 g.key ++ leBytes 8 g.cseq ++ recordPayload g i
  body ++ leBytes 4 (crc32c body).toNat

/-- The newest group of a type and key in one copy (R387). -/
def newestGroup (l : List LedgGroup) (t k : Nat) : Option LedgGroup :=
  (l.filter fun g => g.type = t && g.key = k).foldl (fun b g => if b.all fun x => x.cseq < g.cseq then some g else b) none

/-- The live record of a type and key: the newest in any copy. -/
def State.live (s : State) (t k : Nat) : Option LedgGroup := newestGroup (s.ledger.mr0 ++ s.ledger.mr1 ++ s.ledger.nor) t k

/-- The records of a live group as they stand in the ring; the records of a seal are one group (R389, R398). -/
def State.groupBytes (s : State) (g : LedgGroup) : List (List Byte) :=
  let beside := (s.ledger.mr0 ++ s.ledger.mr1 ++ s.ledger.nor).filter fun x => x.type = 16 && g.type = 16 && x.cseq = g.cseq
  (List.range (groupRecords g.type g.payload)).map
    (recordBytes (beside.any fun x => decide (x.key < g.key)) (beside.any fun x => decide (g.key < x.key)) g)

/-- The keys of a type in some copies, ascending. -/
def keysOf (l : List LedgGroup) (t : Nat) : List Nat :=
  ((l.filter fun g => g.type = t).foldl (fun (b : Tab Unit) g => b.insert g.key ()) []).map fun e => e.1

/-- Add a group to a copy: it takes the place of the one it supersedes; the ring keeps the last 16 SNAPSHOT records of a
lane and the last 4,096 FENCE, ERROR and SECURITY records (R388). -/
def addGroup (l : List LedgGroup) (g : LedgGroup) : List LedgGroup :=
  let kind (x : LedgGroup) : Nat := if x.type = 4 then fieldAt x.payload 2 1 else 0
  if g.type = 4 && kind g = 2 then
    let same := l.filter fun x => x.type = 4 && x.key = g.key && kind x = 2
    let drop := (same.take (same.length - 15)).map fun x => x.cseq
    (l.filter fun x => !(x.type = 4 && x.key = g.key && kind x = 2 && drop.contains x.cseq)) ++ [g]
  else
    let l := l.filter fun x => !(x.type = g.type && x.key = g.key && kind x = kind g)
    if g.type = 6 || g.type = 7 || g.type = 15 then
      let same := l.filter fun x => x.type = g.type
      let drop := (same.take (same.length - 4095)).map fun x => x.cseq
      (l.filter fun x => !(x.type = g.type && drop.contains x.cseq)) ++ [g]
    else l ++ [g]

/-! ## Commits (R390, R393, R398) -/

def ringSlots : Nat := 262144

/-- Whether a macro is in service. -/
def State.macroUp (s : State) (i : Nat) : Bool := (s.rd F.ledgStatMacros).testBit i

/-- Write a group with the next CSEQ into the macros in service; a critical group waits for its NOR copy (R391). -/
def State.putGroup (s : State) (t k : Nat) (payload : List Byte) (cseq : Nat) : State :=
  let l := s.ledger
  let n := groupRecords t payload
  let g : LedgGroup := { type := t, key := k, cseq := cseq, payload := payload, slot := l.ringPos }
  let l := { l with
    mr0 := if s.macroUp 0 then addGroup l.mr0 g else l.mr0
    mr1 := if s.macroUp 1 then addGroup l.mr1 g else l.mr1
    nextCseq := cseq + 1
    norQueue := if criticalType t then l.norQueue ++ [g] else l.norQueue
    ringPos := (l.ringPos + n) % ringSlots }
  let s := { s with ledger := l }
  let s := if s.ledger.ringPos < n then s.addSat F.ledgWearRingWraps 1 else s
  let s := s.wr F.ledgStatCseq (cseq % 2 ^ 48)
  let s := if criticalType t then s.wr F.ledgStatNorBehind 1 else s
  s.bump 25 n

/-- The hash of a type's live set: the payloads of its live records in ascending KEY order, then the blobs that its descriptors name.
`pick` answers the live record of a key (R398). -/
def State.setHash (s : State) (t : Nat) (pick : Nat → Option LedgGroup) : BitVec 384 :=
  let gs := (keysOf (s.ledger.mr0 ++ s.ledger.mr1 ++ s.ledger.nor) t).filterMap pick
  sha384 (gs.flatMap groupPayload ++ (if blobType t then gs.flatMap fun g => g.payload else []))

/-- The hash that the seal keeps of a type: an UNTRUSTED record is not in it (R398, R399). [DEDUCED log 134] -/
def State.typeHash (s : State) (t : Nat) : BitVec 384 :=
  s.setHash t fun k => if s.ledger.untrusted.contains (t, k) then none else s.live t k

/-- Commit a new seal: one record for each critical type with a live record (R398). -/
def State.commitSeal (s : State) : State :=
  let n := s.ledger.nextCseq
  let ts := [1, 5, 8, 9, 12, 13, 14].filter fun t => keysOf (s.ledger.mr0 ++ s.ledger.mr1) t ≠ []
  let s := ts.foldl (fun s t => s.putGroup 16 t (leBytes 48 (s.typeHash t).toNat) n) s
  (s.wr F.ledgStatSealOk 1).bump 24

/-- Commit one group, and after a critical one a new seal. -/
def State.commitGroup (s : State) (t k : Nat) (payload : List Byte) : State :=
  let s := (s.putGroup t k payload s.ledger.nextCseq).bump 24
  if criticalType t then s.commitSeal else s

/-- Before the write position reaches a slot whose record is live, commit a fresh copy of that record (R393): it looks 256
slots ahead. A critical one is followed by a new seal, and a seal is made anew whole (R398). [DEDUCED log 134] -/
def State.freshen (s : State) : Nat → State
  | 0 => s
  | fuel + 1 =>
    match (s.ledger.mr0 ++ s.ledger.mr1).find? fun g =>
        (g.slot + ringSlots - s.ledger.ringPos) % ringSlots < 256 && s.live g.type g.key = some g with
    | none => s
    | some g =>
      let s := if g.type = 16 then s else (s.putGroup g.type g.key g.payload s.ledger.nextCseq).bump 24
      (if criticalType g.type then s.commitSeal else s).freshen fuel

/-! ## Security records (R388) -/

/-- Commit a SECURITY record. [DESIGN CHOICE log 15] -/
def State.security (s : State) (event : Nat) (detail : List Byte := []) : State :=
  let n := s.ledger.runSec
  let s := { s with ledger := { s.ledger with runSec := n + 1 } }
  s.askLedger 15 (n % 65536) (leBytes 1 (Config.securityEvent event) ++ leBytes 7 0 ++ leBytes 8 s.rackTime ++
    (detail ++ leBytes 32 0).take 32)

/-- Disarm every die (17 R427). -/
def State.disarmAll (s : State) : State :=
  let n := s.dice.length
  if n = 0 then s else (({ s with dice := [] }).wr F.errInjstatArmed 0).security 6

/-! ## What a plan puts in force (14 R333 to R335) -/

/-- Whether a requester's session is test-unlocked and attested, and the plan permits injection (13 R322). -/
def State.injectionOpen (s : State) (session : Nat) : Bool :=
  s.plan.injection && s.planLive && s.trust.attested.contains session && s.trust.unlock.any fun u => u.1 = session

/-- Show in ERR_INJSTAT whether injection is open to the unlocked session. -/
def State.showInjection (s : State) : State :=
  s.wr F.errInjstatEnabled (if s.trust.unlock.any fun u => s.injectionOpen u.1 then 1 else 0)

/-- The plan's spray seed goes to a quadrant whose QSW block is IDLE. QSW_SPRAYCFG is class S: a write at any other time is
discarded and sets CFG_REJECT (03 R66), and the seed stands until a plan finds the block IDLE. [DEDUCED log 98] -/
def State.seedFrom (s : State) (q seed : Nat) : State :=
  if (List.range 36).any fun k => s.active (36 * q + k) then (if s.rd F.qswSpraycfgSeed q = seed then s else s.wr F.qswStatCfgReject 1 q)
  else s.wr F.qswSpraycfgSeed seed q

/-- The plan of an image takes force: its parameters go to the registers they set, ESC_VIA takes its defaults, newly
assigned ports leave DEEP and ports no longer assigned go there (01 R9), a plan that forbids injection disarms every die.
 [DEDUCED log 98, 116] -/
def State.takePlanAs (s : State) (image : List Byte) (p : Plan) : State :=
  let old := s.plan
  let wasLive := s.planLive
  let s := { s with plan := p, planLive := true, planHash := sha384 image,
                    escVia := Tab.ofKeys 0 (List.range 16) fun g => p.escVia.getD (16 * s.self + g) 0,
                    agent := { s.agent with acting := if s.rd F.condStatCterm ≤ 1 then p.primary else s.agent.acting } }
  let s := ((s.wr F.pwrCfgBrakeW p.moduleBrakeW).wr F.pwrCfgSurvivalW p.moduleSurvivalW).wr F.pwrCfgVinUv p.vinUv
  let s := s.wr F.pwrLeakUsed (p.ropes.getD s.tray 0)
  let s := (s.wr F.condSelftestPromo p.selftestPromo).wr F.ledgArbPromo p.ledgPromo
  let s := s.each [0, 1, 2, 3] fun s q => s.seedFrom q p.seed
  let s := s.wr F.condStatRole (if p.primary = s.self then 1 else if p.secondary = s.self then 2 else 0)
  let s := s.each (List.range 144) fun s k =>
    let key := 256 * s.self + k
    let now := (p.ports.find key).isSome
    let before := wasLive && (old.ports.find key).isSome
    let s := s.modPort k fun x => { x with baseline := false }
    let s := s.wr F.laneStatUnused (if now then 0 else 1) k
    if !s.flag F.hubIdStatMainOn then s
    else if now && !before then s.setDeep k false
    else if before && !now then s.setDeep k true
    else s
  let s := s.onlyIf (s.rd F.condStatMode = 6) (·.wr F.condStatMode 5)
  let s := if p.injection then s else s.disarmAll
  s.showInjection

/-- The plan that an image carries comes into force. [DEDUCED log 116] -/
def State.takePlan (s : State) (image : List Byte) : State :=
  match planOf image with
  | none => s
  | some p => s.takePlanAs image p

/-! ## A commit completes (R390) -/

/-- What follows the commit of one group. [DEDUCED log 58] -/
def State.committed (s : State) (c : CommitReq) (cseq : Nat) : State :=
  if c.type = 1 then s.wr F.ledgHoursHoursMain (fieldAt c.payload 0 4)
  else if c.type = 7 then
    match c.rseq with
    | none => s
    | some q =>
      match s.errs.find? fun e => e.2.rseq = q with
      | none => s.report (.error s.self (fieldAt c.payload 0 2) (fieldAt c.payload 2 1 % 4) (fieldAt c.payload 4 2))
      | some (i, r) =>
        (s.putErr i { r with cseq := cseq, open_ := decide (r.sev = 3) }).report (.error s.self r.code r.sev r.inst)
  else if c.type = 8 then s.takePlan c.payload
  else if c.type = 10 && (s.rd F.condStatMode = 3 || s.rd F.condStatMode = 4) then
    let i := fieldAt c.payload 0 8
    let s := s.emit (.pairAck i)
    { s with cond := { s.cond with ready := s.cond.ready ++ s.cond.log.filter fun e => e.index = i, committed := i } }
  else s

/-- LEDGER_COMMIT: the oldest waiting group completes in both macros; `ok0` and `ok1` tell whether each macro wrote it and
read it back. A macro that fails leaves service, LEDGER_DEGRADED. [DEDUCED log 70] -/
def State.ledgerCommit (s : State) (ok0 ok1 : Bool) : State :=
  match s.ledger.queue with
  | [] => s
  | c :: _ =>
    if !s.flag F.ledgStatMounted || s.flag F.ledgStatProtected || s.phys.pwrFail then s
    else
      let die := s.evaluate E.ledgerDegraded 0 (s.macroUp 0 && !ok0)
      let s := die.1
      let bad0 := die.2.1
      let bad1 := s.macroUp 1 && !ok1
      let s := s.wr F.ledgStatMacros ((if s.macroUp 0 && ok0 then 1 else 0) + (if s.macroUp 1 && ok1 then 2 else 0))
      let info := c.type + 2 ^ 8 * c.key + 2 ^ 24 * (s.ledger.nextCseq % 2 ^ 40)
      let s := if bad0 then s.raise E.ledgerDegraded 0 info 0 none die.2.2 else s
      let s := if bad1 then s.raise E.ledgerDegraded 1 info else s
      if s.rd F.ledgStatMacros = 0 then s
      else
        let s := { s with ledger := { s.ledger with queue := s.ledger.queue.tail } }.freshen 256
        let n := s.ledger.nextCseq
        (s.commitGroup c.type c.key c.payload).committed c n

/-- [DEDUCED log 58] -/
def execLedgerCommit (ok0 ok1 : Bool) (s : State) : Host.Outcome State Fault Refusal := .next (s.ledgerCommit ok0 ok1).settle

/-! ## The NOR copy (R386, R391, R394) -/

/-- First and last NOR block of the critical copy and the cold archive. [DEDUCED log 69] -/
def norFirst : Nat := 2048
/-- [DEDUCED log 69] -/
def norEnd : Nat := 8192

/-- Whether a NOR block is free. -/
def State.norIsFree (s : State) (b : Nat) : Bool :=
  norFirst ≤ b && b < norEnd && !s.ledger.norBad.contains b && s.ledger.norTime.getD b 0 = 0

/-- The free block with the lowest erase count, the lowest number among equals. [DEDUCED log 69] -/
def State.norPick (s : State) : Option Nat :=
  ((List.range (norEnd - norFirst)).foldl (fun (b : Option Nat) i =>
    let k := norFirst + i
    if !s.norIsFree k then b
    else match b with
      | none => some k
      | some j => if s.ledger.norErase.getD k 0 < s.ledger.norErase.getD j 0 then some k else some j) none)

/-- Room for `n` bytes in the block being filled, else a fresh block; each block starts with a 32-byte header. [DEDUCED log 69] -/
def State.norRoom (s : State) (n : Nat) : State × Option Nat :=
  let fresh : State × Option Nat := match s.norPick with
    | none => (s, none)
    | some b =>
      let l := s.ledger
      (({ s with ledger := { l with norOpen := some (b, 32 + n), norTime := l.norTime.setD b 0 (s.rackTime + 1) } }).bump 26, some b)
  match s.ledger.norOpen with
  | some (b, used) =>
    if used + n ≤ 65536 then ({ s with ledger := { s.ledger with norOpen := some (b, used + n) } }, some b) else fresh
  | none => fresh

/-- NOR_COPY: the oldest critical group that waits is written to NOR; a CKPT goes there at most once in 600 s. A block that
fails to program is retired, and the group waits on. -/
def execNorCopy (ok : Bool) (s : State) : Host.Outcome State Fault Refusal :=
  .next (let due (g : LedgGroup) : Bool :=
      g.type ≠ 9 || s.ledger.norCkpt.all fun t => decide (t + 600000000000 ≤ s.rackTime)
    match s.ledger.norQueue.find? due with
    | none => s
    | some g =>
      if s.phys.pwrFail || s.flag F.ledgStatProtected || !s.flag F.ledgStatMounted then s
      else
        let r := s.norRoom (64 * groupRecords g.type g.payload)
        match r.2 with
        | none => r.1
        | some b =>
          let c := r.1.check E.norProgramFail 2 (!ok) (g.type + 2 ^ 8 * g.key + 2 ^ 24 * (g.cseq % 2 ^ 40))
          let s := c.1
          if c.2 then { s with ledger := { s.ledger with norBad := b :: s.ledger.norBad, norOpen := none } }
          else
            let l := s.ledger
            let s := { s with ledger := { l with
              nor := addGroup l.nor g
              norQueue := l.norQueue.filter fun x => x ≠ g
              norCkpt := if g.type = 9 then some s.rackTime else l.norCkpt } }
            s.wr F.ledgStatNorBehind (if s.ledger.norQueue = [] then 0 else 1))

/-- 180 days in ns. -/
def norAge : Nat := 15552000000000000

/-- NOR_REFRESH: a block whose data is 180 days old is copied to a fresh block and then erased (R394). -/
def execNorRefresh (block : Nat) (s : State) : Host.Outcome State Fault Refusal :=
  .next (let t := s.ledger.norTime.getD block 0
    if t = 0 || s.rackTime + 1 < t + norAge || s.phys.pwrFail || s.flag F.ledgStatProtected then s
    else
      match s.norPick with
      | none => s
      | some b =>
        let l := s.ledger
        let e := l.norErase.getD block 0 + 1
        let s := { s with ledger := { l with
          norTime := (l.norTime.setD b 0 (s.rackTime + 1)).setD block 0 0
          norErase := l.norErase.setD block 0 e
          norOpen := if l.norOpen.any (fun (o : Nat × Nat) => o.1 = block) then none else l.norOpen } }
        ((s.wr F.ledgWearNorMaxErase (Nat.max (s.rd F.ledgWearNorMaxErase) e)).bump 26).bump 27)

/-- MRAM_PATROL: both macros are read once in 24 h; each corrected word is written back (R385). -/
def execMramPatrol (corrected : Nat) (s : State) : Host.Outcome State Fault Refusal :=
  .next (s.each (List.range corrected) fun s _ =>
    let d := s.detected E.mramCe 0
    d.1.raise E.mramCe 0 0 0 none d.2)

/-! ## Hours (R396; 11 R288; 15 R382) -/

/-- HOURS_STBY: hours of standby power, in units of 360 s. -/
def State.hoursStby (s : State) : Nat := s.ledger.hoursStby + s.tick / 36000000000

/-- The 64 bytes of an inventory record (15 R382). [DESIGN CHOICE log 17] -/
def invBytes (r : InvRec) : List Byte :=
  leBytes 1 r.cls ++ leBytes 1 r.pos ++ leBytes 1 r.state ++ [0] ++ leBytes 16 r.part ++ leBytes 16 r.serial ++ leBytes 4 r.hours ++
  leBytes 8 r.firstSeen ++ leBytes 8 r.removed ++ leBytes 8 0

/-- HOURS_COMMIT: 360 s of main power more. The lane hours and the inventory's hours go with it. -/
def execHoursCommit (s : State) : Host.Outcome State Fault Refusal :=
  .next (if !s.flag F.hubIdStatMainOn then s
    else
      let waiting := (s.ledger.queue.filter fun c => c.type = 1).length
      let s := s.askLedger 1 0 (leBytes 4 (s.rd F.ledgHoursHoursMain + waiting + 1) ++ leBytes 4 s.hoursStby ++
        leBytes 4 (s.rd F.ledgHoursUnclean) ++ leBytes 8 s.rackTime ++ leBytes 28 0)
      let s := s.each ((List.range 144).filter s.active) fun s p => s.each (portLanes p) fun s l =>
        (s.modLane l fun x => { x with hours := x.hours + 1 }).writeLane l 3 0
      let s := { s with ledger := { s.ledger with inventory := s.ledger.inventory.map fun (r : InvRec) =>
          if r.state = 1 then { r with hours := r.hours + 1 } else r } }
      (s.ledger.inventory.filter fun (r : InvRec) => r.state = 1).foldl
        (fun (s : State) (r : InvRec) => s.askLedger 11 (r.cls * 256 + r.pos) (invBytes r)) s)

/-! ## Power failure (R395; 19 R450) -/

/-- PWR_FAIL: waiting commits are refused, POWER_FAIL is committed in both macros, and they are write-protected. -/
def execPwrFail (openSeconds : Nat) (s : State) : Host.Outcome State Fault Refusal :=
  .next (if s.phys.pwrFail then s
    else
      let s := { s with phys := { s.phys with pwrFail := true } }
      let s := s.bump 31 s.ledger.queue.length
      let s := if s.flag F.ledgStatMounted && s.rd F.ledgStatMacros ≠ 0 then
          (s.commitGroup 3 0 (leBytes 8 s.rackTime ++ leBytes 8 (s.ledger.nextCseq - 1) ++ leBytes 2 openSeconds ++
            leBytes 1 (s.rd F.pwrThermTmax) ++ leBytes 1 0 ++ leBytes 2 (s.rd F.pwrStatPowerW) ++ leBytes 26 0)).bump 30
        else s
      s.wr F.ledgStatProtected 1)

/-- PWR_FAIL_RELEASE: protection lifts, and refused writers repeat their commits. -/
def execPwrFailRelease (s : State) : Host.Outcome State Fault Refusal :=
  .next (if s.phys.pwrFail && s.phys.standby then { s with phys := { s.phys with pwrFail := false } }.wr F.ledgStatProtected 0 else s)

/-! ## The mount (R397 to R399) -/

/-- The hash of a type's live set with one copy put in its place (R399 rule 2). -/
def State.hashWith (s : State) (g : LedgGroup) : BitVec 384 :=
  s.setHash g.type fun k => if k = g.key then some g else s.live g.type k

/-- The records of the latest seal in every copy. -/
def State.topSeal (s : State) : List LedgGroup :=
  let l := (s.ledger.mr0 ++ s.ledger.mr1 ++ s.ledger.nor).filter fun g => g.type = 16
  let top := l.foldl (fun n g => Nat.max n g.cseq) 0
  l.filter fun g => g.cseq = top

/-- Whether a seal is available: there is one, and its copies with the highest CSEQ do not differ (R398). -/
def State.sealThere (s : State) : Bool :=
  let l := s.topSeal
  l ≠ [] && l.all fun a => l.all fun b => a.key ≠ b.key || a.payload = b.payload

/-- The seal's hash of a type. -/
def State.sealOf (s : State) (t : Nat) : Option (List Byte) :=
  if s.sealThere then (s.topSeal.find? fun g => g.key = t).map fun g => g.payload else none

/-- Settle one critical record: the winning copy, and whether rule 2 decided (R399). -/
def State.settleRecord (s : State) (t k : Nat) : Option LedgGroup × Bool :=
  let cs := ([s.ledger.mr0, s.ledger.mr1, s.ledger.nor].map fun l => newestGroup l t k).filterMap id
  match s.live t k with
  | none => (none, false)
  | some b =>
    let top := cs.filter fun g => g.cseq = b.cseq
    if top.all fun g => g.payload = b.payload then (some b, false)
    else
      match top.find? fun g => s.sealOf t = some (leBytes 48 (s.hashWith g).toNat) with
      | some g => (some g, true)
      | none => (none, false)

/-- Whether the three copies of a record are equal. -/
def State.copiesEqual (s : State) (t k : Nat) : Bool :=
  match newestGroup s.ledger.mr0 t k, newestGroup s.ledger.mr1 t k, newestGroup s.ledger.nor t k with
  | some a, some b, some c => a.cseq = b.cseq && b.cseq = c.cseq && a.payload = b.payload && b.payload = c.payload
  | _, _, _ => false

/-- A repair entry as its bytes give it (07 R178). -/
def repairOf (p : List Byte) : Repair :=
  { kind := fieldAt p 0 1, quad := fieldAt p 1 1, bank := fieldAt p 2 2 % 512, sub := fieldAt p 4 1, spare := fieldAt p 5 1,
    column := fieldAt p 6 2 % 1024, cause := fieldAt p 8 1 }

/-- The owner slot that is ACTIVE and not REVOKED (16 R401). -/
def State.ownerSlot (s : State) : Option Nat :=
  [0, 1, 2, 3].find? fun k => s.trust.ownerActive.contains k && !s.trust.ownerRevoked.contains k

/-- Load a live critical record into what uses it. -/
def State.loadRecord (s : State) (t k : Nat) (p : List Byte) : State :=
  if t = 1 then (s.wr F.ledgHoursHoursMain (fieldAt p 0 4)).wr F.ledgHoursUnclean (Nat.min (fieldAt p 8 4) 65535)
    |> fun s => { s with ledger := { s.ledger with hoursStby := fieldAt p 4 4 } }
  else if t = 5 then { s with ledger := { s.ledger with repairs := s.ledger.repairs ++ [repairOf p] } }
  else if t = 8 then { s with ledger := { s.ledger with plan := some p } }.takePlan p
  else if t = 12 then
    { s with trust := { s.trust with floorVersion := fieldAt p 0 4, floorSvn := fieldAt p 4 1 } }.wr F.ledgFloorVersion (fieldAt p 0 4)
  else if t = 14 then (if s.ownerSlot = some k then { s with trust := { s.trust with ownerKey := p } } else s)
  else s

/-- How the critical records are settled: type, key, the winner, and whether rule 2 decided. Every one is settled against the seal that
the mount finds. -/
def State.settlements (s : State) : List (Nat × Nat × Option LedgGroup × Bool) :=
  [12, 1, 5, 14, 13, 8, 9].flatMap fun t => (keysOf (s.ledger.mr0 ++ s.ledger.mr1 ++ s.ledger.nor) t).map fun k => (t, k, s.settleRecord t k)

/-- Record how one record was settled; an UNTRUSTED one is counted. -/
def State.noteSettled (s : State) (e : Nat × Nat × Option LedgGroup × Bool) : State :=
  let info := e.1 + 2 ^ 8 * e.2.1
  if e.2.2.1.isNone then
    let s := { s with ledger := { s.ledger with untrusted := (e.1, e.2.1) :: s.ledger.untrusted } }
    ((s.addSat F.ledgStatUntrusted 1).raise E.ledgerUntrusted 0 info).bump 29
  else if e.2.2.2 then (s.raise E.ledgerResolved 0 info).bump 28 else s

/-- The winners whose copies were not all equal are committed again, then a new seal (R397). [DEDUCED log 134] -/
def State.commitAgain (s : State) (gs : List LedgGroup) : State :=
  if gs = [] then s
  else (gs.foldl (fun (s : State) g => (s.putGroup g.type g.key g.payload s.ledger.nextCseq).bump 24) s).commitSeal

/-- Settle the critical records, commit again what differed, and load the winners. [DEDUCED log 134] -/
def State.mountSettle (s : State) : State :=
  let w := s.settlements
  let won := w.filterMap fun e => e.2.2.1
  let again := won.filter fun g => !s.copiesEqual g.type g.key
  won.foldl (fun (s : State) g => s.loadRecord g.type g.key g.payload) ((w.foldl State.noteSettled s).commitAgain again)

/-- Number the next group, put both macros in service, and see whether a seal is available. -/
def State.mountScan (s : State) : State :=
  let all := s.ledger.mr0 ++ s.ledger.mr1 ++ s.ledger.nor
  let top := all.foldl (fun n g => Nat.max n g.cseq) 0
  let s := { s with ledger := { s.ledger with nextCseq := top + 1, repairs := [], untrusted := [] } }
  let s := ((s.wr F.ledgStatMacros 3).wr F.ledgStatUntrusted 0).wr F.ledgStatCseq (top % 2 ^ 48)
  s.wr F.ledgStatSealOk (if s.sealThere then 1 else 0)

/-- A FLOOR that is UNTRUSTED is replaced from the running image at once (R400). -/
def State.mountFloor (s : State) : State :=
  if s.ledger.untrusted.contains (12, 0) then
    let t := s.trust
    let p := leBytes 4 t.version ++ leBytes 1 t.svn ++ leBytes 3 0 ++ leBytes 8 s.rackTime ++ leBytes 32 0
    let s := { s with ledger := { s.ledger with untrusted := s.ledger.untrusted.filter (· ≠ (12, 0)) } }
    let s := (s.commitGroup 12 0 p).loadRecord 12 0 p
    s.wr F.ledgStatUntrusted s.ledger.untrusted.length
  else s

/-- The COUNTS and STOP records at a boot (R388, R396). -/
def State.mountCounts (s : State) : State :=
  let counts := match s.live 17 0 with | some g => g.payload | none => []
  let boots := fieldAt counts 4 4 + 1
  let cycles := fieldAt counts 0 4
  let s := { s with ledger := { s.ledger with boots := boots } }
  let s := s.wr F.ledgHoursCycles (Nat.min cycles 65535)
  let unclean := (s.live 2 0).any fun g => fieldAt g.payload 8 1 % 2 = 0
  let s := if unclean then s.addSat F.ledgHoursUnclean 1 else s
  let s := s.askLedger 2 0 (leBytes 8 s.rackTime ++ leBytes 40 0)
  s.askLedger 17 0 (leBytes 4 cycles ++ leBytes 4 boots ++ leBytes 4 (s.rd F.hubIdStatRestarts) ++ leBytes 36 0)

/-- An image below the live FLOOR's VERSION goes back to the boot ROM (R403); after a recovery the ROM asks the RM alone (R405). -/
def State.mountRollback (s : State) : State :=
  if s.trust.version < s.trust.floorVersion then
    let s := s.raise E.rollbackRefused 0 s.trust.version
    let t := { s.trust with recovering := true, rmOnly := s.trust.recovered, rmAllowed := s.trust.recovered }
    ({ s with trust := t }.emit (.recoveryAsk t.devId s.tray)).wr F.hubIdStatBoot 1
  else s

/-- LEDGER_MOUNT: the copies are settled, unequal ones committed again with a new seal; hours, counts, floor, owner key,
repair map and plan are loaded; the STOP record tells an unclean shutdown. [DEDUCED log 70] -/
def State.mount (s : State) : State :=
  let s := s.mountScan.mountSettle
  let s := s.mountFloor.mountCounts
  ((s.wr F.ledgStatMounted 1).wr F.hubIdStatBoot 4).mountRollback

def execLedgerMount (s : State) : Host.Outcome State Fault Refusal :=
  .next (if s.flag F.ledgStatMounted || s.trust.recovering || !s.phys.standby || s.phys.pwrFail then s else s.mount)

end Sys2Proof.Machine
end

