-- ==== Sys2Proof/Machine/Rcs.lean ====
section
/-! DEFINITION. Commands of the Rospex Command Set (13 R320) that the receiving module answers itself: identity and version,
ledger and inventory, routing tables and holds, ports, lanes, tunnels, addresses, fences of cores and banks, power reads. Where
R320 gives a response without offsets, its fields stand in the order named, each in whole bytes, without gaps. -/

namespace Sys2Proof.Machine

/-! ## Identity and version (R318, R320) -/

/-- The governing version is kept for the requester. -/
def State.govern (s : State) (r : Nat) : State := { s with hello := (r, 256) :: s.hello.filter fun e => e.1 ≠ r }

/-- HELLO: the answer is 1.0, or VERSION_UNSUPPORTED for a major version other than 1. GEN is 0, T1. -/
def execHello (mb : MbxRef) (s : State) : Host.Outcome State Fault Refusal :=
  .next (s.rcs mb 0x0000 fun s x =>
    if fieldAt x.req.payload 0 1 ≠ 1 then s.complete mb St.version
    else (s.govern (requester mb x.session)).complete mb St.ok
      (leBytes 1 1 ++ leBytes 1 0 ++ leBytes 2 s.self ++ leBytes 8 s.trust.devId ++ leBytes 4 s.trust.version ++ leBytes 1 0))

/-- The ordering number, 16 bytes of ASCII: TVY1-F144-M16. -/
def orderingNumber : List Byte :=
  [0x54, 0x56, 0x59, 0x31, 0x2D, 0x46, 0x31, 0x34, 0x34, 0x2D, 0x4D, 0x31, 0x36, 0, 0, 0]

/-- Whether this module leads its switch tray: the module of plane A (01 R10). -/
def State.trayLead (s : State) : Bool := !s.plane

def execIdentity (mb : MbxRef) (s : State) : Host.Outcome State Fault Refusal :=
  .next (s.rcs mb 0x0001 fun s _ =>
    let roles := (if s.planLive && s.plan.primary = s.self then 1 else 0) +
      (if s.planLive && s.plan.secondary = s.self then 2 else 0) + (if s.trayLead then 4 else 0)
    s.complete mb St.ok (orderingNumber ++ leBytes 8 s.trust.devId ++ leBytes 2 s.self ++ leBytes 1 s.tray ++ leBytes 1 roles ++
      leBytes 4 s.trust.libVer ++ leBytes 48 s.planHash.toNat))

/-! ## The ledger (R320; 16 R387, R399, R400) -/

/-- The trust state of a record. -/
def State.trustOf (s : State) (t k : Nat) : Nat := Config.trustState (if s.ledger.untrusted.contains (t, k) then 1 else 0)

/-- LEDGER_READ: the records of a type from a KEY on, each as its 64 bytes and its trust state. [DEDUCED log 18] -/
def execLedgerRead (mb : MbxRef) (s : State) : Host.Outcome State Fault Refusal :=
  .next (s.rcs mb 0x0100 fun s x =>
    let t := fieldAt x.req.payload 0 2
    let first := fieldAt x.req.payload 2 4
    let count := fieldAt x.req.payload 6 2
    if t = 0 || 17 < t then s.complete mb St.field
    else
      let all := s.ledger.mr0 ++ s.ledger.mr1 ++ s.ledger.nor
      let keys := ((keysOf all t).filter fun k => first ≤ k).take count
      s.complete mb St.ok (keys.flatMap fun k => match s.live t k with
        | some g => (s.groupBytes g).flatMap fun r => r ++ leBytes 1 (s.trustOf t k)
        | none => []))

/-- HOURS: hours of use, unclean shutdowns, thermal cycles, as LEDG_HOURS holds them. -/
def execHours (mb : MbxRef) (s : State) : Host.Outcome State Fault Refusal :=
  .next (s.rcs mb 0x0101 fun s _ => s.complete mb St.ok
    (leBytes 4 (s.rd F.ledgHoursHoursMain) ++ leBytes 4 (s.rd F.ledgHoursUnclean) ++ leBytes 4 (s.rd F.ledgHoursCycles)))

/-- INVENTORY: the records of a class; class 0 is all of them. -/
def execInventory (mb : MbxRef) (s : State) : Host.Outcome State Fault Refusal :=
  .next (s.rcs mb 0x0102 fun s x =>
    let c := fieldAt x.req.payload 0 1
    s.complete mb St.ok ((s.ledger.inventory.filter fun r => c = 0 || r.cls = c).flatMap invBytes))

/-- REPAIR_MAP: the ledger's entries, then the fuse spares (07 R178). -/
def execRepairMap (mb : MbxRef) (s : State) : Host.Outcome State Fault Refusal :=
  .next (s.rcs mb 0x0103 fun s x =>
    let es := s.ledger.repairs ++ s.spares.filter fun r => r.kind = 3
    s.complete mb St.ok ((es.drop (fieldAt x.req.payload 0 2)).flatMap repairBytes))

/-- Whether a supplied record comes from the role that R400 names and passes its check. [DEDUCED log 18] -/
def State.supplyOk (s : State) (x : MbxSt) (t k : Nat) (p : List Byte) : Bool :=
  let conductor : Bool := x.role = .peer && x.session = s.agent.acting
  match t with
  | 1 => conductor && (s.ledger.mr0 ++ s.ledger.mr1 ++ s.ledger.nor).all fun g => g.type ≠ 1 || fieldAt g.payload 0 4 ≤ fieldAt p 0 4
  | 8 => conductor && (planOf p).isSome
  | 9 => conductor
  | 13 => x.role = .rm && Config.chainOk p
  | 14 => x.role = .rm && s.ownerSlot = some k && s.trust.ownerHash.getD k 0 = (sha384 p).toNat
  | _ => false

/-- LEDGER_SUPPLY: accepted for an UNTRUSTED record only; committed with a new CSEQ and used. The record's header is followed
by its payload, a blob whole. [DEDUCED log 18] -/
def execLedgerSupply (mb : MbxRef) (s : State) : Host.Outcome State Fault Refusal :=
  .next (s.rcs mb 0x0104 fun s x =>
    let q := x.req.payload
    let t := fieldAt q 0 1
    let k := fieldAt q 2 2
    let p := if blobType t then q.drop 64 else sliceAt q 12 48 ++ q.drop 64
    if !s.ledger.untrusted.contains (t, k) || !s.supplyOk x t k p then s.complete mb St.notPermitted
    else
      let s := { s with ledger := { s.ledger with untrusted := s.ledger.untrusted.filter (· ≠ (t, k)) } }
      let s := (s.wr F.ledgStatUntrusted (Nat.min s.ledger.untrusted.length 255)).commitGroup t k p
      ((s.loadRecord t k p).complete mb St.ok (leBytes 1 (Config.trustState 2))))

/-! ## Sessions (R317) -/

/-- SESSION_GRANT: the slices of a RUNTIME session. -/
def execSessionGrant (mb : MbxRef) (s : State) : Host.Outcome State Fault Refusal :=
  .next (s.rcs mb 0x0304 fun s x =>
    ({ s with grants := s.grants.setD (fieldAt x.req.payload 0 8) 0 (fieldAt x.req.payload 8 32) }).complete mb St.ok)

/-! ## Routing tables (03 R56, R57, R69; 04 R95, R96) -/

/-- The number of entries of a routing table and the bytes of one: in the order of R56, SLICE_COLS 6. Two more are carried by
DRP TABLE_WRITE only: PORT_SLICE 7 and the VERIFY marks of slices 8. [DEDUCED log 71] -/
def tableShape : Nat → Nat × Nat
  | 0 => (32, 8)
  | 1 => (256, 1)
  | 2 => (16, 1)
  | 3 => (256, 8)
  | 4 => (4096, 128)
  | 5 => (16, 1)
  | 6 => (256, 4)
  | 7 => (144, 2)
  | 8 => (256, 1)
  | _ => (0, 0)

/-- A port number of a table entry as the tables hold it: 0 for none. -/
def portEntry (v : Nat) : Nat := if v % 256 = 0xFF then 0 else v % 256 + 1

/-- Write one entry. ESC_VIA has change class L and acts at once; the others go to the shadow. [DEDUCED log 71] -/
def State.tableEntry (s : State) (table i v : Nat) : State :=
  let t := s.shadow
  match table with
  | 0 => { s with shadow := { t with memberPorts := (List.range 8).foldl (fun (m : Tab Nat) k =>
      m.setD (8 * i + k) 0 (portEntry (v / 2 ^ (8 * k)))) t.memberPorts } }
  | 1 => { s with shadow := { t with globalPorts := t.globalPorts.setD i 0 (portEntry v) } }
  | 2 => { s with shadow := { t with xlinkPorts := t.xlinkPorts.setD i 0 (portEntry v) } }
  | 3 => { s with shadow := { t with sliceLset := t.sliceLset.setD i 0 (v % 2 ^ 33) } }
  | 4 => { s with shadow := { t with spray := (List.range 64).foldl (fun (m : Tab Nat) k =>
      m.setD (64 * i + k) 0 (v / 2 ^ (16 * k) % 512)) t.spray } }
  | 5 => { s with escVia := s.escVia.setD i 0 (v % 32) }
  | 6 => { s with shadow := { t with sliceCols := t.sliceCols.setD i 0 (v % 2 ^ 32) } }
  | 7 => { s with shadow := { t with portSlice := t.portSlice.setD i 0 (v % 512) } }
  | 8 => { s with verifySlices := if v % 2 = 1 then i :: s.verifySlices.filter (· ≠ i) else s.verifySlices.filter (· ≠ i) }
  | _ => s

/-- QSW_TGEN.PENDING: shadow tables differ from active tables. -/
def State.showPending (s : State) : State :=
  let p : Nat := if { s.shadow with gen := s.tables.gen } = s.tables then 0 else 1
  s.each [0, 1, 2, 3] fun s q => s.wr F.qswTgenPending p q

/-- Write entries from an index on; none where they run past the table. -/
def State.writeTable (s : State) (table first : Nat) (entries : List Nat) : Option State :=
  if (tableShape table).1 < first + entries.length then none
  else some ((entries.zipIdx.foldl (fun s (e : Nat × Nat) => s.tableEntry table (first + e.2) e.1) s).showPending)

def execTableWrite (mb : MbxRef) (s : State) : Host.Outcome State Fault Refusal :=
  .next (s.rcs mb 0x0310 fun s x =>
    let p := x.req.payload
    let t := fieldAt p 0 1
    let n := fieldAt p 4 2
    let w := (tableShape t).2
    if 6 < t then s.complete mb St.field
    else if x.reqLen ≠ 8 + n * w then s.complete mb St.length
    else
      match s.writeTable t (fieldAt p 2 2) ((List.range n).map fun k => ofLe (sliceAt p (8 + k * w) w)) with
      | some s => s.complete mb St.ok
      | none => s.complete mb St.field)

/-- TABLE_SWITCH: the switch is armed for its time and the command completes when it is made (kind 1 of `waitCmds`). -/
def execTableSwitch (mb : MbxRef) (s : State) : Host.Outcome State Fault Refusal :=
  .next (s.rcs mb 0x0311 fun s x =>
    let g := fieldAt x.req.payload 0 2
    { s with agent := { s.agent with pendingSwitch := some (g, fieldAt x.req.payload 8 8) }
             waitCmds := s.waitCmds ++ [(mb, 1, g)] })

/-- Set or clear HOLD on the ports of a mask (R96). -/
def State.holdPorts (s : State) (mask : Nat) (on : Bool) : State :=
  s.each ((List.range 144).filter fun p => mask.testBit p) fun s p => s.wr F.portIngctlHold (if on then 1 else 0) p

/-- Shared body of INGRESS_HOLD. [DEDUCED log 30] -/
def State.ingressHold (s : State) (mb : MbxRef) (set : Bool) : State :=
  match s.ready? mb 0x0312 with
  | none => s
  | some x =>
    let f := fieldAt x.req.payload 18 1 % 4
    let mask := fieldAt x.req.payload 0 18
    -- each of the two rows takes the requests of its form; both bits or neither is no form
    if f = 0 || f = 3 then s.complete mb St.field
    else if (f = 1) = set then (s.holdPorts mask set).complete mb St.ok
    else s

/-- INGRESS_HOLD, set. -/
def execIngressHoldSet (mb : MbxRef) (s : State) : Host.Outcome State Fault Refusal := .next (s.ingressHold mb true)

/-- INGRESS_HOLD, clear: credits withheld are returned by later slots. -/
def execIngressHoldClear (mb : MbxRef) (s : State) : Host.Outcome State Fault Refusal := .next (s.ingressHold mb false)

/-! ## Memory, cores, banks (10; 08 R212; 07 R179) -/

/-- MEM_STATUS: STATE, the failed channels of the four quadrants, each channel's scrub position. -/
def execMemStatus (mb : MbxRef) (s : State) : Host.Outcome State Fault Refusal :=
  .next (s.rcs mb 0x0507 fun s _ => s.complete mb St.ok
    (leBytes 1 (s.rd F.memcStatState) ++ [0, 1, 2, 3].flatMap (fun q => leBytes 2 (s.rd F.memcStatChFailed q)) ++
     (List.range 64).flatMap fun ch => leBytes 4 (s.scrubPos.getD ch 0)))

/-- CORE_FENCE: cause 2 of the fence history. -/
def State.doCoreFence (s : State) (mb : MbxRef) : State :=
  s.rcs mb 0x0804 fun s x =>
    let c := fieldAt x.req.payload 0 1
    if 128 ≤ c then s.complete mb St.field else (s.fenceCore c 2).complete mb St.ok

def execCoreFence (mb : MbxRef) (s : State) : Host.Outcome State Fault Refusal := .next (s.doCoreFence mb).settle

/-- BANK_RETIRE: cause 4, COMMAND (07 R178, R179). -/
def State.doBankRetire (s : State) (mb : MbxRef) : State :=
  s.rcs mb 0x0805 fun s x =>
    let q := fieldAt x.req.payload 0 1
    let b := fieldAt x.req.payload 2 2
    if 4 ≤ q || 512 ≤ b then s.complete mb St.field else (s.askRetire q b 4).complete mb St.ok

def execBankRetire (mb : MbxRef) (s : State) : Host.Outcome State Fault Refusal := .next (s.doBankRetire mb).settle

/-! ## Ports and lanes (11 R283, R287) -/

/-- Shared body of PORT_SET. -/
def State.portSet (s : State) (mb : MbxRef) (deep : Bool) : State :=
  match s.ready? mb 0x0900 with
  | none => s
  | some x =>
    let p := fieldAt x.req.payload 0 1
    let f := fieldAt x.req.payload 1 1 % 4
    if 144 ≤ p || f = 0 || f = 3 then s.complete mb St.field
    else if (f = 1) = deep then (s.setDeep p deep).complete mb St.ok
    else s

def execPortSetDeep (mb : MbxRef) (s : State) : Host.Outcome State Fault Refusal := .next (s.portSet mb true).settle

def execPortSetClearDeep (mb : MbxRef) (s : State) : Host.Outcome State Fault Refusal := .next (s.portSet mb false).settle

/-- LANE_READ: the lane's ledger records, oldest first. -/
def execLaneRead (mb : MbxRef) (s : State) : Host.Outcome State Fault Refusal :=
  .next (s.rcs mb 0x0901 fun s x =>
    let l := fieldAt x.req.payload 0 2
    if 576 ≤ l then s.complete mb St.field
    else
      let copy := if s.macroUp 0 then s.ledger.mr0 else s.ledger.mr1
      s.complete mb St.ok ((copy.filter fun g => g.type = 4 && g.key = l).flatMap fun g => g.payload.take 48))

/-! ## Tunnels and addresses (12 R291, R294) -/

/-- A tunnel entry as TUNNEL_WRITE carries it from byte 8: 0 VALID; 1 SLICE; 2 PORT; 3 sub-port; 4–5 VLAN; 6 PCP; 7 DSCP;
8 IPVER; 9 LOCAL; 10–15 NEXT_HOP; 16–31 REMOTE; 32–35 KEY_TX; 36–39 KEY_RX. -/
def tunnelAt (p : List Byte) : Tunnel :=
  { valid := fieldAt p 0 1 % 2 = 1, slice := fieldAt p 1 1, port := fieldAt p 2 1, sub := fieldAt p 3 1, vlan := fieldAt p 4 2 % 4096
    pcp := fieldAt p 6 1 % 8, dscp := fieldAt p 7 1 % 64, ipVer := fieldAt p 8 1, localIdx := fieldAt p 9 1 % 4
    nextHop := fieldAt p 10 6, remote := fieldAt p 16 16, keyTx := fieldAt p 32 4, keyRx := fieldAt p 36 4 }

/-- The bytes of a tunnel entry, in the same layout. [DESIGN CHOICE log 17] -/
def tunnelBytes (t : Tunnel) : List Byte :=
  leBytes 1 (if t.valid then 1 else 0) ++ leBytes 1 t.slice ++ leBytes 1 t.port ++ leBytes 1 t.sub ++ leBytes 2 t.vlan ++
  leBytes 1 t.pcp ++ leBytes 1 t.dscp ++ leBytes 1 t.ipVer ++ leBytes 1 t.localIdx ++ leBytes 6 t.nextHop ++ leBytes 16 t.remote ++
  leBytes 4 t.keyTx ++ leBytes 4 t.keyRx

/-- Whether a valid entry's fields lie in their ranges, with KEY_RX unlike that of any other valid entry. -/
def State.tunnelOk (s : State) (i : Nat) (t : Tunnel) : Bool :=
  t.slice ≠ 0 && t.port < 8 && t.sub < 2 && (t.ipVer = 4 || t.ipVer = 6) &&
  s.shadow.tunnels.all fun e => e.1 = i || !e.2.valid || e.2.keyRx ≠ t.keyRx

def execTunnelWrite (mb : MbxRef) (s : State) : Host.Outcome State Fault Refusal :=
  .next (s.rcs mb 0x0902 fun s x =>
    let i := fieldAt x.req.payload 0 1
    let t := tunnelAt (x.req.payload.drop 8)
    if t.valid && !s.tunnelOk i t then s.complete mb St.field
    else
      ({ s with shadow := { s.shadow with tunnels := s.shadow.tunnels.setD i {} t } }.showPending).complete mb St.ok)

def execTunnelRead (mb : MbxRef) (s : State) : Host.Outcome State Fault Refusal :=
  .next (s.rcs mb 0x0903 fun s x =>
    s.complete mb St.ok (tunnelBytes (s.tables.tunnels.getD (fieldAt x.req.payload 0 1) {})))

/-- ETH_ADDR: the address at an index of an Ethernet port; an IPv4 address is the first 4 bytes. -/
def execEthAddr (mb : MbxRef) (s : State) : Host.Outcome State Fault Refusal :=
  .next (s.rcs mb 0x0904 fun s x =>
    let port := fieldAt x.req.payload 0 1
    let i := fieldAt x.req.payload 1 1
    let v := fieldAt x.req.payload 2 1
    if 8 ≤ port || 4 ≤ i || !(v = 4 || v = 6) then s.complete mb St.field
    else
      let a := fieldAt x.req.payload 16 (if v = 4 then 4 else 16)
      ({ s with ethAddr := s.ethAddr.setD (4 * port + i) 0 a }).complete mb St.ok)

/-! ## Power reads (15 R384) -/

/-- Whether this module runs the conductor state machine. -/
def State.runsMachine (s : State) : Bool :=
  s.rd F.condStatRole ≠ 0 && [1, 2, 3, 4].contains (s.rd F.condStatMode)

/-- POWER_STATUS: the rack cap as the machine holds it; a module without the machine hears only its own cap, and the rack cap
it answers is free. [DESIGN CHOICE log 38] -/
def execPowerStatus (mb : MbxRef) (s : State) : Host.Outcome State Fault Refusal :=
  .next (s.rcs mb 0x0602 fun s _ =>
    let d := s.draw
    let cap := if s.runsMachine then (if s.cond.orphan then s.plan.orphanCap else s.cond.rmCap.getD 0) else Config.freeNat d.1 % 2 ^ 32
    let s := d.2
    s.complete mb St.ok (leBytes 4 cap ++ leBytes 1 s.power.capSource ++ leBytes 3 0 ++
      leBytes 8 (if s.runsMachine then s.cond.leaseExpiry else s.power.capExpiry) ++ leBytes 2 (s.rd F.pwrStatLimitW) ++
      leBytes 1 (s.rd F.pwrStatSource) ++ leBytes 1 0 ++ leBytes 2 (s.rd F.pwrStatPowerW) ++
      leBytes 1 ((if s.power.orphan.isSome || s.cond.orphan then 1 else 0) + (if s.cond.flowLow then 2 else 0) +
        (if s.cond.noRedundancy then 4 else 0))))

def execBrakeStatus (mb : MbxRef) (s : State) : Host.Outcome State Fault Refusal :=
  .next (s.rcs mb 0x0603 fun s _ =>
    s.complete mb St.ok (leBytes 1 (s.rd F.pwrStatBrakeIn + 2 * s.rd F.pwrStatBrakeOut + (if s.power.uv then 4 else 0)) ++ leBytes 3 0 ++
      leBytes 4 (s.rd F.pwrBrakeCount) ++ leBytes 8 s.power.brakeTime ++ leBytes 2 (s.rd F.pwrBrakeRespNs)))

end Sys2Proof.Machine
end

