-- ==== Sys2Proof/Machine/RcsColl.lean ====
section
/-! DEFINITION. Collective commands (13 R320, R321, R323; 05 R102 to R106, R136; 08 R207 to R211): binding slots, queries,
aborts, and loading programs. -/

namespace Sys2Proof.Machine

/-! ## The SLOT_BIND request (R323) -/

/-- A field with a DEFAULTS bit: its value, none where the bit stands beside a nonzero field. -/
def defaulted (flags bit field dflt : Nat) : Option Nat :=
  if flags.testBit bit then (if field = 0 then some dflt else none) else some field

/-- The raw fields of a SLOT_BIND request. -/
structure BindReq where
  slot : Nat
  b : Binding
  ok : Bool
deriving DecidableEq, Repr

/-- Whether a field the operation does not use is zero where it must be, and one it uses lies in its range (R102, R323). -/
def fieldsOk (p : List Byte) (op : Nat) : Bool :=
  let root := fieldAt p 10 2 % 512
  let cap := fieldAt p 28 2
  let pair := fieldAt p 30 2 % 4096
  let tok := fieldAt p 32 4 % 2 ^ 17
  let rec_ := fieldAt p 36 2
  let rows := fieldAt p 38 4
  let elems := fieldAt p 16 8
  (op = 1 || op = 4 || root = 0) &&
  (if op = 6 || op = 7 then cap ≠ 0 && 64 ≤ rec_ && rec_ ≤ 4096 && rec_ % 64 = 0 else cap = 0 && rec_ = 0) &&
  (if op = 6 then 1 ≤ tok && tok ≤ 65536 else tok = 0) &&
  (if op = 7 then 1 ≤ rows && rows ≤ 65536 else rows = 0 && pair = 0) &&
  ((op = 5) = (elems = 0))

/-- Read a SLOT_BIND request. `ok` says that every field has a value in its range or its default. -/
def bindReq (p : List Byte) : BindReq :=
  let df := fieldAt p 13 1
  let op := fieldAt p 4 1 % 16
  let red := defaulted df 6 (fieldAt p 4 1 / 16 % 4) 3
  let lc := fieldAt p 12 1
  let chunk := defaulted df 0 lc 16
  let infl := defaulted df 1 (fieldAt p 6 1 % 16) 3
  let depth := defaulted df 2 (fieldAt p 6 1 / 16 % 4) 1
  let prio := defaulted df 3 (fieldAt p 6 1 / 64 % 4) 1
  let imode := defaulted df 4 (fieldAt p 7 1 % 2) 1
  let clock := defaulted df 5 (fieldAt p 24 4) 200
  let c := chunk.getD 0
  let k := clock.getD 0
  let reduces : Bool := decide (op ≤ 2)
  let ok := red.isSome && chunk.isSome && infl.isSome && depth.isSome && prio.isSome && imode.isSome && clock.isSome &&
    12 ≤ c && c ≤ 20 && 1 ≤ k && k ≤ 4000000 && (op ≤ 8 || op = 15) && fieldAt p 5 1 % 16 ≤ 7 && fieldAt p 5 1 / 16 % 4 ≤ 2 &&
    (if reduces then !df.testBit 6 && red ≠ some 3 else red = some 3) && fieldsOk p op
  { slot := fieldAt p 0 2 % 4096
    ok := ok
    b := { group := fieldAt p 2 2 % 4096, op := op, reducer := red.getD 3, format := fieldAt p 5 1 % 16
           disc := fieldAt p 5 1 / 16 % 4, program := fieldAt p 8 2, elems := fieldAt p 16 8
           root := if op = 1 || op = 4 then fieldAt p 10 2 % 512 else 0x1FF, chunk := 2 ^ c, inflight := infl.getD 0 + 1
           depth := depth.getD 0 + 1, stages := fieldAt p 5 1 / 64 % 2 + 1, retain := fieldAt p 5 1 / 128 = 1, clock := k
           priority := prio.getD 0, intSat := imode = some 1, e5m2Inf := fieldAt p 7 1 / 2 % 2 = 1, capacity := fieldAt p 28 2
           tokensMax := fieldAt p 32 4 % 2 ^ 17, record := fieldAt p 36 2, outRows := fieldAt p 38 4, pair := fieldAt p 30 2 % 4096
           step0 := fieldAt p 42 2, params := (List.range 8).map fun i => fieldAt p (48 + 8 * i) 8 } }

/-- The default program of an operation; none for a custom one (09 R217). -/
def defaultProgram (b : Binding) : Option Nat :=
  if b.op ≤ 2 then (if b.reducer = 0 then some (1 + b.disc) else some 4)
  else if b.op = 8 then some 11
  else if b.op ≤ 7 then some (b.op + 2)
  else none

/-- Whether a library program runs a binding's OP, REDUCER and DISC (09 R216). -/
def libraryRuns (cls : Nat) (b : Binding) : Bool :=
  if cls ≤ 3 then b.op ≤ 2 && b.reducer = 0 && b.disc + 1 = cls
  else if cls = 4 then b.op ≤ 2 && (b.reducer = 1 || b.reducer = 2)
  else if cls ≤ 9 then b.op + 2 = cls
  else b.op = 8

/-- The checks of R103, 06 R142 and 06 R159 on the fields alone, for a group of `n` ranks. -/
def bindFields (b : Binding) (n : Nat) (vacant : List Nat) : Bool :=
  let mx := isMx b.format
  let seg := b.elems / Nat.max 1 n
  (b.disc ≠ 2 || ((b.format = 3 || b.format = 4 || b.format = 7) && b.reducer = 0 && b.op ≤ 2)) &&
  (!(b.op = 1 || b.op = 4) || (b.root < n && !vacant.contains b.root)) &&
  (!(b.op = 2 || b.op = 3) || b.elems % Nat.max 1 n = 0) &&
  (!mx || (b.elems % 32 = 0 && (!(b.op = 2 || b.op = 3) || seg % 32 = 0) && b.reducer ≠ 1 && b.reducer ≠ 2 && b.op ≠ 6)) &&
  (b.op ≠ 7 || b.format ≤ 2) && (!(b.op = 6 || b.op = 7) || 8 + b.elems * fmtBytes b.format ≤ b.record) && !(b.disc = 2 && b.stages = 2 && 1048576 < b.chunk * b.x) && b.chunks ≤ 2 ^ 24

/-- What DISPATCH and COMBINE ask of the chunks in flight (09 R224): every contribution chunk is open from the start, and the pair table,
the bitmaps and the pad record, or the parked records, fit. -/
def Binding.tokensFit (b : Binding) (n : Nat) : Bool :=
  let room := b.inflight * b.chunk
  b.capacity % 16 = 0 &&
  (if b.op = 6 then b.tokensMax * b.record ≤ room && 12 * n * b.capacity + n * b.mapBytes + b.record ≤ room
   else b.capacity * b.record ≤ room && (b.disc ≠ 1 || n * b.capacity * b.record ≤ room))

/-- What a library program asks of its binding (09 R218, R219, R224, R228 to R230; 10 R250). -/
def State.libraryAsks (s : State) (cls : Nat) (b : Binding) (n : Nat) : Bool :=
  let w := fmtBytes b.format
  let seg := b.elems / Nat.max 1 n
  let p (i : Nat) : Nat := b.params.getD i 0
  (!(b.op = 2 || b.op = 3) || (if isMx b.format then seg % 2048 = 0 else seg * w % 64 = 0)) &&
  (!(cls = 8 || cls = 9) || b.tokensFit n) &&
  (if cls = 9 then
     match (s.slot b.pair).bound with
     | some pb => pb.op = 6 && (s.slot b.pair).helper.isNone && p 0 = (s.slot b.pair).redBase && p 1 = (s.slot b.pair).stgBase + stgOffset &&
         (b.params.drop 2).all (· = 0)
     | none => false
   else if cls = 10 || cls = 11 then
     let e := b.chunk / w
     b.format ≤ 2 && !b.retain && e ≤ 65536 && p 0 % 2 ^ 48 % 64 = 0 && p 1 % 2 ^ 48 % 64 = 0 && p 1 / 2 ^ 48 % 16 ≤ 6 &&
     p 2 % 2 ^ 48 % 64 = 0 && (b.params.drop 3).all (· = 0) && stateBlock cls e ≤ (n - 1) * b.chunk &&
     !(b.imageEn && isMx b.imageFmt && e % 2048 ≠ 0)
   else b.params.all (· = 0))

/-- Whether a program has an INBOX channel (09 R216; 08 R208). -/
def State.hasInbox (s : State) (cls : Nat) : Bool :=
  if cls ≤ 11 then cls = 4 || cls = 9
  else match s.program? cls with
    | some p => p.channels.any fun e => BitVec.extractLsb' 0 2 e = 1 && e.getLsbD 4
    | none => false

/-- The slots that the OUT PEER channels of a program name: module, slot, class (08 R208, R210). -/
def State.peerSlots (s : State) (b : Binding) : List (Nat × Nat × Nat) :=
  match s.program? b.program with
  | none => []
  | some p => (p.channels.filter fun e => BitVec.extractLsb' 0 2 e = 2 && BitVec.extractLsb' 2 2 e = 2).map fun e =>
      let v := b.params.getD (BitVec.extractLsb' 8 8 e).toNat 0
      (v % 2 ^ 12, v / 2 ^ 16 % 2 ^ 12, (BitVec.extractLsb' 16 16 e).toNat)

/-- The PEER channels of a program reach slots bound to programs of the classes they name, where this module holds those slots (08
R210). [DEDUCED log 76] -/
def State.peersBound (s : State) (b : Binding) : Bool :=
  (s.peerSlots b).all fun e => e.1 ≠ s.self || (s.slot e.2.1).bound.any fun x => x.program = e.2.2

/-- Whether a quadrant refuses every binding (07 R182; 08 R215; 17 R423). -/
def State.collOut (s : State) (q : Nat) : Bool :=
  s.outOfService.contains q || s.flag F.pipStatOutOfService q || s.cdcOut.contains q

/-- Whether a slot number is held otherwise: as a helper slot of another home, or, for a peer's request, bound here. -/
def State.slotHeld (s : State) (slot : Nat) (home : Option Nat) : Bool :=
  match (s.slot slot).helper with
  | some h => home ≠ some h
  | none => home.isSome && (s.slot slot).bound.isSome

/-- The status of a binding: the checks of R103 in order, then the reservations of R105. [DEDUCED log 74] -/
def State.bindCheck (s : State) (r : BindReq) (home : Option Nat) : Nat × Option (Binding × Group × Nat × Nat) :=
  let slot := r.slot
  if s.insts.any fun e => e.1 / 65536 = slot then (St.running, none)
  else
    match s.groups.find r.b.group with
    | none => (St.groupInvalid, none)
    | some g =>
      let n := g.count
      if !(s.groupRows g).contains s.group then (St.groupInvalid, none)
      else if !r.ok || !bindFields r.b n g.vacant then (St.bindingInvalid, none)
      else
        match (if r.b.program = 0 then defaultProgram r.b else some r.b.program) with
        | none => (St.programInvalid, none)
        | some cls =>
          let b := { r.b with program := cls }
          let lib : Bool := decide (cls ≤ 11)
          if !lib && (s.program? cls).isNone then (St.programInvalid, none)
          else if lib && (!libraryRuns cls b || !s.libraryAsks cls b n) then (St.bindingInvalid, none)
          else if !s.peersBound b then (St.bindingInvalid, none)
          else if s.slotHeld slot home then (St.slotConflict, none)
          else if s.collOut (slot / 1024) || 1024 < b.inflight * n then (St.noResources, none)
          else
            let ranks := if home.isSome then ((List.range n).filter fun k => s.rankEp g k / 32 = s.group).length else n
            match s.reserveFor (slot / 1024) b ranks ((s.boundIn (slot / 1024)).filter (· ≠ slot)) with
            | none => (St.noResources, none)
            | some (rb, tb) => (St.ok, some (b, g, rb, tb))

/-- Install a binding: the slot's old one and its records end on the same commit. -/
def State.install (s : State) (slot : Nat) (home : Option Nat) (b : Binding) (g : Group) (rb tb : Nat) : State :=
  let mark := s.verifySlices.contains g.dfn.slice
  let s := { s.putSlot slot { bound := some b, helper := home, redBase := rb, stgBase := tb, bindIdx := s.bindCount, base := b.step0,
                              hash := descHashOf b g.gepoch, verify := mark } with bindCount := s.bindCount + 1 }
  match home with
  | some _ => s
  | none => s.report (.binding s.self slot b.group true)

/-- The 32 bytes of R323. -/
def State.bindAnswer (s : State) (slot : Nat) : List Byte :=
  let st := s.slot slot
  match (if st.closing then none else s.bindingOf slot) with
  | some (b, g) =>
    leBytes 4 st.redBase ++ leBytes 4 (st.stgBase + stgOffset) ++ leBytes 1 (if s.imposes slot b g then 1 else 0) ++ leBytes 7 0 ++
      leBytes 4 st.hash.toNat ++ leBytes 12 0
  | none => leBytes 8 0 ++ leBytes 1 2 ++ leBytes 23 0

/-- The helpers of a slot's binding, where this module is its home. -/
def State.slotHelpers (s : State) (slot : Nat) : List Nat :=
  match s.bindingOf slot with
  | some (b, g) => if b.stages = 2 && !s.isHelper slot then s.helpersOf g else []
  | none => []

/-- The modules that a home asks before it binds: its helpers, for their own slot of that number, and those whose slots the PEER channels
name, for the programs bound there. -/
def State.bindAsks (s : State) (b : Binding) (g : Group) : List Nat :=
  (if b.stages = 2 then s.helpersOf g else []) ++
    (((s.peerSlots b).filter fun e => e.1 ≠ s.self).map fun e => 4096 + e.1).eraseDups

/-- Pass the request on to the helpers, and ask for the peers' slots (SLOT_QUERY). [DESIGN CHOICE log 75] -/
def State.askBind (s : State) (mb : MbxRef) (req : Request) (slot : Nat) (b : Binding) (g : Group) : State :=
  let s := { s with bindWaits := s.bindWaits.insert slot { mb := mb, req := req, waiting := s.bindAsks b g, accepted := [] } }
  let s := if b.stages = 2 then (s.helpersOf g).foldl (fun s m => s.emit (.peerRequest m req)) s else s
  ((s.peerSlots b).filter fun e => e.1 ≠ s.self).foldl (fun s e => s.emit (.peerRequest e.1
    { opcode := 0x0405, verMaj := 1, verMin := 0, token := 0, payload := leBytes 2 e.2.1 })) s

/-- SLOT_BIND. A peer's request makes this module a helper of that peer's binding, and it answers its home (05 R105, R116). A home whose
binding concerns other modules binds once they all have answered. [DESIGN CHOICE log 75] -/
def execSlotBind (mb : MbxRef) (s : State) : Host.Outcome State Fault Refusal :=
  .next (s.rcs mb 0x0403 fun s x =>
    let r := bindReq x.req.payload
    let home : Option Nat := if x.role = .peer then some x.session else none
    let answer (s : State) (st : Nat) : State := match home with
      | some h => s.emit (.helper h { module := s.self, slot := r.slot, step := 0, msg := .bound st })
      | none => s
    match s.bindCheck r home with
    | (_, some (b, g, rb, tb)) =>
      if home.isNone && (s.bindWaits.find r.slot).isSome then s.complete mb St.running
      else if home.isNone && s.bindAsks b g ≠ [] then s.askBind mb x.req r.slot b g
      else
        let s := (if home.isNone then s.unbindAt r.slot (s.slotHelpers r.slot) else s).install r.slot home b g rb tb
        (answer s St.ok).complete mb St.ok (s.bindAnswer r.slot)
    | (st, none) => (answer s st).complete mb st)

/-- SLOT_UNBIND: refused while the slot has a live instance; a slot not bound here changes nothing (R106). -/
def execSlotUnbind (mb : MbxRef) (s : State) : Host.Outcome State Fault Refusal :=
  .next (s.rcs mb 0x0404 fun s x =>
    let slot := fieldAt x.req.payload 0 2 % 4096
    let mine : Bool := match (s.slot slot).helper with
      | some h => x.role = .peer && x.session = h
      | none => true
    match s.bindingOf slot with
    | none => s.complete mb St.ok
    | some (b, _) =>
      if !mine then s.complete mb St.ok
      else if s.insts.any fun e => e.1 / 65536 = slot then s.complete mb St.running
      else
        let s := s.unbindAt slot (s.slotHelpers slot)
        (if s.isHelper slot then s.putSlot slot {} else (s.putSlot slot {}).report (.binding s.self slot b.group false)).complete mb St.ok)

/-- A binding in the layout of R323, without DEFAULTS. [DESIGN CHOICE log 17] -/
def bindBytes (slot : Nat) (b : Binding) : List Byte :=
  leBytes 2 slot ++ leBytes 2 b.group ++ leBytes 1 (b.op + 16 * b.reducer) ++
  leBytes 1 (b.format + 16 * b.disc + 64 * (b.stages - 1) + (if b.retain then 128 else 0)) ++
  leBytes 1 (b.inflight - 1 + 16 * (b.depth - 1) + 64 * b.priority) ++
  leBytes 1 ((if b.intSat then 1 else 0) + (if b.e5m2Inf then 2 else 0)) ++ leBytes 2 b.program ++
  leBytes 2 (if b.op = 1 || b.op = 4 then b.root else 0) ++ leBytes 1 (Nat.log2 b.chunk) ++ leBytes 1 0 ++ leBytes 2 0 ++ leBytes 8 b.elems ++
  leBytes 4 b.clock ++ leBytes 2 b.capacity ++ leBytes 2 b.pair ++ leBytes 4 b.tokensMax ++ leBytes 2 b.record ++ leBytes 4 b.outRows ++
  leBytes 2 b.step0 ++ leBytes 4 0 ++ (List.range 8).flatMap fun i => leBytes 8 (b.params.getD i 0)

/-- The helpers that accepted a binding which is refused after all: each takes back the binding that stays in force, or none. -/
def State.undoBind (s : State) (slot : Nat) (w : BindWait) : State :=
  let old := s.slotHelpers slot
  let s := s.unbindAt slot (w.accepted.filter fun m => !old.contains m)
  match (s.slot slot).bound with
  | none => s
  | some b => (w.accepted.filter old.contains).foldl (fun s m => s.emit (.peerRequest m
      { opcode := 0x0403, verMaj := 1, verMin := 0, token := 0, payload := bindBytes slot b })) s

/-- Every module has answered: the binding is made, where all accepted and it still passes here, in place of the old one; else it is
refused, and the old one stays (05 R103). -/
def State.bindFinish (s : State) (slot : Nat) (w : BindWait) : State :=
  let s := { s with bindWaits := s.bindWaits.erase slot }
  match w.refused with
  | some st => (s.undoBind slot w).complete w.mb st
  | none =>
    match s.bindCheck (bindReq w.req.payload) none with
    | (_, some (b, g, rb, tb)) =>
      let s := s.unbindAt slot ((s.slotHelpers slot).filter fun m => !w.accepted.contains m)
      let s := s.install slot none b g rb tb
      s.complete w.mb St.ok (s.bindAnswer slot)
    | (st, none) => (s.undoBind slot w).complete w.mb st

/-- A module answers a home's question before a binding: a helper of its slot (05 R103), or the module of a peer's slot (08 R210; BINDING_INVALID
where another program is bound there). [DESIGN CHOICE log 48, 75] -/
def State.takeBound (s : State) (slot who status : Nat) : State :=
  match s.bindWaits.find slot with
  | none => s
  | some w =>
    if !w.waiting.contains who then s
    else
      let ok : Bool := status = St.ok
      let w := { w with waiting := w.waiting.erase who
                        accepted := if ok && who < 4096 then w.accepted ++ [who] else w.accepted
                        refused := if ok then w.refused else w.refused.orElse fun _ => some status }
      if w.waiting = [] then s.bindFinish slot w else { s with bindWaits := s.bindWaits.insert slot w }

/-- SLOT_QUERY: the binding, the 32 bytes of R323, BASE. -/
def execSlotQuery (mb : MbxRef) (s : State) : Host.Outcome State Fault Refusal :=
  .next (s.rcs mb 0x0405 fun s x =>
    let slot := fieldAt x.req.payload 0 2 % 4096
    s.complete mb St.ok (match (if (s.slot slot).closing then none else s.bindingOf slot) with
      | some (b, _) => bindBytes slot b ++ s.bindAnswer slot ++ leBytes 2 (s.slot slot).base
      | none => leBytes 112 0 ++ s.bindAnswer slot ++ leBytes 2 0))

/-- The code of an instance's state: 0 FREE, 1 OPEN, 2 RUNNING, 3 VERIFYING, 4 ENDING, 5 ENDED, in the order of 05 R119. [DEDUCED log 77] -/
def instCode : InstState → Nat
  | .open_ => 1
  | .running => 2
  | .verifying => 3
  | .ending => 4

/-- INSTANCE_QUERY: state, status, flags, resume chunk, user word, dropped tokens. -/
def execInstanceQuery (mb : MbxRef) (s : State) : Host.Outcome State Fault Refusal :=
  .next (s.rcs mb 0x0406 fun s x =>
    let slot := fieldAt x.req.payload 0 2 % 4096
    let step := fieldAt x.req.payload 2 2
    let rsp (st status flags resume user dropped : Nat) : List Byte :=
      leBytes 1 st ++ leBytes 2 status ++ leBytes 2 flags ++ leBytes 8 resume ++ leBytes 8 user ++ leBytes 4 dropped
    let free := rsp 0 0 0 0 0 0
    s.complete mb St.ok (if (s.slot slot).bound.isNone then free
      else match s.inst? slot step with
        | some i => rsp (instCode i.state) (i.status.getD 0) i.flags.toNat i.resume i.user i.dropped
        | none => match (s.slot slot).ended.find? fun e => e.step = step with
          | some e => rsp 5 e.status e.flags.toNat e.resume e.user e.dropped
          | none => free))

/-- INSTANCE_ABORT (05 R136): a live instance ends ABORTED, and the command completes when it reaches ENDED (kind 0 of
`waitCmds`); one of the last 64 ended steps answers its status; any other step, or a slot not homed here, FIELD_INVALID. [DEDUCED log 29] -/
def State.instanceAbort (s : State) (mb : MbxRef) : State :=
  s.rcs mb 0x0407 fun s x =>
    let slot := fieldAt x.req.payload 0 2 % 4096
    let step := fieldAt x.req.payload 2 2
    if (s.slot slot).bound.isNone || s.isHelper slot then s.complete mb St.field
    else if (s.inst? slot step).isSome then
      { s.endInst slot step 0x0107 0x1FF 0 0 with waitCmds := s.waitCmds ++ [(mb, 0, 65536 * slot + step)] }
    else
      match (s.slot slot).ended.find? fun e => e.step = step with
      | some e => s.complete mb St.ok (leBytes 2 e.status)
      | none => s.complete mb St.field

def execInstanceAbort (mb : MbxRef) (s : State) : Host.Outcome State Fault Refusal := .next (s.instanceAbort mb).settle

/-! ## Staged transfers (R321) -/

/-- The result of a piece: refused with a status, taken, or FINAL with the whole. -/
inductive Piece where
  | refused (status : Nat)
  | taken
  | whole (bytes : List Byte)
deriving DecidableEq, Repr

/-- Take a piece of a staged transfer of a kind (0 plan, 1 program, 2 firmware). -/
def State.stagePiece (s : State) (kind : Nat) (mb : MbxRef) (x : MbxSt) : State × Piece :=
  let off := fieldAt x.req.payload 0 4
  let total := fieldAt x.req.payload 4 4
  let final := fieldAt x.req.payload 8 1 % 2 = 1
  let data := x.req.payload.drop 16
  let open? := (s.stages.find kind).filter fun b => !b.final
  let foreign := open?.any fun b => requester b.owner b.ownerSession ≠ requester mb x.session
  let drop : State := { s with stages := s.stages.erase kind }
  if foreign then (s, .refused St.running)
  else
    let have_ : List Byte := if off = 0 then [] else match open? with | some b => b.data | none => []
    let good : Bool := (off = 0 || open?.any fun b => b.total = total && b.data.length = off) && off + data.length ≤ total &&
      (!final || off + data.length = total)
    if !good then (drop, .refused St.length)
    else
      let all := have_ ++ data
      let b : StageBuf := { owner := mb, ownerSession := x.session, total := total, data := all, final := final }
      ({ s with stages := s.stages.insert kind b }, if final then .whole all else .taken)

/-- STAGED_TRANSFER_DISCARD: no piece for 10 s. -/
def execStagedTransferDiscard (kind : Staged) (s : State) : Host.Outcome State Fault Refusal :=
  .next (let k := match kind with | .plan => 0 | .program => 1 | .firmware => 2
    match s.stages.find k with
    | some b => if b.final then s else { s with stages := s.stages.erase k }
    | none => s)

/-! ## Programs (08 R207 to R211) -/

/-- The image's fields, where its lengths agree with R208. [DEDUCED log 72] -/
def programOf (im : List Byte) : Option Program :=
  let n := fieldAt im 8 4
  let d := fieldAt im 12 4
  let signed : Bool := (fieldAt im 5 1).testBit 1
  if n = 0 || 16384 < n || 65536 < d || d % 64 ≠ 0 || im.length ≠ 256 + 4 * n + d + (if signed then 96 else 0) then none
  else some { cls := fieldAt im 6 2, version := fieldAt im 20 4, flags := fieldAt im 5 1, entry := fieldAt im 16 4
              code := (List.range n).map fun i => BitVec.ofNat 32 (fieldAt im (256 + 4 * i) 4)
              codeLen := n, data := sliceAt im (256 + 4 * n) d
              channels := (List.range 16).map fun i => BitVec.ofNat 32 (fieldAt im (24 + 4 * i) 4)
              unchecked := false, digest := sha384 (im.take (256 + 4 * n + d)) }

/-- The target offset of a branch or JAL, in instructions. -/
def branchOff : Instr → Option Int
  | .beq _ _ _ o | .bne _ _ _ o | .blt _ _ _ o | .bge _ _ _ o | .bltu _ _ _ o | .bgeu _ _ _ o => some o.toInt
  | .jal _ o => some o.toInt
  | _ => none

/-- Whether an instruction may be the last of a program: IDONE, IABORT, RET, or a branch always taken. [DEDUCED log 73] -/
def mayEnd : Instr → Bool
  | .idone _ | .iabort _ _ | .ret _ | .jal _ _ => true
  | .beq _ a b _ | .bge _ a b _ | .bgeu _ a b _ => a = b
  | _ => false

/-- The channel that an MWAIT or MRECV names. -/
def recvChan : Instr → Option Nat
  | .mwait _ _ _ _ c _ => some c.toNat
  | .mrecv _ _ c => some c.toNat
  | _ => none

/-- Whether an instruction is an MWAIT on one PEER message by its sender, a form that R198 has the loader refuse. -/
def peerMode (chans : List (BitVec 32)) : Instr → Bool
  | .mwait _ _ _ _ c m => m && BitVec.extractLsb' 2 2 (chans.getD c.toNat 0) = 2
  | _ => false

/-- The scalar values that the loader traces in straight-line code: constants built from s0 by the instructions below; after any other
instruction but MSEND, none. [DEDUCED log 73] -/
def traceRegs (r : Tab Word) : Instr → Tab Word
  | .lui _ d i => put d (some (sext16 i <<< 16))
  | .addi _ d a i => put d ((get a).map (· + sext16 i))
  | .ori _ d a i => put d ((get a).map (· ||| i.setWidth 64))
  | .slli _ d a n => put d ((get a).map fun x : Word => x <<< n.toNat)
  | .add _ d a b => put d ((get a).bind fun x => (get b).map (x + ·))
  | .or _ d a b => put d ((get a).bind fun x => (get b).map (x ||| ·))
  | .msend _ _ _ => r
  | _ => []
where
  get (a : Reg5) : Option Word := if a = 0 then some 0 else r.find a.toNat
  put (d : Reg5) (v : Option Word) : Tab Word := match v with
    | some x => if d = 0 then r else r.insert d.toNat x
    | none => r.erase d.toNat

/-- The targets of the branches and JALs of some code. -/
def targetsOf (is : List (Option Instr × Nat)) : List Int :=
  is.filterMap fun e => (e.1.bind branchOff).map fun o => (e.2 : Int) + o

/-- Whether every KIND 3 send that can be traced names an OUT channel (R209, detail 3). -/
def sendsTraced (chans : List (BitVec 32)) (entry : Nat) (is : List (Option Instr × Nat)) : Bool :=
  let starts := (entry : Int) :: targetsOf is
  (is.foldl (fun (a : Tab Word × Bool) e =>
    let r : Tab Word := if starts.contains (e.2 : Int) then [] else a.1
    let good : Bool := match e.1 with
      | some (.msend _ _ b) => match traceRegs.get r b with
        | some d => bitsOf d 9 2 ≠ 3 || chanDirOf chans (bitsOf d 12 4) = 2
        | none => true
      | _ => true
    ((e.1.map (traceRegs r)).getD [], a.2 && good)) ([], true)).2
where
  chanDirOf (chans : List (BitVec 32)) (c : Nat) : Nat := (BitVec.extractLsb' 0 2 (chans.getD c 0)).toNat

/-- DIR, SOURCE and class of a channel entry. -/
def chanDir (e : BitVec 32) : Nat := (BitVec.extractLsb' 0 2 e).toNat
def chanSrc (e : BitVec 32) : Nat := (BitVec.extractLsb' 2 2 e).toNat
def chanCls (e : BitVec 32) : Nat := (BitVec.extractLsb' 16 16 e).toNat

/-- The edges that a program's class has in the message-dependency graph (R210). [DEDUCED log 73] -/
def Program.edges (p : Program) : List Nat :=
  (p.channels.filter fun e => chanDir e = 1 && chanSrc e = 2).map chanCls

/-- The classes reached from some classes in at most `n` steps. -/
def reach (ps : List Program) (from_ : List Nat) : Nat → List Nat
  | 0 => from_
  | n + 1 => reach ps ((from_ ++ (ps.filter fun p => from_.contains p.cls).flatMap Program.edges).eraseDups) n

/-- Whether the graph of some programs has a cycle. [DEDUCED log 73] -/
def hasCycle (ps : List Program) : Bool := ps.any fun p => (reach ps p.edges ps.length).contains p.cls

/-- The loader's detail for a program, none where it passes (R209); `override` skips detail 4. [DEDUCED log 72] -/
def State.loaderDetail (s : State) (im : List Byte) (p : Program) (override : Bool) : Option Nat :=
  let x : CtxId := { core := 0, ctx := 0 }
  let is := p.code.map (xoDecode x)
  let n := p.codeLen
  let inside (e : Option Instr × Nat) : Bool := match e.1.bind branchOff with
    | some o => decide (0 ≤ (e.2 : Int) + o) && decide ((e.2 : Int) + o < n)
    | none => true
  let chanOk (i : Option Instr) : Bool := match i.bind recvChan with
    | some c => chanDir (p.channels.getD c 0) = 1
    | none => true
  let signed : Bool := p.flags.testBit 1
  if is.any Option.isNone then some 1
  else if !is.zipIdx.all inside || n ≤ p.entry || !(is.getLastD none).any mayEnd then some 2
  else if !is.all chanOk || p.edges.any (· = 0) || is.any (fun i => i.any (peerMode p.channels)) ||
      !sendsTraced p.channels p.entry is.zipIdx then some 3
  else if !override && hasCycle (p :: s.programs) then some 4
  else if s.plan.signedRequired && !signed then some 6
  else if signed && !ecdsaVerify s.trust.ownerKey p.digest (im.drop (256 + 4 * n + p.data.length)) then some 7
  else if p.cls ≤ 0xFF || s.programs.any fun q => q.cls = p.cls then some 8
  else none

/-- Instructions of code that loaded programs take, the library among them (R207; 09 R216). -/
def State.codeUsed (s : State) : Nat := 2862 + (s.programs.map fun p => p.codeLen).sum

/-- Extend the program measurement (R211). [DEDUCED log 127] -/
def State.measureProgram (s : State) (p : Program) (version : Nat) : State :=
  { s with trust := { s.trust with measurement := measure s.trust.measurement p.digest p.cls version p.unchecked
                                   overridden := s.trust.overridden || p.unchecked } }

/-- PROGRAM_LOAD: a piece, and on FINAL the loader's checks. The handle is the class. [DEDUCED log 72] -/
def execProgramLoad (mb : MbxRef) (s : State) : Host.Outcome State Fault Refusal :=
  .next (s.rcs mb 0x0408 fun s x =>
    let override : Bool := (fieldAt x.req.payload 8 1).testBit 1
    if override && !s.injectionOpen x.session then s.complete mb St.locked
    else
      match s.stagePiece 1 mb x with
      | (s, .refused st) => s.complete mb st
      | (s, .taken) => s.complete mb St.ok
      | (s, .whole im) =>
        let s := { s with stages := s.stages.erase 1 }
        if fieldAt im 0 4 ≠ 0x4F534F58 || fieldAt im 4 1 ≠ 0 then s.complete mb St.programInvalid [] 1
        else
          match programOf im with
          | none => s.complete mb St.programInvalid [] 5
          | some p =>
            match s.loaderDetail im p override with
            | some d => s.complete mb St.programInvalid [] d
            | none =>
              if 16384 < s.codeUsed + p.codeLen then s.complete mb St.noResources
              else
                let p := { p with unchecked := override }
                (({ s with programs := s.programs ++ [p] }).measureProgram p p.version).complete mb St.ok (leBytes 2 p.cls))

/-- PROGRAM_UNLOAD: refused for a library program and while a slot is bound to the program. -/
def execProgramUnload (mb : MbxRef) (s : State) : Host.Outcome State Fault Refusal :=
  .next (s.rcs mb 0x0409 fun s x =>
    let h := fieldAt x.req.payload 0 2
    if 1 ≤ h && h ≤ 11 then s.complete mb St.programResident
    else
      match s.program? h with
      | none => s.complete mb St.field
      | some p =>
        if s.slots.any fun e => e.2.bound.any fun b => b.program = h then s.complete mb St.running
        else (({ s with programs := s.programs.filter fun q => q.cls ≠ h }).measureProgram p 0xFFFFFFFF).complete mb St.ok)

/-- PROGRAM_LIST: handle, CLASS, VERSION, flags of each program, the library first. -/
def execProgramList (mb : MbxRef) (s : State) : Host.Outcome State Fault Refusal :=
  .next (s.rcs mb 0x040A fun s _ =>
    let lib := (List.range 11).flatMap fun i => leBytes 2 (i + 1) ++ leBytes 2 (i + 1) ++ leBytes 4 s.trust.libVer ++ leBytes 1 1
    s.complete mb St.ok (lib ++ s.programs.flatMap fun p => leBytes 2 p.cls ++ leBytes 2 p.cls ++ leBytes 4 p.version ++ leBytes 1 p.flags))

end Sys2Proof.Machine
end

