-- ==== Sys2Proof/Machine/RcsMem.lean ====
section
/-! DEFINITION. Fabric memory and stream commands (13 R320; 10 R247, R253, R255, R256, R260). -/

namespace Sys2Proof.Machine

/-! ## Regions (10 R247) -/

/-- A region entry from its 16 bytes. -/
def regionAt (p : List Byte) : Region :=
  { base := fieldAt p 0 4 % 2 ^ 29, size := fieldAt p 4 4 % 2 ^ 29, slice := fieldAt p 8 1, mode := fieldAt p 9 1 % 8 }

/-- [DESIGN CHOICE log 17] -/
def regionBytes (r : Region) : List Byte :=
  leBytes 4 r.base ++ leBytes 4 r.size ++ leBytes 1 r.slice ++ leBytes 1 r.mode ++ leBytes 6 0

/-- Whether a region entry is valid. -/
def Region.valid (r : Region) : Bool := r.mode.testBit 2

/-- Whether two regions share a unit. -/
def Region.meets (a b : Region) : Bool := a.base < b.base + b.size && b.base < a.base + a.size

/-- Whether entry `i` may be written: a valid one has a slice and a length, ends at or below MEMC_TOP and meets no other
valid entry of the shadow table. -/
def State.regionFits (s : State) (i : Nat) (r : Region) : Bool :=
  !r.valid || (r.slice ≠ 0 && 1 ≤ r.size && (r.base + r.size) * 2 ^ 19 ≤ s.memTop &&
    s.shadow.regions.all fun e => e.1 = i || !e.2.valid || !r.meets e.2)

/-- Write a region entry into the shadow. -/
def State.putRegion (s : State) (i : Nat) (r : Region) : State :=
  { s with shadow := { s.shadow with regions := s.shadow.regions.setD i {} r } }.showPending

def execRegionWrite (mb : MbxRef) (s : State) : Host.Outcome State Fault Refusal :=
  .next (s.rcs mb 0x0500 fun s x =>
    let i := fieldAt x.req.payload 0 1
    let r := regionAt (x.req.payload.drop 8)
    if s.regionFits i r then (s.putRegion i r).complete mb St.ok else s.complete mb St.regionInvalid)

/-- REGION_READ: entries of the active table. -/
def execRegionRead (mb : MbxRef) (s : State) : Host.Outcome State Fault Refusal :=
  .next (s.rcs mb 0x0501 fun s x =>
    let a := fieldAt x.req.payload 0 1
    let n := fieldAt x.req.payload 1 1
    if 256 < a + n then s.complete mb St.field
    else s.complete mb St.ok ((List.range n).flatMap fun k => regionBytes (s.tables.regions.getD (a + k) {})))

/-! ## Streams (10 R253, R255) -/

/-- A stream entry from its 64 bytes. -/
def streamAt (p : List Byte) : StreamEntry :=
  { src := fieldAt p 0 6, sfmt := fieldAt p 6 1 % 16, dfmt := fieldAt p 6 1 / 16, valid := fieldAt p 7 1 % 2 = 1
    irq := (fieldAt p 7 1).testBit 1, elems := fieldAt p 8 5, start := fieldAt p 16 8, doff := fieldAt p 24 8
    dst := fieldAt p 32 2 % 512, slice := fieldAt p 34 1, cast := (fieldAt p 35 1).testBit 0, caxis := (fieldAt p 35 1).testBit 1
    cmask := fieldAt p 36 4 % (if (fieldAt p 35 1).testBit 1 then 2 ^ 16 else 2 ^ 32), rate := fieldAt p 40 2
    gateSlot := fieldAt p 42 2 % 4096, gateEn := (fieldAt p 42 2).testBit 15
    gateStep := fieldAt p 44 2, blkElems := fieldAt p 48 4 % 2 ^ 17, blkStride := fieldAt p 52 4 % 2 ^ 24 }

/-- The leaves of an entry: its destination, or what its cast reaches (02 R52). -/
def StreamEntry.leaves (e : StreamEntry) : List Nat :=
  if !e.cast then [e.dst]
  else if e.caxis then ((List.range 16).filter e.cmask.testBit).map fun g => 32 * g + e.dst % 32
  else ((List.range 32).filter e.cmask.testBit).map fun m => e.dst / 32 * 32 + m

/-- Whether an entry's gate fits the binding of its slot. -/
def State.gateFits (s : State) (e : StreamEntry) : Bool :=
  !e.gateEn ||
  match (s.slot e.gateSlot).bound with
  | none => false
  | some b =>
    let n := b.chunk / fmtBytes b.format
    let sb := stateBlock b.program n
    let st := b.params.getD 0 0 % 2 ^ 48
    (b.program = 10 || b.program = 11) && (s.slot e.gateSlot).helper.isNone && e.blkElems = n && e.blkStride = sb && st ≤ e.src &&
    (e.src - st) % sb = 0

/-- Whether an entry is well formed (R253, R255). [DEDUCED log 78] -/
def State.streamOk (s : State) (e : StreamEntry) : Bool :=
  e.sfmt ≤ 7 && e.dfmt ≤ 7 && 1 ≤ e.elems && (!(isMx e.sfmt || isMx e.dfmt) || e.elems % 32 = 0) &&
  (e.blkElems = 0 || (e.sfmt ≤ 2 && 64 + e.blkElems * fmtBytes e.sfmt ≤ e.blkStride)) &&
  e.leaves.all (s.epInSlice e.slice) && s.gateFits e

/-- Whether the source bytes lie in one readable region of the entry's slice (R248). -/
def State.sourceOk (s : State) (e : StreamEntry) : Bool :=
  let rs := e.ranges 0 e.elems
  let top := rs.foldl (fun n r => Nat.max n (r.1 + r.2)) e.src
  s.regionOk e.slice e.src (top - e.src) false

/-- STREAM_WRITE: a valid entry is checked; the entry goes to the shadow table with the binding its gate was checked against.
An entry with VALID = 0 asks for no check. [DEDUCED log 78] -/
def execStreamWrite (mb : MbxRef) (s : State) : Host.Outcome State Fault Refusal :=
  .next (s.rcs mb 0x0502 fun s x =>
    let id := fieldAt x.req.payload 0 2
    let e := streamAt (x.req.payload.drop 8)
    if 1024 ≤ id then s.complete mb St.field
    else if e.valid && !s.streamOk e then s.complete mb St.streamInvalid
    else if e.valid && !s.sourceOk e then s.complete mb St.accessDenied
    else
      (s.putStreamShadowOf id { e with gateBind := if e.gateEn then (s.slot e.gateSlot).bindIdx else 0 }).complete mb St.ok)

/-- STREAM_EPOCH: the switch waits for T_S; a second one is refused until then. -/
def execStreamEpoch (mb : MbxRef) (s : State) : Host.Outcome State Fault Refusal :=
  .next (s.rcs mb 0x0503 fun s x =>
    if s.streamSwitch.isSome then s.complete mb St.epochPending
    else
      let t := fieldAt x.req.payload 0 8
      let s := s.each [0, 1, 2, 3] fun s q => (s.wr F.strmEpochPending 1 q).wr F.strmEpochTsLow (t % 2 ^ 32) q
      { s with streamSwitch := some t }.complete mb St.ok (leBytes 2 ((s.sepoch + 1) % 65536)))

/-- STREAM_QUERY: status, SEPOCH, packets sent and acknowledged, LEAF_STATUS, [0] LATE and [1] POISON_SENT. -/
def execStreamQuery (mb : MbxRef) (s : State) : Host.Outcome State Fault Refusal :=
  .next (s.rcs mb 0x0504 fun s x =>
    let id := fieldAt x.req.payload 0 2
    if 1024 ≤ id then s.complete mb St.field
    else
      let r := s.run (s.runKey id)
      s.complete mb St.ok (leBytes 1 r.status ++ leBytes 2 s.sepoch ++ leBytes 4 r.sent ++ leBytes 4 r.acked ++ leBytes 8 r.leaf ++
        leBytes 1 ((if r.late then 1 else 0) + (if r.poisonSent then 2 else 0))))

end Sys2Proof.Machine
end

