-- ==== Sys2Proof/Machine/Trust.lean ====
section
/-! DEFINITION. The chain of trust (16 R401 to R411): firmware images and recovery, SPDM sessions, test unlock, owner keys. -/

namespace Sys2Proof.Machine

/-! ## Images (R402, R403) -/

/-- The checks of R403 in order, all but the SVN: none where they pass, else the status. [DESIGN CHOICE log 11; DEDUCED log 128] -/
def State.imageFails (s : State) (im : List Byte) : Option Nat :=
  let len := fieldAt im 16 4
  let head := im.take 72
  if fieldAt im 0 4 ≠ 0x57465641 || fieldAt im 4 1 ≠ 0 || 33554432 < len || im.length ≠ 4096 + len then some St.signature
  else if sha384 (Config.avwynKey im) ≠ s.trust.rootHash || !ecdsaOk (Config.avwynKey im) head (sliceAt im 72 96) then
    some St.signature
  else if (match s.ownerSlot with
      | some k => !(fieldAt im 5 1).testBit 0 || (sha384 (Config.imageOwnerKey im)).toNat ≠ s.trust.ownerHash.getD k 0 ||
          !ecdsaOk (Config.imageOwnerKey im) head (sliceAt im 168 96)
      | none => false) then some St.signature
  else if fieldAt im 12 1 < s.trust.svnFuses then some St.rollback
  else if fieldAt im 24 48 ≠ (sha384 (im.drop 4096)).toNat then some St.signature
  else none

/-- The image that runs after the next boot of the controller: its VERSION, SVN and library version. [DEDUCED log 128] -/
def State.bootImage (s : State) : State :=
  let im := s.trust.image
  if im = [] then s
  else { s with trust := { s.trust with version := fieldAt im 8 4, svn := fieldAt im 12 1, libVer := fieldAt im 20 4 } }

/-- FW_STAGE: a piece for the staging area; on FINAL the image's SHA-384 (R406). -/
def execFwStage (mb : MbxRef) (s : State) : Host.Outcome State Fault Refusal :=
  .next (s.rcs mb 0x0A00 fun s x =>
    if s.trust.activating then s.complete mb St.running
    else
      match s.stagePiece 2 mb x with
      | (s, .refused st) => s.complete mb st
      | (s, .taken) => s.complete mb St.ok
      | (s, .whole im) => { s with trust := { s.trust with staged := im } }.complete mb St.ok (leBytes 48 (sha384 im).toNat))

/-- FW_ACTIVATE: the staged image is checked by R403 and against the FLOOR, copied to the image area, and runs from the
restart of the controller that follows (R406). [DEDUCED log 79] -/
def execFwActivate (mb : MbxRef) (s : State) : Host.Outcome State Fault Refusal :=
  .next (s.rcs mb 0x0A01 fun s x =>
    let im := s.trust.staged
    if s.trust.activating then s.complete mb St.running
    else if fieldAt x.req.payload 0 48 ≠ (sha384 im).toNat then s.complete mb St.field
    else
      match s.imageFails im with
      | some st => s.complete mb st
      | none =>
        if fieldAt im 8 4 < s.trust.floorVersion then s.complete mb St.rollback
        else ({ s with trust := { s.trust with image := im, activating := true } }.security 3).complete mb St.ok)

/-! ## Recovery (R405) -/

/-- The boot ROM finds no good image: it asks for one. [DEDUCED log 126] -/
def State.startRecovery (s : State) : State :=
  { s with trust := { s.trust with recovering := true, rmAllowed := s.trust.rmOnly } }.emit (.recoveryAsk s.trust.devId s.tray)

/-- RECOVERY: an answer of a peer, or of the RM once no peer has answered or where the ROM asks the RM alone; it is verified before
it is written; a SECURITY record follows after the mount. [DEDUCED log 126] -/
def execRecovery (fromRm : Bool) (image : List Byte) (s : State) : Host.Outcome State Fault Refusal :=
  .next (if !s.trust.recovering || !s.phys.standby || (fromRm && !s.trust.rmAllowed) || (!fromRm && s.trust.rmOnly) then s
    else
      match s.imageFails image with
      | some _ => s
      | none =>
        let s := { s with trust := { s.trust with image := image, recovering := false, rmAllowed := false, recovered := true } }.bootImage
        let s := s.security 4
        -- an image fetched after the FLOOR check refused the last one is checked against the FLOOR again
        if s.flag F.ledgStatMounted then s.mountRollback else s.wr F.hubIdStatBoot 3)

/-- RECOVERY_PEER_TIMEOUT: no peer has answered within 5 s. [DEDUCED log 126] -/
def execRecoveryPeerTimeout (s : State) : Host.Outcome State Fault Refusal :=
  .next (if s.trust.recovering then { s with trust := { s.trust with rmAllowed := true } } else s)

/-- RECOVERY_REQUEST: the other module of the tray asks; this one answers from its own image area. -/
def execRecoveryRequest (devId tray : Nat) (s : State) : Host.Outcome State Fault Refusal :=
  .next (if tray = s.tray && devId ≠ s.trust.devId && !s.trust.recovering && s.phys.standby then
      s.emit (.recoveryAnswer devId s.trust.image)
    else s)

/-! ## Sessions (R408) and test unlock (R411) -/

/-- A test unlock ends: every die is disarmed (17 R427). [DEDUCED log 81] -/
def State.endUnlock (s : State) : State :=
  if s.trust.unlock.isNone then s
  else
    (({ s with trust := { s.trust with unlock := none } }.wr F.ledgFloorTestUnlocked 0).security 1).disarmAll.showInjection

/-- A session ends: its version, its grants, its attestation, its nonce and its test unlock end with it. [PRESUMED log 63] -/
def State.endSession (s : State) (mb : MbxRef) (session : Nat) : State :=
  let t := s.trust
  let mine : Bool := t.unlock.any fun u => u.1 = session
  let s := { s with hello := s.hello.filter fun e => e.1 ≠ requester mb session
                    grants := if session = 0 then s.grants else s.grants.setD session 0 0
                    trust := { t with attested := t.attested.filter (· ≠ session)
                                      nonce := t.nonce.filter fun n => n.1 ≠ session } }
  if mine then s.endUnlock else s

/-- The measurement blocks (R409). Blocks 1 to 3 and 6 are the SHA-384 of the items named, in their order, each in whole bytes; block 4 is
the plan hash and block 5 the program measurement, which are digests already. [PRESUMED log 63] -/
def State.measurements (s : State) : List (Nat × BitVec 384) :=
  let t := s.trust
  let bit (b : Bool) : List Byte := leBytes 1 (if b then 1 else 0)
  [(1, sha384 (leBytes 4 Config.romVersion ++ leBytes 1 t.svnFuses)), (2, sha384 (t.image.take 72)),
   (3, sha384 (match s.live 12 0 with | some g => g.payload | none => [])), (4, s.planHash), (5, t.measurement),
   (6, sha384 (bit t.unlock.isSome ++ bit s.plan.injection ++ leBytes 1 (match s.ownerSlot with | some k => k + 1 | none => 0) ++
      bit t.overridden))]

/-- A block in the DMTF measurement format: index, specification 1, size, value type, value size, the digest. [PRESUMED log 63] -/
def measurementBlock (b : Nat × BitVec 384) : List Byte :=
  leBytes 1 b.1 ++ leBytes 1 1 ++ leBytes 2 51 ++ leBytes 1 (if b.1 = 1 then 0 else if b.1 = 2 then 1 else 3) ++ leBytes 2 48 ++
    leBytes 48 b.2.toNat

/-- The MEASUREMENTS message for an operation: 0 asks for the number of blocks, 0xFF for all of them, another number for that block.
 [PRESUMED log 63] -/
def State.measurementsMessage (s : State) (operation : Nat) : List Byte :=
  let all := s.measurements
  let blocks := if operation = 0 then [] else all.filter fun b => operation = 0xFF || b.1 = operation
  let record := blocks.flatMap measurementBlock
  leBytes 1 0x13 ++ leBytes 1 0x60 ++ leBytes 1 (if operation = 0 then all.length else 0) ++ leBytes 1 0 ++
    leBytes 1 blocks.length ++ leBytes 3 record.length ++ record

/-- SPDM: GET_MEASUREMENTS is answered by the blocks of R409 and attests the session, END_SESSION ends it. What else an answer holds (its
nonce and signature; the other messages) is the protocol's, outside the spec: a free value. [PRESUMED log 63] -/
def execSpdm (mb : MbxRef) (s : State) : Host.Outcome State Fault Refusal :=
  .next (s.rcs mb 0x0A02 fun s x =>
    let d := s.draw
    let code := fieldAt x.req.payload 1 1
    let head := if code = 0xE0 then s.measurementsMessage (fieldAt x.req.payload 3 1) else []
    let s := (d.2.complete mb St.ok (head ++ Config.spdmAnswer d.1 x.req.payload))
    if code = 0xE0 then
      { s with trust := { s.trust with attested := x.session :: s.trust.attested.filter (· ≠ x.session) } }.showInjection
    else if code = 0xEC then s.endSession mb x.session
    else s)

/-- TEST_UNLOCK, first call: a nonce, which is free. [DESIGN CHOICE log 80] -/
def execTestUnlockNonce (mb : MbxRef) (s : State) : Host.Outcome State Fault Refusal :=
  .next (match s.ready? mb 0x0A03 with
    | none => s
    | some x =>
      if x.reqLen ≠ 0 then s
      else
        let d := s.draw
        let n := BitVec.ofNat 256 (Config.freeNat d.1)
        let s := { d.2 with trust := { d.2.trust with nonce := some (x.session, n) } }
        s.complete mb St.ok (leBytes 8 0 ++ leBytes 32 n.toNat))

/-- TEST_UNLOCK, second call: the token is checked, and unlocks the session up to a number of hours of use. -/
def execTestUnlock (mb : MbxRef) (s : State) : Host.Outcome State Fault Refusal :=
  .next (match s.ready? mb 0x0A03 with
    | none => s
    | some x =>
      if x.reqLen = 0 then s
      else
        let p := x.req.payload
        let t := s.trust
        let key := if s.ownerSlot.isSome then t.ownerKey else Config.testKey t.testHash
        let good : Bool := t.nonce = some (x.session, BitVec.ofNat 256 (fieldAt p 8 32)) && fieldAt p 0 8 = t.devId &&
          ecdsaOk key (p.take 44) (sliceAt p 48 96)
        let s := { s with trust := { t with nonce := none } }
        if !good then s.complete mb St.locked
        else
          let s := { s with trust := { s.trust with unlock := some (x.session, s.rd F.ledgHoursHoursMain + fieldAt p 40 4) } }
          let s := ((s.wr F.ledgFloorTestUnlocked 1).security 0 (leBytes 4 (fieldAt p 40 4))).showInjection
          s.complete mb St.ok (leBytes 1 1))

/-- TEST_UNLOCK_EXPIRE: hours of use reach the limit. -/
def execTestUnlockExpire (s : State) : Host.Outcome State Fault Refusal :=
  .next (match s.trust.unlock with
    | some (_, limit) => if limit ≤ s.rd F.ledgHoursHoursMain then s.endUnlock else s
    | none => s)

/-! ## Owner keys (R410) -/

/-- OWNER_KEY: bytes 0–96 the key, then the signature by the current owner key where a slot is ACTIVE. -/
def execOwnerKey (mb : MbxRef) (s : State) : Host.Outcome State Fault Refusal :=
  .next (s.rcs mb 0x0A04 fun s x =>
    let key := x.req.payload.take 97
    let t := s.trust
    if x.role ≠ .rm then s.complete mb St.notPermitted
    else if !t.attested.contains x.session then s.complete mb St.locked
    else if s.ownerSlot.isSome && !ecdsaOk t.ownerKey key (sliceAt x.req.payload 97 96) then s.complete mb St.signature
    else
      match [0, 1, 2, 3].find? fun k => !t.ownerActive.contains k && !t.ownerRevoked.contains k with
      | none => s.complete mb St.notPermitted
      | some k =>
        let h := (sha384 key).toNat
        let t := { t with ownerRevoked := (match s.ownerSlot with | some o => o :: t.ownerRevoked | none => t.ownerRevoked)
                          ownerActive := k :: t.ownerActive, ownerHash := t.ownerHash.setD k 0 h, ownerKey := key }
        let s := { s with trust := t }.wr F.ledgFloorOwnerSlot (k + 1)
        ((s.askLedger 14 k key).security 2).complete mb St.ok)

end Sys2Proof.Machine
end

