-- ==== Sys2Proof/Machine/Cnt.lean ====
section
/-! DEFINITION. Counters and scoresheets (18): CNT_CONFIG, CNT_READ, the scoresheet engine. -/

namespace Sys2Proof.Machine

/-! ## Programmable counters (R432 to R434, R442) -/

/-- The last occurrence event and the last occupancy of a unit's list (R436). -/
def unitEvents (u : Nat) : Nat × Nat :=
  if u < 128 then (0x0A, 0x11) else if u < 132 then (0x07, 0x10) else if u < 196 then (0x08, 0x10)
  else if u < 260 then (0x08, 0x10) else if u < 264 then (0x06, 0x10) else if u < 273 then (0x07, 0x10) else (0x06, 0x10)

/-- Whether a unit defines an event code for a mode. [DEDUCED log 85] -/
def eventOk (u mode ev : Nat) : Bool :=
  let e := unitEvents u
  if mode = 0 then 1 ≤ ev && ev ≤ e.1 else mode ≤ 2 && 0x10 ≤ ev && ev ≤ e.2

/-- CNT_CONFIG: CLR, then the S fields if the counter is IDLE, then EN. A change of an S field of a counter that counts is
discarded and flagged. [DEDUCED log 85] -/
def execCntConfig (mb : MbxRef) (s : State) : Host.Outcome State Fault Refusal :=
  .next (s.rcs mb 0x0700 fun s x =>
    let p := x.req.payload
    let u := fieldAt p 0 2
    let k := fieldAt p 2 1
    let f := fieldAt p 3 1
    let ev := fieldAt p 4 1
    let mode := fieldAt p 5 1
    let th := fieldAt p 8 4
    let chain := f / 4 % 2
    if 274 ≤ u || unitCounters u ≤ k || !eventOk u mode ev || (chain = 1 && k = 0) || 65535 < th then s.complete mb St.field
    else
      let i := 8 * u + k
      let same : Bool := s.rd F.cntSelEvent i = ev && s.rd F.cntSelMode i = mode && s.rd F.cntSelChain i = chain &&
        s.rd F.cntSelThresh i = th
      let run := s.flag F.cntSelEn i
      let s := if f / 2 % 2 = 1 then s.clearCounter u k else s
      let s := if run then s
        else (((s.wr F.cntSelEvent ev i).wr F.cntSelMode mode i).wr F.cntSelChain chain i).wr F.cntSelThresh th i
      let s := s.wr F.cntSelEn (f % 2) i
      if run && !same then (s.wr F.cntUstatCfgReject 1 u).complete mb St.running else s.complete mb St.ok)

/-- A programmable counter's 8-byte entry (R441). [DEDUCED log 85] -/
def State.cntEntry (s : State) (u k : Nat) : List Byte :=
  let i := 8 * u + k
  leBytes 6 (s.cnt.getD (16 * u + k) 0) ++ leBytes 1 (s.rd F.cntSelEvent i) ++
  leBytes 1 (s.rd F.cntSelMode i % 4 + 4 * s.rd F.cntSelChain i + 8 * s.rd F.cntSelEn i + 16 * s.rd F.cntSelOvf i)

/-- A reduction core's four top-down counters, zero for another unit. [DEDUCED log 59] -/
def State.topDownBytes (s : State) (u : Nat) : List Byte :=
  (List.range 4).flatMap fun j => leBytes 8 (if u < 128 then s.topDown.getD (4 * u + j) 0 else 0)

/-- CNT_READ: all counters of one unit, or the link counters of a port. [DEDUCED log 85] -/
def execCntRead (mb : MbxRef) (s : State) : Host.Outcome State Fault Refusal :=
  .next (s.rcs mb 0x0701 fun s x =>
    let u := fieldAt x.req.payload 0 2
    if u < 274 then
      s.complete mb St.ok (leBytes 8 (s.cycles u) ++ s.topDownBytes u ++
        (List.range 8).flatMap (fun k => if k < unitCounters u then s.cntEntry u k else leBytes 8 0) ++ leBytes 8 s.rackTime)
    else if 0x1000 ≤ u && u < 0x1000 + 144 then
      s.complete mb St.ok (leBytes 40 0 ++
        (List.range 8).flatMap (fun k => leBytes 8 (if k < 4 then s.linkCnt.getD (4 * (u - 0x1000) + k) 0 else 0)) ++
        leBytes 8 s.rackTime)
    else s.complete mb St.field)

/-! ## The record of a scoresheet (R441) -/

/-- A section: its header, then its entries. -/
def section_ (id units counters : Nat) (body : List Byte) : List Byte :=
  leBytes 1 id ++ [0] ++ leBytes 2 units ++ leBytes 2 counters ++ leBytes 2 0 ++ leBytes 4 body.length ++ leBytes 4 0 ++ body

/-- The entries of one unit: cycle counter, a core's top-down counters, the programmable counters. -/
def State.unitBytes (s : State) (u : Nat) : List Byte :=
  leBytes 8 (s.cycles u) ++ (if u < 128 then s.topDownBytes u else []) ++ (List.range (unitCounters u)).flatMap (s.cntEntry u)

def State.unitsBytes (s : State) (first n : Nat) : List Byte := (List.range n).flatMap fun k => s.unitBytes (first + k)

/-- One port's lane counters: FEC counters 0 to 16, then the symbol counters of its four lanes. -/
def State.laneCounters (s : State) (p : Nat) : List Byte :=
  (List.range 17).flatMap (fun k => leBytes 8 (s.rd F.laneFechistCount (17 * p + k))) ++
  (List.range 4).flatMap fun k => leBytes 8 (s.rd F.laneSymerrCount (4 * p + k))

/-- The section of an ID. -/
def State.sectionOf (s : State) (id : Nat) : List Byte :=
  match id with
  | 1 => section_ 1 1 36 ((List.range 36).flatMap fun i => leBytes 8 (s.always.getD i 0))
  | 2 => section_ 2 128 13 (s.unitsBytes 0 128)
  | 3 => section_ 3 4 9 (s.unitsBytes 128 4)
  | 4 => section_ 4 64 5 (s.unitsBytes 132 64)
  | 5 => section_ 5 64 9 (s.unitsBytes 196 64)
  | 6 => section_ 6 4 5 (s.unitsBytes 260 4)
  | 7 => section_ 7 144 4 ((List.range 576).flatMap fun i => leBytes 8 (s.linkCnt.getD i 0))
  | 8 => section_ 8 144 21 ((List.range 144).flatMap s.laneCounters)
  | 9 => section_ 9 9 5 (s.unitsBytes 264 9)
  | 10 => section_ 10 1 5 (s.unitsBytes 273 1)
  | _ => []

/-- The record of the snapshot taken now, numbered `seq`. -/
def State.scoresheet (s : State) (seq : Nat) : List Byte :=
  let secs := s.rd F.cntSscfgSections
  let body := ((List.range 10).filter fun i => secs.testBit i).flatMap fun i => s.sectionOf (i + 1)
  let body := body ++ List.replicate ((64 - body.length % 64) % 64) 0
  let flags := (if s.ssSkippedBefore then 1 else 0) + (if s.flag F.hubIdStatMainOn then 0 else 2)
  let a := leBytes 4 0x48534353 ++ [0] ++ leBytes 1 flags ++ leBytes 2 s.self ++ leBytes 8 seq ++ leBytes 8 s.rackTime ++
    leBytes 4 (64 + body.length) ++ leBytes 2 secs ++ leBytes 2 0 ++ leBytes 4 (s.rd F.cntSsptrSkipped)
  let b := leBytes 4 (s.rd F.ledgHoursHoursMain) ++ leBytes 20 0 ++ body
  a ++ leBytes 4 (crc32c (a ++ leBytes 4 0 ++ b)).toNat ++ b

/-! ## The scoresheet engine (R438 to R440, R442) -/

/-- PERIOD in ns. -/
def State.ssPeriod (s : State) : Nat := 10000 * s.rd F.cntSscfgPeriod

/-- Whether the destination can be written: the PCIe link up, or memory READY. [DEDUCED log 86] -/
def State.ssDestOk (s : State) : Bool := if s.flag F.cntSscfgDest then s.memReady && !s.phys.fatal else s.phys.pcieUp

/-- A snapshot is not recorded. [DEDUCED log 86] -/
def State.ssSkip (s : State) (dest : Bool) : State :=
  let s := { s.addSat F.cntSsptrSkipped 1 with ssSkippedBefore := true }
  if dest then s.wr F.cntSsptrDestErr 1 else s

/-- SCORESHEET_SNAPSHOT: the edge at which rack time reaches a multiple of the period: a capture, or a skip. [DEDUCED log 86] -/
def execScoresheetSnapshot (s : State) : Host.Outcome State Fault Refusal :=
  .next (if !s.flag F.cntSscfgEn || s.ssPeriod = 0 || 10 ≤ s.rackTime % s.ssPeriod then s
    else
      let n := s.ssSeq + 1
      let s := { s with ssSeq := n }
      if s.ssBusy.isSome then s.ssSkip false
      else if !s.ssDestOk then s.ssSkip true
      else { s with ssBusy := some n, ssRecord := s.scoresheet n, ssSkippedBefore := false })

/-- Write bytes at an address of the ring's memory. -/
def State.ssPut (s : State) (a : Nat) (bytes : List Byte) : State :=
  if s.flag F.cntSscfgDest then s.writeMem (a % 2 ^ 48) bytes false []
  else (s.emit (.hostWrite a bytes false)).ev U.pcie 0x04 (ceilDiv bytes.length 64)

/-- A configuration that waited for the record in progress takes effect. -/
def State.ssApply (s : State) : State :=
  match s.ssPending with
  | some (c, b) =>
    if s.ssBusy.isSome then s else { (s.setReg .cntSscfg 0 c).setReg .cntSsbase 0 b with ssPending := none, ssSeq := 0 }
  | none => s

/-- SCORESHEET_WRITE: bytes 8 to 15 of the slot become zero, then the body, then the whole header, then PROD. [DEDUCED log 86] -/
def execScoresheetWrite (s : State) : Host.Outcome State Fault Refusal :=
  .next (match s.ssBusy with
    | none => s
    | some n =>
      let rec_ := s.ssRecord
      let a := s.rd F.cntSsbaseBase + 65536 * (n % Nat.max 1 (s.rd F.cntSscfgSlots))
      let s := if s.ssDestOk then
          (((s.ssPut (a + 8) (leBytes 8 0)).ssPut (a + 64) (rec_.drop 64)).ssPut a (rec_.take 64)).wr F.cntSsptrProd (n % 65536)
        else s.ssSkip true
      { s with ssBusy := none, ssRecord := [] }.ssApply)

/-- SCORESHEET_CONFIG. [DEDUCED log 86] -/
def execScoresheetConfig (mb : MbxRef) (s : State) : Host.Outcome State Fault Refusal :=
  .next (s.rcs mb 0x0702 fun s x =>
    let p := x.req.payload
    let en := fieldAt p 0 1 % 2
    let dest := fieldAt p 0 1 / 2 % 2
    let secs := fieldAt p 2 2 % 1024
    let period := fieldAt p 4 4
    let base := fieldAt p 8 8
    let n := fieldAt p 16 2
    let cfg := [(0, 1, en), (1, 1, dest), (2, 10, secs), (16, 29, period), (45, 16, n)].foldl
      (fun (w : Word) (f : Nat × Nat × Nat) => withBits w f.1 f.2.1 f.2.2) 0
    let idle : Bool := !s.flag F.cntSscfgEn && s.ssBusy.isNone
    let bad : Bool := base % 65536 ≠ 0 || period < 10 || 360000000 < period || n < 2 ||
      (dest = 1 && s.memTop < base % 2 ^ 48 + 65536 * n)
    if en = 0 then
      let d := s.draw
      ({ d.2 with ssPending := some (cfg, BitVec.ofNat 64 base) }.ssApply).complete mb St.ok
        (leBytes 8 (Config.freeNat d.1) ++ leBytes 8 (Config.freeNat d.1 / 2 ^ 64))
    else if bad then s.complete mb St.field
    else if !idle && (withBits (s.reg .cntSscfg 0) 0 1 1 ≠ cfg || s.rd F.cntSsbaseBase ≠ base) then s.complete mb St.running
    else
      let s := { s with ssPending := none, ssSeq := if s.flag F.cntSscfgEn then s.ssSeq else 0 }
      let s := (s.setReg .cntSscfg 0 cfg).setReg .cntSsbase 0 (BitVec.ofNat 64 base)
      s.complete mb St.ok (leBytes 8 (s.ssSeq + 1) ++ leBytes 8 ((s.rackTime / s.ssPeriod + 1) * s.ssPeriod)))

end Sys2Proof.Machine
end

