-- ==== Sys2Proof/Machine/Err.lean ====
section
/-! DEFINITION. The error ring and loaded dice as commands (17 R417 to R429), and the crossings' detectors (R423; 19 R447). -/

namespace Sys2Proof.Machine

/-! ## The ring (R417, R418) -/

/-- ERR_READ: ring entries from an index up to the last written, at most the 63 that fit a response. [DEDUCED log 88] -/
def execErrRead (mb : MbxRef) (s : State) : Host.Outcome State Fault Refusal :=
  .next (s.rcs mb 0x0800 fun s x =>
    let i := fieldAt x.req.payload 0 2
    if 512 ≤ i then s.complete mb St.field
    else
      let n := (s.rd F.errStatWriteIdx + 511 - i) % 512 + 1
      let at_ := ((List.range n).map fun k => (i + k) % 512).filter fun k => (s.errs.find k).isSome
      s.complete mb St.ok ((at_.take 63).flatMap s.ringEntry))

/-- ERR_ACK: entries after ACK_IDX up to the index given. -/
def execErrAck (mb : MbxRef) (s : State) : Host.Outcome State Fault Refusal :=
  .next (s.rcs mb 0x0801 fun s x =>
    let i := fieldAt x.req.payload 0 2
    let a := s.rd F.errStatAckIdx
    let n := (i + 512 - a) % 512
    if 512 ≤ i || n = 0 || (s.rd F.errStatWriteIdx + 1023 - a) % 512 < n then s.complete mb St.field
    else
      let s := s.each ((List.range n).map fun k => (a + 1 + k) % 512) fun s k => s.modErr k fun r => { r with acked := true }
      (s.wr F.errStatAckIdx i).complete mb St.ok)

/-- RECORD_CLOSE: the COALESCE window of a CORRECTED or DEFERRED record has passed since its latest detection (R419). [DESIGN CHOICE log 4] -/
def execRecordClose (rseq : Nat) (s : State) : Host.Outcome State Fault Refusal :=
  .next (match s.errs.find? fun e => e.2.rseq = rseq with
    | none => s
    | some (i, r) =>
      let w := Nat.max 1 (Nat.min (s.rd F.errCfgCoalesce) 10000)
      if r.sev < 2 && r.lastRtime + 10 * w ≤ s.rackTime then s.putErr i { r with open_ := false } else s)

/-- FENCE_ESCALATION: 1 ms after its detection the unit of a CONTAINED record is not fenced; the record becomes FATAL_MODULE and
is committed and reported as such (R413, R422). [DESIGN CHOICE log 4; DEDUCED log 89] -/
def execFenceEscalation (rseq : Nat) (s : State) : Host.Outcome State Fault Refusal :=
  .next (match s.errs.find? fun e => e.2.rseq = rseq with
    | none => s
    | some (i, r) =>
      if r.sev ≠ 2 || r.superseded || s.rackTime < r.rtime + 1000000 then s
      else
        let r := { r with sev := 3, escalated := true, open_ := true }
        let n := s.ledger.runError
        let s := (s.putErr i r).askLedger 7 (n % 65536) (errBytes r) (some rseq)
        ({ s with ledger := { s.ledger with runError := n + 1 } }).fatalStop)

/-! ## Loaded dice (R425 to R427) -/

/-- INJECT_ARM. -/
def execInjectArm (mb : MbxRef) (s : State) : Host.Outcome State Fault Refusal :=
  .next (s.rcs mb 0x0802 fun s x =>
    let p := x.req.payload
    let code := fieldAt p 0 2
    let mode := fieldAt p 2 1
    if !s.injectionOpen x.session then s.complete mb St.locked
    else
      match detector? code with
      | none => s.complete mb St.field
      | some (_, modes) =>
        let rest := s.dice.filter fun d => d.code ≠ code
        if mode = 0 || !modes.testBit mode then s.complete mb St.notPermitted
        else if 16 ≤ rest.length then s.complete mb St.noResources
        else
          let die : Die := { code := code, mode := mode, n := fieldAt p 4 4, count := 0, filter := s.flag F.errInjselFilter,
                             inst := s.rd F.errInjselInstance }
          let s := { s with dice := rest ++ [die] }
          ((s.wr F.errInjstatArmed s.dice.length).security 5 (p.take 8)).complete mb St.ok)

/-- INJECT_DISARM: one detector, or all. -/
def execInjectDisarm (mb : MbxRef) (s : State) : Host.Outcome State Fault Refusal :=
  .next (s.rcs mb 0x0803 fun s x =>
    let code := fieldAt x.req.payload 0 2
    if code = 0xFFFF then s.disarmAll.complete mb St.ok
    else if (detector? code).isNone then s.complete mb St.field
    else if (s.dice.all fun d => d.code ≠ code) then s.complete mb St.ok
    else
      let s := { s with dice := s.dice.filter fun d => d.code ≠ code }
      ((s.wr F.errInjstatArmed s.dice.length).security 6 (x.req.payload.take 2)).complete mb St.ok)

/-! ## Crossings (R423; 19 R446 to R448) -/

/-- Instances of a crossing group and the cycles of its near clock in one TICK, times 2 (R423; 19 R443): TCLK is 4.5. [DEDUCED log 91] -/
def cdcGroup : Nat → Nat → Option Nat
  | 1, i => if i < 128 then some 48 else none
  | 2, i => if i < 4 then some 48 else none
  | 3, i => if i < 144 then some 36 else none
  | 4, i => if i < 64 then some 36 else none
  | 5, i => if i < 8 then some 36 else if i = 8 then some 18 else none
  | 6, _ => some 9
  | 7, _ => some 9
  | 8, _ => some 36
  | 9, _ => some 9
  | _, _ => none

/-- CDC_OVERRUN: a pulse that arrives during the acknowledge phase merges and sets the sticky flag. A crossing that stays idle
after its timeout takes none. [DEDUCED log 91] -/
def execCdcOverrun (group inst : Nat) (s : State) : Host.Outcome State Fault Refusal :=
  .next (if (cdcGroup group inst).isNone || s.phys.cdcIdle.contains (group, inst) then s
    else
      let d := s.detected (E.cdcOverrun group) inst
      let s := d.1
      let set := (group, inst) :: s.phys.cdcOverrun.filter (· ≠ (group, inst))
      let s := { s with phys := { s.phys with cdcOverrun := set } }
      s.raise (E.cdcOverrun group) inst 0 0 none d.2)

/-- The response of a crossing group to CDC_TIMEOUT. [DEDUCED log 91] -/
def State.cdcResponse (s : State) (group inst : Nat) (inj : Bool) : State :=
  match group with
  | 1 => s.fenceCore inst 1 inj
  | 2 =>
    let s := (s.endQuad inst 0x0104).endRuns (fun k => k % 1024 / 256 = inst) 8
    { s with cdcOut := inst :: s.cdcOut.filter (· ≠ inst) }
  | 3 =>
    let act := s.stage inst = Stage.active
    if act then ((s.setStage inst Stage.train).modPort inst fun x => { x with wait := .ms1, ack := false, go := false }).trafficDown inst
      |>.reportPort inst .missing 0 false
    else s
  | 4 => s.memChannelFail inst inj
  | 5 => if inst < 8 then (s.ethDown inst 0).ethDown inst 1 else s.functionReset .linkDown
  | 6 => s.restartController
  | _ => s

/-- CDC_TIMEOUT: the far clock's heartbeat is absent for 10 µs of the near clock. -/
def State.cdcTimeout (s : State) (group inst : Nat) : State :=
  match cdcGroup group inst with
  | none => s
  | some c =>
    if s.phys.cdcIdle.contains (group, inst) then s
    else
      let d := s.detected (E.cdcTimeout group) inst
      let s := d.1.raise (E.cdcTimeout group) inst (500 * c) 0 none d.2
      let stays : Bool := group = 1 || group = 2 || 7 ≤ group
      let s := if stays then { s with phys := { s.phys with cdcIdle := (group, inst) :: s.phys.cdcIdle } } else s
      s.cdcResponse group inst d.2

/-- [DEDUCED log 91] -/
def execCdcTimeout (group inst : Nat) (s : State) : Host.Outcome State Fault Refusal := .next (s.cdcTimeout group inst).settle

end Sys2Proof.Machine
end

