-- ==== Sys2Proof/Machine/Reset.lean ====
section
/-! DEFINITION. Clocks, rails and resets (19): what a main reset takes away and what its release brings up, the reset of the
standby domain, the controller's reset, VDD_CORE, REFCLK. -/

namespace Sys2Proof.Machine

/-! ## What a main reset takes away (R451, R452) -/

/-- Whether a register survives a main reset: those of the standby domain, and those that only commands or the plan set. [DEDUCED log 93] -/
def keptInMain (r : Reg) : Bool :=
  !r.info.block.inMain || [.qswTgen, .qswSpraycfg, .portSlice, .portIngctl, .strmEpoch].contains r

/-- The registers after a main reset; a fenced port stays FENCED, an unassigned one UNUSED, and a channel's failure stands
until a reset of the memory controllers. [DEDUCED log 93] -/
def State.mainRegs (s : State) (keep : Bool) : State :=
  let fenced := (List.range 144).filter fun p => s.rd F.laneStatStage p = Stage.fenced
  let unused := (List.range 144).filter fun p => s.flag F.laneStatUnused p
  let r := { s with regs := s.regs.filter fun e => (allRegs[e.1 / 2 ^ 20]?).any fun r => keptInMain r || (keep && r = .memcScrub) }
  let r := fenced.foldl (fun s p => s.setStage p Stage.fenced) r
  let r := unused.foldl (fun s p => s.wr F.laneStatUnused 1 p) r
  (List.range 272).foldl (fun s u => s.wr F.cntUstatFrozen 0 u) r

/-- The counters of the main domain's units are cleared (18 R430). -/
def State.mainCounters (s : State) : State :=
  { s with cnt := s.cnt.filter fun e => 272 ≤ e.1 / 16
           cntHeld := s.cntHeld.filter fun e => 272 ≤ e.1
           topDown := []
           linkCnt := [] }

/-- The packets, flows, links and buffers of the switch cores are lost. [DEDUCED log 93] -/
def State.mainSwitch (s : State) : State :=
  { s with tx := [], rx := [], lines := [], inq := [], outq := [], vcbuf := [], qcharge := [], shared := [], arb := [], lfsr := []
           inFlows := [], egFlows := [], buckets := [], local_ := [], notices := [], heldPkts := [], unitEvents := []
           ports := s.ports.map fun (e : Nat × PortSt) => (e.1, { ({} : PortSt) with
             shortOk := e.2.shortOk, farDev := e.2.farDev, farId := e.2.farId, baseline := e.2.baseline
             bringups := e.2.bringups, fails := e.2.fails, reported := e.2.reported })
           lanes := s.lanes.map fun (e : Nat × LaneSt) => (e.1, { ({} : LaneSt) with
             pre := e.2.pre, post := e.2.post, ctle := e.2.ctle, dfe := e.2.dfe, hours := e.2.hours, snapHours := e.2.snapHours })
           eth := [] }

/-- The reduction store, the cores and what runs on them are lost. [DEDUCED log 93] -/
def State.mainColl (s : State) : State :=
  { s with insts := [], slots := [], banks := [], ctxs := [], rrCtx := [], programs := []
           symTimes := [], ueWords := [], retireAsk := [], recarve := [], memReads := [], ownReqs := [], ownRsps := []
           scrubPos := [], scrubClock := [], scrubMark := [], refreshes := []
           spares := s.spares.filter fun r => r.kind = 3
           phys := { s.phys with fatal := false, cdcIdle := [], cdcOverrun := [] }
           cdcOut := []
           outOfService := [] }

/-- Commands that wait for an instance's end, a table switch or other modules' answers complete: the instance ended HOME_LOST, the switch
and the binding are not made. [DEDUCED log 93] -/
def State.mainWaiters (s : State) : State :=
  let mine := s.waitCmds.filter fun w => w.2.1 = 0 || w.2.1 = 1
  let binds := s.bindWaits.map fun e => e.2.mb
  let told := s.agent.switchTold
  let s := { s with waitCmds := s.waitCmds.filter fun w => !(w.2.1 = 0 || w.2.1 = 1), bindWaits := []
                    agent := { s.agent with switchTold := [] } }
  let s := told.foldl (fun (s : State) e => s.report (.result s.self e.1 St.powerOff)) s
  let s := binds.foldl (fun (s : State) mb => s.complete mb St.powerOff) s
  mine.foldl (fun s w => if w.2.1 = 0 then s.complete w.1 St.ok (leBytes 2 0x0108) else s.complete w.1 St.powerOff) s

/-- The reports of a main reset: links down, bindings lost. [DEDUCED log 93] -/
def State.mainReports (s : State) : State :=
  let s := ((List.range 144).filter s.active).foldl (fun s p => s.reportPort p .missing 0 false) s
  s.slots.foldl (fun s e => match e.2.bound with
    | some b => if e.2.helper.isNone && !e.2.closing then s.report (.binding s.self e.1 b.group false) else s
    | none => s) s

/-- The main domain enters reset. `keep` asks for MAIN_KEEPMEM; memory that is not READY, and a reset of the broader type
already running, make it MAIN_FULL (R452, R453). [DEDUCED log 81, 93] -/
def State.mainDown (s : State) (keep : Bool) : State :=
  let keep := keep && s.memReady && s.phys.resetKind.isNone
  if s.phys.resetKind.isSome then
    if s.phys.resetKind = some true then
      { s with phys := { s.phys with resetKind := some false, resetWaiting := none }, mem := [], memPoison := [] }
    else { s with phys := { s.phys with resetWaiting := none } }
  else
    let s := s.mainReports
    let homed := s.insts.filter fun e => !s.isHelper (e.1 / 65536)
    -- each is recorded as an abort (05 R125, R136)
    let s := homed.foldl (fun (s : State) e => s.recordEnd (e.1 / 65536) (e.1 % 65536) 0x0108 0x1FF e.2.gepoch 0) s
    let s := (s.bump 8 homed.length).mainWaiters.endUnlock.endRunsFree
    let s := (((s.mainRegs keep).mainCounters).mainSwitch).mainColl
    let s := { s with phys := { s.phys with resetKind := some keep, resetWaiting := none, timeSet := false }
                      mem := if keep then s.mem else []
                      memPoison := if keep then s.memPoison else []
                      errs := s.errs.map fun (e : Nat × ErrRec) => (e.1, if e.2.sev = 3 then { e.2 with open_ := false } else e.2) }
    (s.wr F.hubIdResetRunning 1).wr F.hubIdStatMainOn 0

/-! ## What the release brings up (R455; 07 R178; 08 R215; 11 R283) -/

/-- Whether a core's fence history keeps it fenced: three fences within 720 h of hours of use (08 R215). [DEDUCED log 94] -/
def State.coreOut (s : State) (core : Nat) : Bool :=
  let h := (s.ledger.coreFences.filter fun e => e.1 = core).map fun e => e.2
  (List.range h.length).any fun i => match h[i]?, h[i + 2]? with
    | some a, some b => b ≤ a + 7200
    | _, _ => false

/-- Cores in service are those that pass their self-test and are not kept out; a quadrant without one is out of service. [DEDUCED log 94] -/
def State.startCores (s : State) (pass : List Nat) : State :=
  let out := (List.range 128).filter fun c => !pass.contains c || s.coreOut c
  let s := { s with coreFenced := out }
  let s := out.foldl (fun s c => (s.wr F.pipFenceFenced (s.rd F.pipFenceFenced (c / 32) ||| 2 ^ (c % 32)) (c / 32)).freeze (U.core c)) s
  s.each [0, 1, 2, 3] fun s q =>
    if (List.range 32).all fun k => out.contains (32 * q + k) then
      (s.raise E.pipExhausted q).wr F.pipStatOutOfService 1 q
    else s

/-- Apply one entry of the repair map. -/
def State.applyRepair (s : State) (r : Repair) : State :=
  if r.kind ≠ 2 then s.installRepair r
  else
    let u := 512 * r.quad + r.bank
    if s.retired.contains u then s else { s with retired := u :: s.retired, spares := s.spares ++ [r] }

/-- The tops and counts of a quadrant's stores under its retired banks (07 R180 to R182). -/
def State.showRetired (s : State) (q : Nat) : State :=
  let red := (s.retiredIn q 0 256).length
  let stg := (s.retiredIn q 256 128).length
  let cell := (s.retiredIn q 384 128).length
  let r := Nat.min red 16
  let g := Nat.min stg 8
  let s := ((s.wr F.qbankStatRedRetired r q).wr F.qbankStatStgRetired g q).wr F.qbankStatCellRetired cell q
  let s := (s.wr F.qbankTopRedRows (8192 - 32 * r) q).wr F.qbankTopStgRows (8192 - 64 * g) q
  if 16 < red || 8 < stg then { s.wr F.qbankTopOutOfService 1 q with outOfService := q :: s.outOfService } else s

/-- The repair map: fuse repairs stand, then field spares, then retirements. -/
def State.applyRepairs (s : State) : State :=
  let rs := s.ledger.repairs
  let s := { s with retired := [] }
  let s := (rs.filter fun r => r.kind = 1).foldl State.applyRepair s
  let s := (rs.filter fun r => r.kind = 2).foldl State.applyRepair s
  (s.each [0, 1, 2, 3] State.showRetired).freezeGroups

/-- The main domain leaves reset: RUNNING clears, crossings run, the repair map is applied, cores pass their self-test, assigned
ports leave DEEP; fabric memory is READY after MAIN_KEEPMEM and starts training otherwise. [DESIGN CHOICE log 99] -/
def State.mainUp (s : State) (pass : List Nat) : State :=
  let kept : Bool := s.phys.resetKind = some true
  let s := { s with phys := { s.phys with resetKind := none, mainRstLow := false, scanDrive := false }, mainSince := s.tick }
  let s := ((s.wr F.hubIdResetRunning 0).wr F.hubIdResetLastKeepmem (if kept then 1 else 0)).wr F.hubIdStatMainOn 1
  let s := s.applyRepairs.startCores pass
  let s := if kept then s.each [0, 1, 2, 3] fun s q =>
      ((s.wr F.memcStatInitBusy 0 q).wr F.memcStatState 1 q).wr F.memcTopTop 0xEE6B280000 q
    else s
  if s.planLive then
    s.each ((List.range 144).filter fun p => (s.portPlan p).isSome) fun s p => s.setDeep p false
  else s

/-! ## The commands -/

/-- MAIN_FULL: a requested MAIN_FULL reset is carried out, or MAIN_RST_N has been low for 1 µs. A reset that meets a power
failure waits for the POWER_FAIL commit, which is done when PWR_FAIL is (R453). [DEDUCED log 92] -/
def execMainFull (s : State) : Host.Outcome State Fault Refusal :=
  .next (if s.phys.resetWaiting = some false then s.mainDown false
    else { s.mainDown false with phys := { (s.mainDown false).phys with mainRstLow := true } })

/-- MAIN_KEEPMEM: a requested MAIN_KEEPMEM reset is carried out. [DEDUCED log 92] -/
def execMainKeepmem (s : State) : Host.Outcome State Fault Refusal :=
  .next (if s.phys.resetWaiting = some true then s.mainDown true else s)

/-- MAIN_RESET_RELEASE: main power is good and nothing holds the reset. [DEDUCED log 92] -/
def execMainResetRelease (coresPass : List Nat) (s : State) : Host.Outcome State Fault Refusal :=
  .next (if s.phys.resetKind.isNone || !s.phys.mainPg || !s.phys.standby || s.phys.leakCut || !s.phys.refclk then s
    else s.mainUp coresPass)

/-- MAIN_POWER_UP: TRAY_MAIN_EN is high, the rails have come up in order and MAIN_PG rises; VDD_CORE goes from 0.80 V to the
fused value, within 0.65 V to 0.85 V in steps of 5 mV, and the main domain leaves reset (R449, R450). [DESIGN CHOICE log 99, 131] -/
def execMainPowerUp (fusedMv : Nat) (coresPass : List Nat) (s : State) : Host.Outcome State Fault Refusal :=
  .next (if !s.phys.trayMainEn || s.phys.mainPg || !s.phys.standby || s.phys.leakCut || !s.phys.refclk then s
    else
      let mv := Nat.max 650 (Nat.min 850 (fusedMv / 5 * 5))
      let s := (s.emit (.vout 800)).emit (.vout mv)
      -- the roll call opens (14 R341)
      let ports := s.ports.map fun (e : Nat × PortSt) => (e.1, { e.2 with reported := false })
      { s with ports := ports, phys := { s.phys with mainPg := true, fusedMv := mv, vddCore := mv } }.mainUp coresPass)

/-- Main power is lost: reset, VDD_CORE gone. -/
def State.mainPowerLost (s : State) : State :=
  let s := s.mainDown false
  { s with phys := { s.phys with mainPg := false, vddCore := 0 } }

/-- MAIN_PG_LOSS: MAIN_PG falls, or a regulator faults, with TRAY_MAIN_EN high. [DESIGN CHOICE log 131] -/
def execMainPgLoss (s : State) : Host.Outcome State Fault Refusal :=
  .next (if s.phys.trayMainEn && s.phys.mainPg then s.mainPowerLost else s)

/-- VDD_CORE_ADJUST: at most 5 mV at a time, within the rail's range (R449, R450). [DESIGN CHOICE log 99] -/
def execVddCoreAdjust (mv : Nat) (s : State) : Host.Outcome State Fault Refusal :=
  .next (if s.phys.mainPg && 650 ≤ mv && mv ≤ 850 && mv ≤ s.phys.vddCore + 5 && s.phys.vddCore ≤ mv + 5 then
      { s with phys := { s.phys with vddCore := mv } }.emit (.vout mv)
    else s)

/-- REFCLK_LOSS: TICK stops and the crossings of group 7 time out (R445). [DESIGN CHOICE log 131] -/
def execRefclkLoss (s : State) : Host.Outcome State Fault Refusal :=
  .next (if s.phys.refclk then { s with phys := { s.phys with refclk := false } }.cdcTimeout 7 0 else s)

/-- REFCLK_RETURN: the root PLL relocks; the module stays FATAL_MODULE until a main reset. -/
def execRefclkReturn (s : State) : Host.Outcome State Fault Refusal :=
  .next { s with phys := { s.phys with refclk := true } }

/-! ## The standby domain and the controller (R451; 13 R306; 16 R397, R403) -/

/-- The boot ROM verifies the image: it runs, or recovery starts. [DESIGN CHOICE log 11; DEDUCED log 95, 128] -/
def State.bootRom (s : State) : State :=
  let s := { s with trust := { s.trust with activating := false } }
  if s.trust.image ≠ [] && (s.imageFails s.trust.image).isSome then (s.wr F.hubIdStatBoot 2).startRecovery
  else s.bootImage.wr F.hubIdStatBoot 3

/-- What the reset of the standby domain keeps: straps, fuses, MRAM and NOR, what lies outside the module; the ledger's own
indexes of what it holds are read again from it. [DEDUCED log 95] -/
def State.standbyKept (s : State) : State :=
  let l := s.ledger
  let t := s.trust
  { pending := s.pending, out := s.out, carried := s.out.length, fresh := s.fresh, plane := s.plane, tray := s.tray
    ledger := { mr0 := l.mr0, mr1 := l.mr1, nor := l.nor, ringPos := l.ringPos, runFence := l.runFence, runError := l.runError,
                runSec := l.runSec, norErase := l.norErase, norTime := l.norTime, norBad := l.norBad, norOpen := l.norOpen,
                norCkpt := l.norCkpt, lanes := l.lanes, laneBase := l.laneBase, coreFences := l.coreFences,
                inventory := l.inventory, cycleArmed := l.cycleArmed }
    trust := { devId := t.devId, rootHash := t.rootHash, testHash := t.testHash, ownerHash := t.ownerHash,
               ownerActive := t.ownerActive, ownerRevoked := t.ownerRevoked, svnFuses := t.svnFuses, image := t.image,
               staged := t.staged, recovered := t.recovered }
    lanes := s.lanes.map fun (e : Nat × LaneSt) => (e.1, { ({} : LaneSt) with
      pre := e.2.pre, post := e.2.post, ctle := e.2.ctle, dfe := e.2.dfe, hours := e.2.hours, snapHours := e.2.snapHours })
    spares := s.spares.filter fun r => r.kind = 3
    phys := { refclk := s.phys.refclk } }

/-- STANDBY_RESET: a standby rail rises, or STBY_RST_N is low for 1 µs: everything resets and the boot ROM starts. The fuses show
in LEDG_FLOOR, the presence contacts in COND_PRES. [DEDUCED log 95] -/
def State.standbyReset (s : State) : State :=
  let pres := s.rd F.condPresPresent
  let low : Bool := s.phys.standby && s.phys.pwrFail
  let s := s.standbyKept
  let s := { s with phys := { s.phys with pwrFail := low } }
  let s := (s.wr F.condPresPresent pres).wr F.ledgFloorOtpSvn s.trust.svnFuses
  let s := s.wr F.ledgFloorOwnerSlot (match s.ownerSlot with | some k => k + 1 | none => 0)
  let s := (s.emit (.pin "TRAY_MAIN_EN" false)).emit (.pin "BRAKE_N" true)
  s.bootRom

/-- [DEDUCED log 95] -/
def execStandbyReset (s : State) : Host.Outcome State Fault Refusal := .next s.standbyReset

/-- STANDBY_POWER_LOSS: a standby rail fails: the hub stops, TRAY_MAIN_EN goes low, what is not committed is lost. -/
def execStandbyPowerLoss (s : State) : Host.Outcome State Fault Refusal :=
  .next (let s := s.standbyKept
    { s with phys := { s.phys with standby := false } }.emit (.pin "TRAY_MAIN_EN" false))

/-- HUB_RESET: the controller alone is reset and starts again from its ROM; an image just activated runs from here (16 R406). [DEDUCED log 95] -/
def execHubReset (s : State) : Host.Outcome State Fault Refusal := .next s.restartController.bootRom

end Sys2Proof.Machine
end

