-- ==== Sys2Proof/Machine/Power.lean ====
section
/-! DEFINITION. Power, cooling and leaks at one module (15 R365 to R382): the limit in force, the governor, the brake, input
undervoltage, temperature, leak ropes, inventory; and the division of a rack cap (R370). -/

namespace Sys2Proof.Machine

/-! ## The division of a rack cap (R370) -/

/-- Lower every cap by the same fraction so that they sum to at most `room`, none below `floor` unless it was below before.
Shares are rounded down to whole watts. [DEDUCED log 96] -/
def scaleTo (room floor : Nat) (l : List (Nat × Nat)) : List (Nat × Nat) :=
  let total := (l.map fun e => e.2).sum
  if total ≤ room then l else l.map fun e => (e.1, Nat.max (Nat.min e.2 floor) (e.2 * room / total))

/-- The module IDs of a plan. -/
def Plan.modules (p : Plan) : List Nat := (List.range p.g) ++ (List.range p.g).map (· + 16)

/-- The compute trays that a plan's member ports name, ascending. -/
def Plan.trays (p : Plan) : List Nat := (List.range 32).filter fun t => p.ports.any fun e => e.2.cls = 0 && e.2.tray = t

/-- The division: caps of modules and of compute trays, and whether the floors fit. `modCap` and `trayCap` answer what the
RM and the hosts have set. [DEDUCED log 96] -/
def Plan.divide (p : Plan) (c : Nat) (modCap trayCap : Nat → Option Nat) : List (Nat × Nat) × List (Nat × Nat) × Bool :=
  let mods := p.modules.map fun m => (m, Nat.min 1500 ((modCap m).getD 1500))
  let trays := p.trays.map fun t => (t, (trayCap t).getD c)
  let sumOf (l : List (Nat × Nat)) : Nat := (l.map fun e => e.2).sum
  let trays := scaleTo (c - p.fixedW - sumOf mods) p.trayBrakeW trays
  let mods := scaleTo (c - p.fixedW - sumOf trays) p.moduleBrakeW mods
  (mods, trays, decide (p.fixedW + sumOf mods + sumOf trays ≤ c))

/-- This module's share of ORPHAN_CAP, from the plan alone. [DEDUCED log 108] -/
def State.orphanShare (s : State) : Nat :=
  ((s.plan.divide s.plan.orphanCap (fun _ => none) fun _ => none).1.find? fun e => e.1 = s.self).elim 1500 fun e => e.2

/-! ## The limit in force (R365, R366, R372) -/

/-- A PWR_CFG value: outside its range it acts as the nearer limit. -/
def clampW (n : Nat) : Nat := Nat.max 700 (Nat.min 1500 n)

/-- The brake limit: the brake level while BRAKE_N is low, then a straight line up to the limit of the others over 1 ms. -/
def State.brakeLimit (s : State) (others : Nat) : List (Nat × Nat) :=
  let b := clampW (s.rd F.pwrCfgBrakeW)
  if s.flag F.pwrStatBrakeIn then [(1, b)]
  else match s.power.ramping with
    | none => []
    | some t =>
      let e := s.rackTime - t
      if 1000000 ≤ e || others ≤ b then [] else [(1, b + (others - b) * e / 1000000)]

/-- The limits in force besides DESIGN and BRAKE, by source code. [DEDUCED log 96] -/
def State.otherLimits (s : State) : List (Nat × Nat) :=
  let p := s.power
  (match p.thermal with | some w => [(2, w)] | none => []) ++
  (match p.cap with
    | none => []
    | some w =>
      if p.capSource = 3 then [(3, 750)]
      else if p.capSource = 4 then [(4, clampW (s.rd F.pwrCfgSurvivalW))]
      else if 5 ≤ p.capSource && p.capSource ≤ 8 then [(p.capSource, w)] else []) ++
  (match p.orphan with | some w => [(6, w)] | none => [])

/-- The lowest limit; of equal ones the lower code. [DEDUCED log 96] -/
def lowestLimit (l : List (Nat × Nat)) : Nat × Nat :=
  l.foldl (fun b e => if e.2 < b.2 || (e.2 = b.2 && e.1 < b.1) then e else b) (0, 1500)

/-- The effective limit: its source and its value. [DEDUCED log 96] -/
def State.effective (s : State) : Nat × Nat :=
  let o := s.otherLimits
  lowestLimit (s.brakeLimit (lowestLimit o).2 ++ o)

/-- Show the limit, the brake, TRAY_MAIN_EN, the cut and the thermal limit in the PWR block. -/
def State.showPower (s : State) : State :=
  let e := s.effective
  let b (c : Bool) : Nat := if c then 1 else 0
  let s := ((s.wr F.pwrStatLimitW (Nat.max 700 e.2)).wr F.pwrStatSource e.1).wr F.pwrStatFloor (b (decide (e.2 < 700)))
  let s := (s.wr F.pwrStatMainEn (b s.phys.trayMainEn)).wr F.pwrStatLeakCut (b s.phys.leakCut)
  let s := s.wr F.pwrThermThrottle (b s.power.thermal.isSome)
  let drive : Bool := s.power.brakeOrdered || s.power.uv
  if drive = s.flag F.pwrStatBrakeOut then s
  else (s.wr F.pwrStatBrakeOut (b drive)).emit (.pin "BRAKE_N" (!drive))

/-- One step of the governor: the first means in order that can still go down does, or the last one lowered goes up. [DEDUCED log 97] -/
def Power.adjust (p : Power) (limit : Nat) : Power :=
  if limit < p.estimate then
    if 1 < p.duty then { p with duty := p.duty - 1 }
    else if 1 < p.cmdRate then { p with cmdRate := p.cmdRate - 1 }
    else if 1 < p.depositRate then { p with depositRate := p.depositRate - 1 }
    else if 1 < p.pacing then { p with pacing := p.pacing - 1 } else p
  else
    if p.pacing < 8 then { p with pacing := p.pacing + 1 }
    else if p.depositRate < 16 then { p with depositRate := p.depositRate + 1 }
    else if p.cmdRate < 16 then { p with cmdRate := p.cmdRate + 1 }
    else if p.duty < 16 then { p with duty := p.duty + 1 } else p

/-- Count whole units out of a remainder. -/
def State.carry (s : State) (i n unit : Nat) : State := if unit ≤ n then s.bump i (n / unit) else s

/-- POWER_ESTIMATE: every 1 µs. `w` is what on-die activity gives; the calibration is added. Energy, time under a limit and the
1 ms average advance, and the governor takes a step. [DEDUCED log 97] -/
def execPowerEstimate (w : Nat) (s : State) : Host.Outcome State Fault Refusal :=
  .next (let p := s.power
    let est := (Int.ofNat w + p.calib).toNat
    let src := if s.rd F.pwrStatSource = 0 then p.usSource else p.usSource + 1
    let th := if p.thermal.isSome then p.usThermal + 1 else p.usThermal
    let s := ((s.carry 0 (p.uj + est) 1000000).carry 1 src 1000).carry 2 th 1000
    let full : Bool := 1000 ≤ p.winN + 1
    let s := if full then s.wr F.pwrStatPowerW (Nat.min 2047 ((p.winSum + est) / 1000)) else s
    let ramp := if p.ramping.any fun t => decide (t + 1000000 ≤ s.rackTime) then none else p.ramping
    let s := { s with power := { p with
      estimate := est, uj := (p.uj + est) % 1000000, usSource := src % 1000, usThermal := th % 1000, ramping := ramp
      winSum := if full then 0 else p.winSum + est, winN := if full then 0 else p.winN + 1 } }.showPower
    { s with power := s.power.adjust (s.rd F.pwrStatLimitW) })

/-- GOVERNOR_RECALIBRATE: `w` is the regulators' telemetry. [DEDUCED log 97] -/
def execGovernorRecalibrate (w : Nat) (s : State) : Host.Outcome State Fault Refusal :=
  .next (let p := s.power
    { s with power := { p with calib := p.calib + (Int.ofNat w - Int.ofNat p.estimate), estimate := w } })

/-- ORPHAN_APPLY: no conductor has been heard for 30 s. -/
def execOrphanApply (s : State) : Host.Outcome State Fault Refusal :=
  .next (let old (t : Option Nat) : Bool := t.all fun x => decide (x + 30000000000 ≤ s.rackTime)
    if s.planLive && old s.agent.heardPrimary && old s.agent.heardSecondary then
      { s with power := { s.power with orphan := some s.orphanShare } }.showPower
    else s)

/-! ## The brake and the input bus (R371, R372) -/

/-- BRAKE_ASSERT: BRAKE_N has been low for 200 ns; `respNs` is the time measured from its fall to the brake level. -/
def execBrakeAssert (respNs : Nat) (s : State) : Host.Outcome State Fault Refusal :=
  .next (if s.flag F.pwrStatBrakeIn then s
    else
      let s := (s.wr F.pwrStatBrakeIn 1).wr F.pwrBrakeCount ((s.rd F.pwrBrakeCount + 1) % 2 ^ 32)
      let s := (s.wr F.pwrBrakeRespNs (Nat.min respNs 65535)).bump 3
      { s with power := { s.power with brakeTime := s.rackTime, ramping := none } }.showPower)

/-- BRAKE_RELEASE: BRAKE_N has been high for 1 ms, which it cannot be while this module drives it. -/
def execBrakeRelease (s : State) : Host.Outcome State Fault Refusal :=
  .next (if !s.flag F.pwrStatBrakeIn || s.flag F.pwrStatBrakeOut then s
    else { s.wr F.pwrStatBrakeIn 0 with power := { s.power with ramping := some s.rackTime } }.showPower)

/-- VIN_UNDERVOLTAGE: the bus has been below VIN_UV for 5 µs. -/
def execVinUndervoltage (s : State) : Host.Outcome State Fault Refusal :=
  .next { s with power := { s.power with uv := true } }.showPower

/-- VIN_RECOVER: the bus has stayed above VIN_UV + 2 V for 1 ms. -/
def execVinRecover (s : State) : Host.Outcome State Fault Refusal :=
  .next { s with power := { s.power with uv := false } }.showPower

/-! ## Temperature (R376, R377; 16 R396) -/

/-- Insert a number into a rising list. -/
def insertUp (n : Nat) : List Nat → List Nat
  | [] => [n]
  | x :: r => if n ≤ x then n :: x :: r else x :: insertUp n r

/-- The readings of a die's valid sensors, rising. -/
def State.dieReadings (s : State) (die : Nat) : List Nat :=
  ((List.range 8).filter fun k => !s.power.faultedSensors.contains (8 * die + k)).foldl
    (fun l k => insertUp (s.power.temps.getD (8 * die + k) 0) l) []

/-- A die's temperature: the higher of the two middle values; with 1 or 2 valid sensors the hottest plus 5 °C; with none 96 °C. -/
def State.dieTemp (s : State) (die : Nat) : Nat :=
  let l := s.dieReadings die
  if l.length = 0 then 96 else if l.length < 3 then l.getD (l.length - 1) 0 + 5 else l.getD (l.length / 2) 0

/-- The hottest die and its temperature. -/
def State.hottest (s : State) : Nat × Nat :=
  (List.range 13).foldl (fun b d => let t := s.dieTemp d; if b.2 < t then (d, t) else b) (0, s.dieTemp 0)

/-- A thermal cycle: TMAX rises above 85 °C after it has been below 45 °C. -/
def State.thermalCycle (s : State) (t : Nat) : State :=
  if t < 45 then { s with ledger := { s.ledger with cycleArmed := true } }
  else if 85 < t && s.ledger.cycleArmed then
    let s := { s with ledger := { s.ledger with cycleArmed := false } }.addSat F.ledgHoursCycles 1
    s.askLedger 17 0 (leBytes 4 (s.rd F.ledgHoursCycles) ++ leBytes 4 s.ledger.boots ++ leBytes 4 (s.rd F.hubIdStatRestarts) ++
      leBytes 36 0)
  else s

/-- THERMAL_LIMIT_STEP: `temps` are the readings of the 104 sensors, 8·die + sensor, at the end of an interval: 1 ms while the
hottest die is above 95 °C, 10 ms while it is below 93 °C. -/
def execThermalLimitStep (temps : List Nat) (s : State) : Host.Outcome State Fault Refusal :=
  .next (let s := { s with power := { s.power with temps := Tab.ofKeys 0 (List.range 104) fun k => temps.getD k 0 } }
    let h := s.hottest
    let s := ((s.wr F.pwrThermTmax (Nat.min 255 h.2)).wr F.pwrThermDie h.1).thermalCycle h.2
    let th := match s.power.thermal with
      | none => if 95 < h.2 then some s.power.estimate else none
      | some w => if 95 < h.2 then some (w - 25) else if h.2 < 93 then (if 1500 ≤ w + 25 then none else some (w + 25)) else some w
    { s with power := { s.power with thermal := th } }.showPower)

/-- THERMAL_TRIP: the hardware's trip at 115 °C: clocks stop, the main regulator goes off, THERMAL_TRIP is recorded. [DEDUCED log 96] -/
def execThermalTrip (die : Nat) (s : State) : Host.Outcome State Fault Refusal :=
  .next (if 13 ≤ die || !s.flag F.hubIdStatMainOn then s
    else
      let d := s.detected E.thermalTrip (8 * die)
      let s := (d.1.mainPowerLost).bump 4
      (s.raise E.thermalTrip (8 * die) (s.dieTemp die) 0 none d.2).showPower)

/-- SENSOR_FAULT: firmware marks a sensor faulted; it stays so until reset. -/
def execSensorFault (die sensor reading : Nat) (s : State) : Host.Outcome State Fault Refusal :=
  .next (let k := 8 * die + sensor
    if 13 ≤ die || 8 ≤ sensor || s.power.faultedSensors.contains k then s
    else
      let d := s.detected E.sensorFault k
      let s := { d.1 with power := { d.1.power with faultedSensors := k :: d.1.power.faultedSensors
                                                    temps := d.1.power.temps.setD k 0 reading } }
      let s := (s.wr F.pwrThermFaulted s.power.faultedSensors.length).bump 5
      s.raise E.sensorFault k reading 0 none d.2)

/-! ## Leak ropes (R379 to R381) -/

/-- The class of a rope's resistance: 0 DRY, 1 WET, 2 OPEN, 3 SHORT. [DEDUCED log 98] -/
def ropeClass (ohms : Nat) : Nat := if ohms < 500 then 3 else if ohms < 7000 then 1 else if ohms ≤ 13000 then 0 else 2

/-- Whether this module reads a rope: the plan uses it. [DEDUCED log 98] -/
def State.ropeUsed (s : State) (rope : Nat) : Bool := rope < 4 && (s.rd F.pwrLeakUsed).testBit rope

/-- The class last measured. [DEDUCED log 98] -/
def State.ropeState (s : State) (rope : Nat) : Nat := s.rd F.pwrLeakState / 4 ^ rope % 4

/-- Set or clear one bit of a field. -/
def State.wrBit (s : State) (f : Fld) (k : Nat) (on : Bool) : State :=
  let v := s.rd f
  s.wr f (if on then v ||| 2 ^ k else v - (if v.testBit k then 2 ^ k else 0))

/-- ROPE_MEASURE. -/
def State.ropeMeasure (s : State) (rope ohms : Nat) : State :=
  if !s.ropeUsed rope then s
  else
    let v := s.rd F.pwrLeakState
    let s := s.wr F.pwrLeakState (v - v / 4 ^ rope % 4 * 4 ^ rope + ropeClass ohms * 4 ^ rope)
    { s with power := { s.power with ropeOhms := s.power.ropeOhms.setD rope 0 ohms } }

/-- [DEDUCED log 98] -/
def execRopeMeasure (rope ohms : Nat) (s : State) : Host.Outcome State Fault Refusal := .next (s.ropeMeasure rope ohms)

/-- The cut latches: the main domain of both modules of the tray is reset, TRAY_MAIN_EN goes low, tray main power is gone. [DEDUCED log 96] -/
def State.cutNow (s : State) (rope : Nat) : State :=
  if s.phys.leakCut then s
  else
    let d := s.detected E.leakCut (0x100 + rope)
    let s := ((d.1.emit (.pin "TRAY_MAIN_RST_N" false)).emit (.pin "TRAY_MAIN_EN" false)).mainPowerLost
    let s := { s with phys := { s.phys with leakCut := true, trayMainEn := false } }.bump 6
    (s.raise E.leakCut (0x100 + rope) (s.power.ropeOhms.getD rope 0) 0 none d.2).showPower

/-- LEAK_CUT: a rope in use has read WET for 100 µs, and is not under test. -/
def execLeakCut (rope : Nat) (s : State) : Host.Outcome State Fault Refusal :=
  .next (if s.ropeUsed rope && s.ropeState rope = 1 && s.power.testing ≠ some rope then s.cutNow rope else s)

/-- The output that closes a rope's test shunt. -/
def shuntPin (rope : Nat) : String := match rope with
  | 0 => "LEAKTEST0" | 1 => "LEAKTEST1" | 2 => "LEAKTEST2" | _ => "LEAKTEST3"

/-- ROPE_TEST: one rope at a time; its shunt closes for 20 ms. [DEDUCED log 98] -/
def execRopeTest (rope : Nat) (s : State) : Host.Outcome State Fault Refusal :=
  .next (if s.ropeUsed rope && s.power.testing.isNone then
      { s with power := { s.power with testing := some rope } }.emit (.pin (shuntPin rope) true)
    else s)

/-- ROPE_TEST_END: 5 ms after the shunt opened. A rope that still reads WET is a leak; one that was not WET in the window or is
not DRY now has failed and is faulted; one that passes and is DRY is good. [DEDUCED log 98] -/
def execRopeTestEnd (rope : Nat) (wetInWindow : Bool) (ohms : Nat) (s : State) : Host.Outcome State Fault Refusal :=
  .next (if s.power.testing ≠ some rope then s
    else
      let s := { s with power := { s.power with testing := none } }.emit (.pin (shuntPin rope) false)
      let s := s.ropeMeasure rope ohms
      let c := ropeClass ohms
      let pass : Bool := wetInWindow && c = 0
      let s := s.wrBit F.pwrLeakTestFail rope (!pass)
      let was : Bool := (s.rd F.pwrLeakFaulted).testBit rope
      let s := s.wrBit F.pwrLeakFaulted rope (!pass)
      let s := if pass then (if was then s.report (.sensor (.ropeGood s.tray rope)) else s)
        else if was then s else s.report (.sensor (.ropeFaulted s.tray rope))
      if c = 1 then s.cutNow rope else s)

/-- ROPE_FAULT: a rope has read SHORT or OPEN for 1 s. -/
def execRopeFault (rope : Nat) (s : State) : Host.Outcome State Fault Refusal :=
  .next (if s.ropeUsed rope && 2 ≤ s.ropeState rope && !(s.rd F.pwrLeakFaulted).testBit rope then
      (s.wrBit F.pwrLeakFaulted rope true).report (.sensor (.ropeFaulted s.tray rope))
    else s)

/-! ## Inventory (R382) -/

/-- INVENTORY_SCAN: an item with a new serial number closes the record at its place as REMOVED and opens a new one; each changed
record is committed. -/
def State.inventoryItem (s : State) (f : InvRec) : State :=
  let inv := s.ledger.inventory
  let here := inv.find? fun r => r.cls = f.cls && r.pos = f.pos && r.state = 1
  if here.any fun r => r.serial = f.serial then s
  else
    let t := s.rackTime
    let closed := inv.map fun (r : InvRec) => if some r = here then { r with state := 2, removed := t } else r
    let new : InvRec := { f with state := 1, hours := 0, firstSeen := t, removed := 0 }
    let s := { s with ledger := { s.ledger with inventory := closed ++ [new] } }
    s.askLedger 11 (f.cls * 256 + f.pos) (invBytes new)

/-- The tray lead's scan, or the tray peer's once it has the lead's duty (01 R10). [DEDUCED log 135] -/
def execInventoryScan (found : List InvRec) (s : State) : Host.Outcome State Fault Refusal :=
  .next (found.foldl State.inventoryItem s)

end Sys2Proof.Machine
end

