-- ==== Sys2Proof/Machine/Drp.lean ====
section
/-! DEFINITION. The module as an agent of the conductor (14 R336, R337, R352 to R357): taking a COMMAND, the pairing window,
what each command does, acknowledgements and resends, presence contacts, and rack time (R347). -/

namespace Sys2Proof.Machine

/-! ## What a fence is and does here (R352; 03 R66; 05 R124) -/

/-- The ports of this module whose planned neighbour is a module. [DEDUCED log 103] -/
def State.portsTo (s : State) (id : Nat) : List Nat :=
  (List.range 144).filter fun p => (s.portPlan p).any fun x => x.cls ≠ 0 && x.farId = id

/-- The ports of this module that a fenced unit covers. A link is named by one of its ends; ports 144 to 151 are the Ethernet
ports. -/
def State.unitPorts (s : State) : FenceUnit → List Nat
  | .port p => [p]
  | .link m p => if m = s.self then [p] else (List.range 144).filter fun k =>
      (s.portPlan k).any fun x => x.cls ≠ 0 && x.farId = m && x.farPort = p
  | .endpoint ep => if ep / 32 % 16 = s.group then s.memberPortsOf (ep % 32) else []
  | .module id => if id = s.self then [] else s.portsTo id

/-- The number of a unit and its kind in the fence history: 1 link, 2 port, 3 endpoint, 4 module. [DEDUCED log 103] -/
def unitOf : FenceUnit → Nat × Nat
  | .link m p => (1, 256 * m + p)
  | .port p => (2, p)
  | .endpoint ep => (3, ep)
  | .module id => (4, id)

/-- Fence or release one port; an Ethernet port goes to MODE 0, and keeps it until it is configured again. [DEDUCED log 103] -/
def State.fenceAny (s : State) (p : Nat) : State :=
  if p < 144 then s.fencePort p
  else if p < 152 then ((s.ethDown (p - 144) 0).ethDown (p - 144) 1).wr F.ethCfgMode 0 (p - 144)
  else s

/-- The ranks of a group whose endpoints are fenced, rising. -/
def State.fencedRanks (s : State) (g : Group) : List Nat := g.live.filter fun r => s.epFenced (s.rankEp g r)

/-- A member was fenced: the live instances of its groups homed here end MEMBER_FENCED; a group of at most ABORT_MAX_MEMBERS
is suspended where slots of it are held, for an instance may live at any of their homes (05 R124). [DEDUCED log 101] -/
def State.memberFenced (s : State) (ep : Nat) : State :=
  s.groups.foldl (fun (s : State) (e : Nat × Group) =>
    let g := e.2
    let f := s.fencedRanks g
    if !(g.live.any fun r => s.rankEp g r = ep) then s
    else
      let held : Bool := s.slots.any fun x => x.2.bound.any fun b => b.group = e.1
      let s := if held && g.live.length ≤ s.plan.abortMax then { s with groups := s.groups.insert e.1 { g with suspended := true } } else s
      s.endInsts (fun slot _ _ => !s.isHelper slot && (s.slot slot).bound.any fun b => b.group = e.1) 0x0103 (f.headD 0x1FF) (rankBits f)) s

/-- Apply a FENCE: committed here and now. [DEDUCED log 103] -/
def State.applyFence (s : State) (u : FenceUnit) (cause : Nat) : State :=
  let n := unitOf u
  let s := s.fenceRecord n.1 n.2 cause false
  let s := match u with
    | .endpoint ep => { s with agent := { s.agent with epFenced := ep :: s.agent.epFenced.filter (· ≠ ep) } }
    | _ => s
  let s := s.each (s.unitPorts u) State.fenceAny
  match u with
  | .endpoint ep => s.memberFenced ep
  | _ => s

/-- The presence input of a port. -/
def State.presenceOf (s : State) (p : Nat) : Option Nat := (s.portPlan p).bind fun x => x.presence

/-- Whether a port's presence contact has been made for 1 s, or it has none (R354). -/
def State.contactMade (s : State) (p : Nat) : Bool :=
  match s.presenceOf p with
  | none => true
  | some i => (s.rd F.condPresPresent).testBit i && (match s.agent.presMade.getD i 0 with
      | 0 => true
      | t + 1 => decide (t + 1000000000 ≤ s.rackTime))

/-- A released port comes up for the roll call once its presence contact has been made for 1 s. [DEDUCED log 106] -/
def State.releasePort (s : State) (p : Nat) : State :=
  if 144 ≤ p then s
  else if s.contactMade p then
    let s := { s with agent := { s.agent with releaseWait := s.agent.releaseWait.filter (· ≠ p) } }
    (s.unfencePort p).modPort p fun x => { x with reported := false }
  else { s with agent := { s.agent with releaseWait := p :: s.agent.releaseWait.filter (· ≠ p) } }

/-- Released ports whose contact is now good. [DEDUCED log 106] -/
def State.releaseDue (s : State) : State := s.each (s.agent.releaseWait.filter s.contactMade) State.releasePort

/-- Apply a fence release: the PULLED bits of the ports' inputs clear (COND_PRES). [DEDUCED log 106] -/
def State.applyRelease (s : State) (u : FenceUnit) : State :=
  let n := unitOf u
  let s := s.fenceRecord n.1 n.2 3 true
  let s := match u with
    | .endpoint ep => { s with agent := { s.agent with epFenced := s.agent.epFenced.filter (· ≠ ep) } }
    | _ => s
  let ps := s.unitPorts u
  let s := s.each (ps.filterMap s.presenceOf) fun s i => s.wrBit F.condPresPulled i false
  s.each ps State.releasePort

/-! ## Drains (R349, R350) -/

/-- The counts of a DRAIN_STATE report: retained entries, live instances, streams in WAITING or SENDING. Entries and instances
of fenced endpoints count as drained (R351). -/
def State.drainCounts (s : State) (sl : Nat) : Nat × Nat × Nat :=
  let replay := s.inFlows.foldl (fun n (e : Nat × InFlow) => n + (e.2.entries.filter fun r => hget r.pkt.hdr H.slice = sl &&
    !(hget r.pkt.hdr H.smod = 0 && s.epFenced (hget r.pkt.hdr H.src)) && !(hget r.pkt.hdr H.dmod = 0 && hget r.pkt.hdr H.mcast = 0 &&
      s.epFenced (hget r.pkt.hdr H.dst))).length) 0
  let live := (s.insts.filter fun e => (match s.bindingOf (e.1 / 65536) with
    | some (_, g) => g.dfn.slice = sl
    | none => false)).length
  let streams := (s.runs.filter fun e => e.2.live && (s.streamOf (e.1 % 1024)).slice = sl && e.1 / 1024 = s.sepoch).length
  (replay, live, streams)

/-- Report a held slice's counts where they have changed since the last report. -/
def State.drainReport (s : State) (sl : Nat) : State :=
  let c := s.drainCounts sl
  let told := (s.agent.drainTold.find? fun d => d.1 = sl).map fun d => d.2
  if told = some c then s
  else
    let a := s.agent
    ({ s with agent := { a with drainTold := (sl, c) :: a.drainTold.filter fun d => d.1 ≠ sl } }).report
      (.drainState s.self sl c.1 c.2.1 c.2.2)

/-- INGRESS_HOLD of the conductor: the ports, and with them the streams of their slices. -/
def State.applyHold (s : State) (ports : Nat) (set : Bool) : State :=
  let s := s.holdPorts ports set
  let ps := (List.range 144).filter fun p => ports.testBit p
  let sls := ((ps.map fun p => s.tables.portSlice.getD p 0).filter fun v => 256 ≤ v).map (· % 256) |>.eraseDups
  if set then
    let s := { s with streamHeld := sls ++ s.streamHeld.filter fun x => !sls.contains x
                      agent := { s.agent with drainTold := s.agent.drainTold.filter fun d => !sls.contains d.1 } }
    s.each sls State.drainReport
  else
    { s with streamHeld := s.streamHeld.filter fun x => !sls.contains x
             agent := { s.agent with drainTold := s.agent.drainTold.filter fun d => !sls.contains d.1 } }

/-- Discard the packets of a slice that wait in an output queue and have not begun to leave. [DEDUCED log 33, 102] -/
def State.dropSlice (s : State) (k sl : Nat) : State :=
  let gone (o : OutPkt) : Bool := o.sent = 0 && hget (o.flits.headD 0) H.slice = sl
  let os := s.outqOf k
  (os.filter gone).foldl (fun (s : State) (o : OutPkt) =>
    (s.releaseAll k o.chg).detach k o) (s.putOutqOf k (os.filter fun o => !gone o))

/-- The forced end of a drain (R350): flows end, instances end ABORTED, streams end CUT, held packets are discarded. [DEDUCED log 102] -/
def State.forceDrain (s : State) (sl : Nat) : State :=
  let flows := s.inFlows.filterMap fun (e : Nat × InFlow) =>
    (e.2.entries.find? fun r => hget r.pkt.hdr H.slice = sl).map fun r => (e.1, r.pkt.hdr)
  let s := flows.foldl (fun (s : State) (f : Nat × Flit) => s.endFlow f.1 f.2) s
  let s := s.endInsts (fun slot _ _ => !s.isHelper slot && (match s.bindingOf slot with
    | some (_, g) => g.dfn.slice = sl
    | none => false)) 0x0107 0x1FF 0
  let s := s.endRuns (fun k => (s.streamOf (k % 1024)).slice = sl) 5
  let s := s.each (s.outq.map fun e => e.1) fun s k => s.dropSlice k sl
  let s := { s with egFlows := s.egFlows.map fun (e : Nat × EgFlow) => (e.1, { e.2 with held := e.2.held.filter fun h =>
      !(h.pkt.any fun (p : Packet) => hget p.hdr H.slice = sl) }) }
  s.raise E.drainForced 255

/-! ## Groups (05 R107, R108, R122, R125) -/

/-- A re-form: the epoch and the vacant ranks change, live instances of the group's slots end REFORMED, slots whose ROOT is vacant
are unbound, the others take the new hash and run their next steps ORDERED. [DEDUCED log 101] -/
def State.applyReform (s : State) (gid gepoch : Nat) (vacant : List Nat) : State :=
  match s.groups.find gid with
  | none => s
  | some g =>
    let new := { g with gepoch := gepoch, vacant := vacant, suspended := false }
    let made := vacant.filter fun r => !g.vacant.contains r
    let slots := (s.slots.filter fun e => e.2.bound.any fun b => b.group = gid).map fun e => e.1
    let s := { s with groups := s.groups.insert gid new }
    let s := s.endInsts (fun slot _ _ => slots.contains slot && !s.isHelper slot) 0x0102 (made.headD 0x1FF) (rankBits new.live)
    s.each slots fun s slot =>
      match (s.slot slot).bound with
      | none => s
      | some b =>
        if (b.op = 1 || b.op = 4) && vacant.contains b.root then s.dropBinding slot
        else s.modSlot slot fun x => { x with
          hash := descHashOf b gepoch, imposedLeft := if b.disc = 0 then s.plan.reformSteps else x.imposedLeft }

/-- INSTANCE_END: at the home the live instances of the slot end, a TIMEOUT with the ranks found missing (R120, R121); for a home that is
lost, the members of this module's group hear ABORT for all steps, which is recorded here, and what this module held for that home is
gone (R125, R136). [DEDUCED log 100] -/
def State.applyInstanceEnd (s : State) (home slot gid : Nat) (step : Option Nat) (status : Nat) : State :=
  if home = s.self then
    (s.insts.filter fun e => e.1 / 65536 = slot && step.all fun x => x = e.1 % 65536).foldl (fun s e =>
      let miss := if status = 0x0101 then e.2.missing else []
      s.endInst slot (e.1 % 65536) status (miss.headD 0x1FF) (rankBits miss) 0) s
  else
    match s.groups.find gid with
    | none => s
    | some g =>
      let h := mkHdr [(H.ptype, PT.collCtrl), (H.tc, 1), (H.slice, g.dfn.slice), (H.group, gid), (H.gepoch, g.gepoch), (H.slot, slot),
        (H.step, step.getD 0), (H.allSteps, if step.isNone then 1 else 0), (H.ccode, 1), (H.status, status), (H.nrank, 0x1FF)]
      let s := (s.liveIn g s.group).foldl (fun s r => s.toRank slot g r h [] .notice) s
      let s := s.recordEnd slot (step.getD 0) status 0x1FF g.gepoch 0
      if (s.slot slot).helper = some home then
        let s := (s.insts.filter fun e => e.1 / 65536 = slot).foldl (fun s e => s.freeWaiting slot e.2) s
        ({ s with insts := s.insts.filter fun e => e.1 / 65536 ≠ slot }).putSlot slot {}
      else s

/-! ## The effect of each COMMAND (R337, R370, R379) -/

/-- The members of a slice's entries in the shadow tables are written invalid (R348). -/
def State.releaseSlice (s : State) (sl : Nat) : State :=
  let t := s.shadow
  ({ s with shadow := { t with sliceLset := t.sliceLset.erase sl, sliceCols := t.sliceCols.erase sl
                               spray := t.spray.filter fun e => e.1 / 1024 ≠ sl
                               portSlice := t.portSlice.filter fun e => e.2 ≠ 256 + sl
                               regions := t.regions.filter fun e => e.2.slice ≠ sl }
            verifySlices := s.verifySlices.filter (· ≠ sl) }).showPending

/-- A POWER DOMAIN command for the tray of this module. An orderly stop commits the hours and STOP CLEAN (16 R396). -/
def State.domain (s : State) (on : Bool) : State × Nat :=
  if on then
    if s.phys.leakCut || !s.phys.standby then (s, St.notPermitted)
    else (({ s with phys := { s.phys with trayMainEn := true } }.emit (.pin "TRAY_MAIN_EN" true)).showPower, St.ok)
  else
    let s := (s.askLedger 1 0 (leBytes 4 (s.rd F.ledgHoursHoursMain) ++ leBytes 4 s.hoursStby ++
      leBytes 4 (s.rd F.ledgHoursUnclean) ++ leBytes 8 s.rackTime ++ leBytes 28 0)).askLedger 2 0 (leBytes 8 s.rackTime ++ leBytes 1 1 ++ leBytes 39 0)
    let s := { s with phys := { s.phys with trayMainEn := false } }.emit (.pin "TRAY_MAIN_EN" false)
    ((if s.phys.mainPg then s.mainPowerLost else s).showPower, St.ok)

/-- CLEAR_CUT: accepted when every rope in use reads DRY and none is faulted. -/
def State.clearCut (s : State) : State × Nat :=
  if (List.range 4).all fun r => !s.ropeUsed r || (s.ropeState r = 0 && !(s.rd F.pwrLeakFaulted).testBit r) then
    ({ s with phys := { s.phys with leakCut := false } }.showPower, St.ok)
  else (s, St.notPermitted)

/-- POWER CAP: kept as the last one applied; the conductor speaks, so the orphan share lapses. [DEDUCED log 96] -/
def State.takeCap (s : State) (w source expiry survival : Nat) : State :=
  let s := { s with power := { s.power with cap := some w, capSource := source, capExpiry := expiry, survivalW := survival
                                            brakeOrdered := decide (source = 1), orphan := none } }
  (s.wr F.pwrCfgSurvivalW survival).showPower

/-- The effect of a COMMAND on its agent, and the status of its RESULT. -/
def State.applyCmd (s : State) : CmdBody → State × Nat
  | .fence u => (s.applyFence u 3, St.ok)
  | .fenceRelease u => (s.applyRelease u, St.ok)
  | .powerCap w source expiry survival => (s.takeCap w source expiry survival, St.ok)
  | .powerDomain on => s.domain on
  | .powerClearCut => s.clearCut
  | .tableWrite table first entries => match s.writeTable table first entries with
    | some s => (s, St.ok)
    | none => (s, St.field)
  | .tableSwitch gen time => ({ s with agent := { s.agent with pendingSwitch := some (gen, time) } }, St.ok)
  | .ingressHold ports set => (s.applyHold ports set, St.ok)
  | .sliceRelease sl => (s.releaseSlice sl, St.ok)
  | .groupDefine g r0 c0 h w =>
    ({ s with groups := s.groups.insert g.group { dfn := g, r0 := r0, c0 := c0, height := h, width := w } }, St.ok)
  | .groupDelete g ask =>
    let slots := (s.slots.filter fun e => e.2.bound.any fun b => b.group = g).map fun e => e.1
    if ask then (s, if s.insts.any fun e => slots.contains (e.1 / 65536) then St.running else St.ok)
    else
      let s := s.each slots State.dropBinding
      ({ s with groups := s.groups.erase g }, St.ok)
  | .groupReform g gepoch vacant => (s.applyReform g gepoch vacant, St.ok)
  | .plan image => (s.askLedger 8 0 image, St.ok)
  | .stage code => (s.wr F.condStatStage code, St.ok)
  | .instanceEnd home slot g step status => (s.applyInstanceEnd home slot g step status, St.ok)
  | .probe ep => (s.report (.probeResult ep ((s.memberLinks (ep % 32)) ≠ [] && !s.epFenced ep)), St.ok)
  | .region i base size slice mode =>
    let r : Region := { base := base, size := size, slice := slice, mode := mode }
    if s.regionFits i r then (s.putRegion i r, St.ok) else (s, St.regionInvalid)
  | .streamCut sl => (s.forceDrain sl, St.ok)

/-! ## Taking a COMMAND (R336, R356) -/

/-- Whether a command is critical (R337). -/
def cmdCritical : CmdBody → Bool
  | .fence _ | .fenceRelease _ | .powerCap _ _ _ _ | .powerDomain _ | .powerClearCut | .sliceRelease _ => true
  | _ => false

/-- Whether a rack time lies within the last `n` ns. -/
def State.recent (s : State) (t : Option Nat) (n : Nat) : Bool := t.any fun x => decide (s.rackTime ≤ x + n)

/-- Whether the pair is DUAL as this agent hears it: heartbeats of both conductors within 3 ms. [DEDUCED log 104] -/
def State.hearsBoth (s : State) : Bool := s.recent s.agent.heardPrimary 3000000 && s.recent s.agent.heardSecondary 3000000

/-- The GEN of a TABLE_SWITCH that waits for its time, whose result is reported once the switch is made (03 R57). [DESIGN CHOICE log 139] -/
def switchGen : CmdBody → Option Nat
  | .tableSwitch gen _ => some gen
  | _ => none

/-- Act on a command: it joins the DSEQs acted on, and its result is reported, that of a TABLE_SWITCH once the tables have switched. [DEDUCED log 104] -/
def State.actOn (s : State) (m : DrpMsg) (b : CmdBody) : State :=
  let s := { s with agent := { s.agent with seen := (m.seq :: s.agent.seen.filter (· ≠ m.seq)).take 4096 } }
  let r := s.applyCmd b
  match (switchGen b).filter fun _ => r.1.flag F.hubIdStatMainOn with
  | some gen => { r.1 with agent := { r.1.agent with switchTold := r.1.agent.switchTold ++ [(m.seq, gen)] } }
  | none => r.1.report (.result r.1.self m.seq (if (switchGen b).isSome then St.powerOff else r.2))

/-- Whether a copy is a later one. -/
def Agent.later (a : Agent) (seq : Nat) : Bool :=
  a.seen.contains seq || (4096 ≤ a.seen.length && a.seen.all fun x => decide (seq < x))

/-- The command that a copy carries, none for any other message. -/
def drpCmd (m : DrpMsg) : Option CmdBody := match m.body with | .cmd b => some b | _ => none

/-- Receive one copy of a command in the current term: acknowledged, then acted on, held for its pair, or discarded. [DEDUCED log 104] -/
def State.copyIn (s : State) (m : DrpMsg) (b : CmdBody) : State :=
  let s := s.emit (.ack s.self m.seq)
  let twin := s.agent.held.find? fun h => h.seq = m.seq && h.secondary ≠ m.secondary
  if s.agent.later m.seq && !m.reassert then s
  else if !m.critical || m.reassert then s.actOn m b
  else
    match twin with
    | some h =>
      let s := { s with agent := { s.agent with held := s.agent.held.filter fun x => x.seq ≠ m.seq } }
      let c := s.check E.conductorDiverged s.self (h.digest ≠ m.digest) m.seq
      let first := if c.2 && h.secondary then m else h
      c.1.actOn first ((drpCmd first).getD b)
    | none =>
      if (s.agent.held.any fun h => h.seq = m.seq) then s
      else if s.hearsBoth then { s with agent := { s.agent with held := s.agent.held ++ [m] } }
      else s.actOn m b

/-- Take one DRP message of the command rows: from the Ethernet, or waiting from the fabric. A bad one is discarded and recorded. [DEDUCED log 104] -/
def State.drpTake (s : State) (m : DrpMsg) : Option State :=
  if m.ethernet then
    let c := (s.ev U.hub 0x04).check E.drpDiscard s.self (!drpOk m) m.seq
    if c.2 then none else some c.1
  else if s.agent.rxq.contains m then some { s with agent := { s.agent with rxq := s.agent.rxq.erase m } } else none

/-- What the check of a bad message leaves. -/
def State.drpBad (s : State) (m : DrpMsg) : State :=
  if m.ethernet then ((s.ev U.hub 0x04).check E.drpDiscard s.self (!drpOk m) m.seq).1 else s

/-- A COMMAND row: the message is addressed to this module and of the current term; a module that has accepted no term takes the
message's. Lower terms are discarded; a higher term is accepted with CONFIRM only (R356, R358). [DEDUCED log 104] -/
def State.command (s : State) (m : DrpMsg) (kind : CmdBody → Bool) : State :=
  match drpCmd m with
  | none => s
  | some b =>
    if !kind b || m.agent ≠ s.self || m.dclass ≠ 4 then s
    else
      match s.drpTake m with
      | none => s.drpBad m
      | some s =>
        let cur := s.rd F.condStatCterm
        if cur ≠ 0 && m.cterm ≠ cur then s
        else ((if cur = 0 then s.wr F.condStatCterm (m.cterm % 65536) else s).copyIn { m with critical := cmdCritical b } b).settle

def execDrpFence (msg : DrpMsg) (s : State) : Host.Outcome State Fault Refusal :=
  .next (s.command msg fun b => match b with | .fence _ => true | _ => false)

def execDrpFenceRelease (msg : DrpMsg) (s : State) : Host.Outcome State Fault Refusal :=
  .next (s.command msg fun b => match b with | .fenceRelease _ => true | _ => false)

def execDrpPowerCap (msg : DrpMsg) (s : State) : Host.Outcome State Fault Refusal :=
  .next (s.command msg fun b => match b with | .powerCap _ _ _ _ => true | _ => false)

def execDrpPowerDomain (msg : DrpMsg) (s : State) : Host.Outcome State Fault Refusal :=
  .next (s.command msg fun b => match b with | .powerDomain _ => true | _ => false)

def execDrpPowerClearCut (msg : DrpMsg) (s : State) : Host.Outcome State Fault Refusal :=
  .next (s.command msg fun b => match b with | .powerClearCut => true | _ => false)

def execDrpTableWrite (msg : DrpMsg) (s : State) : Host.Outcome State Fault Refusal :=
  .next (s.command msg fun b => match b with | .tableWrite _ _ _ => true | _ => false)

def execDrpTableSwitch (msg : DrpMsg) (s : State) : Host.Outcome State Fault Refusal :=
  .next (s.command msg fun b => match b with | .tableSwitch _ _ => true | _ => false)

def execDrpIngressHold (msg : DrpMsg) (s : State) : Host.Outcome State Fault Refusal :=
  .next (s.command msg fun b => match b with | .ingressHold _ _ => true | _ => false)

def execDrpSliceRelease (msg : DrpMsg) (s : State) : Host.Outcome State Fault Refusal :=
  .next (s.command msg fun b => match b with | .sliceRelease _ => true | _ => false)

def execDrpGroupDefine (msg : DrpMsg) (s : State) : Host.Outcome State Fault Refusal :=
  .next (s.command msg fun b => match b with | .groupDefine _ _ _ _ _ => true | _ => false)

def execDrpGroupDelete (msg : DrpMsg) (s : State) : Host.Outcome State Fault Refusal :=
  .next (s.command msg fun b => match b with | .groupDelete _ _ => true | _ => false)

def execDrpGroupReform (msg : DrpMsg) (s : State) : Host.Outcome State Fault Refusal :=
  .next (s.command msg fun b => match b with | .groupReform _ _ _ => true | _ => false)

def execDrpPlan (msg : DrpMsg) (s : State) : Host.Outcome State Fault Refusal :=
  .next (s.command msg fun b => match b with | .plan _ => true | _ => false)

def execDrpStage (msg : DrpMsg) (s : State) : Host.Outcome State Fault Refusal :=
  .next (s.command msg fun b => match b with | .stage _ => true | _ => false)

def execDrpInstanceEnd (msg : DrpMsg) (s : State) : Host.Outcome State Fault Refusal :=
  .next (s.command msg fun b => match b with | .instanceEnd _ _ _ _ _ => true | _ => false)

def execDrpProbe (msg : DrpMsg) (s : State) : Host.Outcome State Fault Refusal :=
  .next (s.command msg fun b => match b with | .probe _ => true | _ => false)

def execDrpRegion (msg : DrpMsg) (s : State) : Host.Outcome State Fault Refusal :=
  .next (s.command msg fun b => match b with | .region _ _ _ _ _ => true | _ => false)

def execDrpStreamCut (msg : DrpMsg) (s : State) : Host.Outcome State Fault Refusal :=
  .next (s.command msg fun b => match b with | .streamCut _ => true | _ => false)

/-- PAIR_WINDOW: 50 µs after its copy came, the oldest held command is acted on alone. [DEDUCED log 104] -/
def State.pairWindowEnds (s : State) : State :=
  match s.agent.held with
  | [] => s
  | m :: r =>
    let s := { s with agent := { s.agent with held := r } }
    let e := s.detected E.pairWindow s.self
    let s := e.1.raise E.pairWindow s.self m.seq 0 none e.2
    match drpCmd m with
    | some b => s.actOn m b
    | none => s

def execPairWindow (s : State) : Host.Outcome State Fault Refusal := .next s.pairWindowEnds.settle

/-! ## Acknowledgements and resends (R336, R339) -/

/-- DRP_ACK_RECEIVE: the INPUT, or at a conductor the output, is acknowledged. -/
def execDrpAckReceive (input : Bool) (agent seq : Nat) (s : State) : Host.Outcome State Fault Refusal :=
  .next (let s := s.ev U.hub 0x04
    let clear (s : State) : State :=
      { s with agent := { s.agent with resends := s.agent.resends.erase (2 * seq + (if input then 1 else 0)) } }
    if input then
      (if agent = s.self then
        clear { s with agent := { s.agent with unacked := s.agent.unacked.filter fun e => e.1 ≠ seq } } else s)
    else clear { s with cond := { s.cond with outs := s.cond.outs.filter fun o => !(o.dseq = seq && o.agent = agent) } })

/-- One more resend over the Ethernet, at most 50. -/
def State.countResend (s : State) (k : Nat) : Option State :=
  let n := s.agent.resends.getD k 0
  if 50 ≤ n then none else some { s with agent := { s.agent with resends := s.agent.resends.setD k 0 (n + 1) } }

/-- The DTYPE of a command (R337). -/
def cmdType : CmdBody → Nat
  | .fence _ => 1
  | .fenceRelease _ => 2
  | .powerCap _ _ _ _ | .powerDomain _ | .powerClearCut => 3
  | .tableWrite _ _ _ => 4
  | .tableSwitch _ _ => 5
  | .ingressHold _ _ => 6
  | .sliceRelease _ => 7
  | .groupDefine _ _ _ _ _ | .groupDelete _ _ | .groupReform _ _ _ => 8
  | .plan _ => 9
  | .stage _ => 10
  | .instanceEnd _ _ _ _ _ => 11
  | .probe _ => 12
  | .region _ _ _ _ _ | .streamCut _ => 13

/-- The DRP message of an output of the machine (R339): the digest is over what R336 names. -/
def State.outMsg (s : State) (o : CondOut) (reassert ethernet : Bool) : DrpMsg :=
  let body := DrpBody.cmd o.body
  { dver := 1, dclass := 4, dtype := cmdType o.body, cterm := s.rd F.condStatCterm, secondary := decide (s.rd F.condStatRole = 2)
    critical := o.critical, ethernet := ethernet, reassert := reassert, needsAck := true, seq := o.dseq, agent := o.agent
    digest := drpDigest 4 (cmdType o.body) o.dseq o.agent body, rtime := s.rackTime, body := body }

/-- DRP_RESEND: 2 ms passed without an acknowledgement. -/
def execDrpResend (input : Bool) (agent seq : Nat) (s : State) : Host.Outcome State Fault Refusal :=
  .next (match s.countResend (2 * seq + (if input then 1 else 0)) with
    | none => s
    | some t =>
      if input then
        match s.agent.unacked.find? fun e => e.1 = seq with
        | some (_, r) => if agent = s.self then (t.emit (.report r seq)).ev U.hub 0x03 else s
        | none => s
      else
        match s.cond.outs.find? fun o => o.dseq = seq && o.agent = agent with
        | some o => (t.emit (.drp true agent (s.outMsg o false true))).ev U.hub 0x03
        | none => s)

/-! ## Presence contacts (R353, R354) -/

/-- PRESENCE_BREAK: the input broke for 1 µs: the ports mapped to it are fenced in hardware, and PULL is reported. [DEDUCED log 106] -/
def State.presenceBreak (s : State) (input : Nat) : State :=
  if 16 ≤ input || !(s.rd F.condPresPresent).testBit input then s
  else
    let s := (s.wrBit F.condPresPresent input false).wrBit F.condPresPulled input true
    let s := { s with agent := { s.agent with presMade := s.agent.presMade.erase input } }
    let ports := (List.range 144).filter fun p => s.presenceOf p = some input
    let s := s.each ports fun s p =>
      if s.stage p = Stage.fenced then s else (s.fencePort p).fenceRecord 2 p 4 false
    s.report (.pull s.self input)

def execPresenceBreak (input : Nat) (s : State) : Host.Outcome State Fault Refusal := .next (s.presenceBreak input).settle

/-- PRESENCE_RESTORE: the contact is made again. [DEDUCED log 106] -/
def execPresenceRestore (input : Nat) (s : State) : Host.Outcome State Fault Refusal :=
  .next (if 16 ≤ input || (s.rd F.condPresPresent).testBit input then s
    else
      let s := s.wrBit F.condPresPresent input true
      { s with agent := { s.agent with presMade := s.agent.presMade.setD input 0 (s.rackTime + 1) } })

/-! ## Rack time (R347) -/

/-- TIME_EXCHANGE: this module's timestamp leaves on an ACTIVE link to a module. [DEDUCED log 107] -/
def execTimeExchange (port : Nat) (s : State) : Host.Outcome State Fault Refusal :=
  .next (if s.active port && !s.isMemberPort port then (s.emit (.timeStamp port s.rackTime)).ev U.hub 0x03 else s)

/-- Whether a port leads to this module's parent in the tree of R347: the source itself in its plane, the own group's other module
in the other plane. [DEDUCED log 107] -/
def State.timeParent (s : State) (port : Nat) : Bool :=
  match s.portPlan port with
  | none => false
  | some x =>
    s.self ≠ s.agent.acting && x.cls ≠ 0 &&
      (if (s.self / 16 % 2 = s.agent.acting / 16 % 2) then x.farId = s.agent.acting else x.farId % 16 = s.group)

/-- TIME_RECEIVE: `t1` sent here, `t2` received and `t3` sent at the far side, `t4` received here. The offset is half the
difference of the two ways. A module whose time is not yet set takes it; afterwards it steers by frequency, within 50 ppm, by an
amount the spec leaves open. [DEDUCED log 107] -/
def State.timeReceive (s : State) (port t1 t2 t3 t4 : Nat) : State :=
  if !s.active port || !s.timeParent port then s
  else
    let off : Int := ((Int.ofNat t2 - Int.ofNat t1) + (Int.ofNat t3 - Int.ofNat t4)) / 2
    if !s.phys.timeSet then { s with phys := { s.phys with timeSet := true, timeOffset := s.phys.timeOffset + off } }
    else
      let d := s.draw
      let n : Int := Int.ofNat (Config.freeNat d.1 % 51)
      let s := { d.2 with phys := { d.2.phys with timeSlewPpm := if off < 0 then -n else n } }
      (s.check E.timeDegraded s.self (decide (20 < off.natAbs))).1

/-- [DEDUCED log 107] -/
def execTimeReceive (port t1 t2 t3 t4 : Nat) (s : State) : Host.Outcome State Fault Refusal := .next (s.timeReceive port t1 t2 t3 t4)

end Sys2Proof.Machine
end

