-- ==== Sys2Proof/Machine/Cond.lean ====
section
/-! DEFINITION. The conductor's log, outputs, answers and events (14 R336 to R339): how the sequencer numbers, stores and forwards
an entry, and how the machine's outputs leave. Modes of COND_STAT: 0 NONE, 1 LEAD, 2 SOLO, 3 FOLLOW, 4 SHADOW, 5 COLD, 6 OUT. -/

namespace Sys2Proof.Machine

/-! ## Who this module is in the pair (R332, R355) -/

def State.cmode (s : State) : Nat := s.rd F.condStatMode

/-- Whether this conductor acts: it sequences the log. -/
def State.sequences (s : State) : Bool := s.cmode = 1 || s.cmode = 2

/-- The other conductor of the plan. -/
def State.partner (s : State) : Nat := if s.plan.primary = s.self then s.plan.secondary else s.plan.primary

/-- The modules of the plan but this one. -/
def State.others (s : State) : List Nat := s.plan.modules.filter (· ≠ s.self)

/-- The compute trays' node tray controllers as agents, and the rack manager. -/
def trayAgent (t : Nat) : Nat := 0x100 + t

def rmAgent : Nat := 0x200

/-- The modules of a switch tray: the plane A module of group t and the plane B module of group t + 4 (01 R10). R10 gives eight
trays, and the same sum stands for a number beyond them. [DESIGN CHOICE log 143] -/
def trayModules (t : Nat) : List Nat := [t, 16 + (t + 4) % 8]

/-- The switch tray of a module (01 R10): of a plane A module its group's number, of a plane B module (group + 4) mod 8, also where a
plan has more than the eight groups that R10 gives trays for. [DESIGN CHOICE log 143] -/
def moduleTray (id : Nat) : Nat := if id < 16 then id else (id % 16 + 4) % 8

/-! ## Outputs (R339) -/

/-- The fabric or Ethernet copy of an output; one for this module's own agent waits in its buffer. -/
def State.sendCopies (s : State) (o : CondOut) (reassert : Bool) : State :=
  if o.agent = s.self then
    { s with agent := { s.agent with rxq := s.agent.rxq ++ [s.outMsg o reassert false] } }
  else
    let s := if o.agent < 0x100 then (s.emit (.drp false o.agent (s.outMsg o reassert false))).ev U.hub 0x03 else s
    (s.emit (.drp true o.agent (s.outMsg o reassert true))).ev U.hub 0x03

/-- The digest of an output (R336). -/
def outDigest (o : CondOut) : BitVec 128 := drpDigest 4 (cmdType o.body) o.dseq o.agent (.cmd o.body)

/-- One output of the machine: the next DSEQ, kept until its result is logged or it is acknowledged. Both conductors send it; a
shadowing or replaying one does not. -/
def State.output (s : State) (agent : Nat) (body : CmdBody) : State :=
  let c := s.cond
  let o : CondOut := { dseq := c.dseq, agent := agent, critical := cmdCritical body, body := body }
  let s := { s with cond := { c with dseq := c.dseq + 1, outs := c.outs ++ [o] }
                    pair := { s.pair with newDigests := s.pair.newDigests ++ [(o.dseq, outDigest o)]
                                          sent := (o :: s.pair.sent).take 4096 } }
  if s.cmode = 1 || s.cmode = 2 || s.cmode = 3 then s.sendCopies o false else s

/-- The same output to several agents. -/
def State.outputs (s : State) (agents : List Nat) (body : CmdBody) : State := agents.foldl (fun s a => s.output a body) s

/-- The DSEQs of the outputs since one, which a procedure waits for. -/
def State.sinceDseq (s : State) (from_ : Nat) : List Nat := (List.range (s.cond.dseq - from_)).map (from_ + ·)

/-- The answer to a conductor command: the acting conductor completes its own mailbox, or answers the module that forwarded it. -/
def State.answer (s : State) (tag : Nat × MbxRef) (status : Nat) (rsp : List Byte := []) (detail : Nat := 0) : State :=
  if !s.sequences then s
  else if tag.1 = s.self then
    ({ s with waitCmds := s.waitCmds.filter fun w => !(w.1 = tag.2 && w.2.1 = 2) }).complete tag.2 status rsp detail
  else s.emit (.condAnswer tag.1 tag.2 status detail rsp)

/-- A conductor event: kept for EVENT_READ, told to the runtime, and vector 45 at each conductor (13 R330). Kinds: 1 LINK_MISSING,
2 LINK_FAILED, 3 MISWIRED, 4 quarantine, 5 slice held, 6 pair state, 7 endpoint state, 8 XLINK_LOST, 9 fence, 10 stage,
11 FLOW_LOW, 12 NO_REDUNDANCY, 13 LEASE_EXPIRED, 14 guard, 15 leak, 16 shard LOST, 17 group suspended, 18 the stop of a tray. [DEDUCED log 122] -/
def State.event (s : State) (kind unit : Nat) : State :=
  let c := s.cond
  let s := { s with cond := { c with events := c.events ++ [(c.nextEvent, kind, unit)], nextEvent := c.nextEvent + 1 } }
  if s.cmode = 1 || s.cmode = 2 || s.cmode = 3 then (s.emit (.event kind unit)).irq 45 else s

/-! ## The log (R338, R339) -/

/-- The DTYPE of a report (R337). -/
def reportType : Report → Nat
  | .rollcall _ _ _ _ => 0x0101
  | .linkEvent _ _ _ => 0x0102
  | .pull _ _ => 0x0103
  | .missingRanks _ _ _ _ => 0x0104
  | .binding _ _ _ _ => 0x0105
  | .drainState _ _ _ _ _ => 0x0106
  | .error _ _ _ _ => 0x0107
  | .rcsCmd _ _ _ _ _ => 0x0108
  | .result _ _ _ => 0x0109
  | .sensor _ => 0x010A
  | .probeResult _ _ | .linkProbeLost _ _ => 0x010B
  | .timer => 0x010C

/-- The bytes of a log entry (R338). -/
def entryBytes (e : LogEntry) : List Byte :=
  let body := Config.drpBody (.report e.report)
  leBytes 8 e.index ++ leBytes 8 e.rtime ++ leBytes 2 e.agent ++ leBytes 2 (reportType e.report) ++ leBytes 8 e.aseq ++
  leBytes 2 body.length ++ leBytes 2 0 ++ body

/-- A logged entry is forwarded to the other conductor; a conductor that acts alone may run it at once, one in a DUAL pair once the
other has committed it. -/
def State.forwardEntry (s : State) (e : LogEntry) : State :=
  let s := (s.emit (.pairForward e)).ev U.hub 0x03
  if s.cmode = 1 then s else { s with cond := { s.cond with ready := s.cond.ready ++ [e] } }

/-- The sequencer logs an input: the next index, stored, and forwarded. [DEDUCED log 121] -/
def State.logInput (s : State) (agent aseq : Nat) (r : Report) : State :=
  let c := s.cond
  let e : LogEntry := { index := c.nextIdx, rtime := s.rackTime, agent := agent, aseq := aseq, report := r }
  let s := { s with cond := { c with log := c.log ++ [e], nextIdx := c.nextIdx + 1
                                     seenInputs := if r = Report.timer then c.seenInputs else (agent, aseq) :: c.seenInputs } }
  (s.askLedger 10 (e.index % 65536) (entryBytes e)).forwardEntry e

/-- Take the front of the entries that may be run, when it is of the kind a row runs. [DEDUCED log 121] -/
def State.nextEntry (s : State) (kind : Report → Bool) : Option (LogEntry × State) :=
  match s.cond.ready with
  | [] => none
  | e :: r =>
    if !kind e.report then none
    else some (e, { s with cond := { s.cond with ready := r, lastRun := e.index } }.wr F.condStatLogidx (e.index % 2 ^ 32))

end Sys2Proof.Machine
end

