-- ==== Sys2Proof/Machine/Plan.lean ====
section
/-! DEFINITION. What the conductor computes from the plan and from what it has heard (01 R6 to R15; 03 R60, R61; 04 R97; 14 R335,
R342, R348): the checks of a plan, slices and their link sets, the contents of the routing tables, and the states of pairs and
endpoints. -/

namespace Sys2Proof.Machine

/-! ## Plans (R335, R343) -/

/-- The ports that the plan assigns: module, port, assignment. -/
def Plan.assigned (p : Plan) : List (Nat × Nat × PortPlan) := p.ports.map fun (e : Nat × PortPlan) => (e.1 / 256, e.1 % 256, e.2)

/-- Whether one assignment keeps R8: a member link leads to an endpoint of the module's own group; a global link joins the same
index of another group in the same plane; a crosslink joins the same index in the group's other plane. -/
def Plan.portOk (p : Plan) (m k : Nat) (x : PortPlan) : Bool :=
  let back : Bool := (p.ports.find (256 * x.farId + x.farPort)).any fun y =>
    y.cls = x.cls && y.farId = m && y.farPort = k && y.link = x.link
  p.modules.contains m && k < 144 &&
  (if x.cls = 0 then x.endpoint / 32 = m % 16 && x.endpoint % 32 < p.m && x.link < p.lm && x.tray < 32 && x.pos < 4
   else if x.cls = 1 then x.link < p.lg && x.farId / 16 = m / 16 && x.farId % 16 ≠ m % 16 && p.modules.contains x.farId && back
   else if x.cls = 2 then x.link < p.lx && x.farId / 16 ≠ m / 16 && x.farId % 16 = m % 16 && back
   else false) &&
  x.presence.all fun i => i < 16

/-- Whether no two member ports of a module give one endpoint the same link, and an endpoint's links share a quadrant (R97). -/
def Plan.membersOk (p : Plan) : Bool :=
  p.assigned.all fun a => p.assigned.all fun b =>
    a.1 ≠ b.1 || a.2.1 = b.2.1 || a.2.2.cls ≠ b.2.2.cls ||
    (if a.2.2.cls = 0 then a.2.2.endpoint ≠ b.2.2.endpoint || (a.2.2.link ≠ b.2.2.link && a.2.1 / 36 = b.2.1 / 36)
     else a.2.2.farId ≠ b.2.2.farId || a.2.2.link ≠ b.2.2.link)

/-- The parameter ranges of R334, 05 R123, 03 R60 and 15 R383. -/
def Plan.rangesOk (p : Plan) : Bool :=
  1 ≤ p.minGlobal && p.minGlobal ≤ 16 && 1 ≤ p.minMember && p.minMember ≤ 8 && 1 ≤ p.rollcallTimeout && p.rollcallTimeout ≤ 120 &&
  1 ≤ p.drainLimit && p.drainLimit ≤ 1000 && 1 ≤ p.ckptPeriod && p.ckptPeriod ≤ 600 && 1 ≤ p.abortMax && p.abortMax ≤ 512 &&
  100 ≤ p.verifyLimit && p.verifyLimit ≤ 10000 && p.reformSteps ≤ 255 && 16 ≤ p.directShare && p.directShare ≤ 64 &&
  2 ≤ p.shelves && p.shelves ≤ 16 && 1000 ≤ p.shelfW && p.shelfW ≤ 100000 && 10000 ≤ p.orphanCap && p.orphanCap ≤ 400000 &&
  p.fixedW ≤ 20000 && 700 ≤ p.moduleBrakeW && p.moduleBrakeW ≤ 1500 && 500 ≤ p.trayBrakeW && p.trayBrakeW ≤ 10000 &&
  700 ≤ p.moduleSurvivalW && p.moduleSurvivalW ≤ 1500 && 500 ≤ p.traySurvivalW && p.traySurvivalW ≤ 10000 &&
  10 ≤ p.flowMin && p.flowMin ≤ 2000 && 10 ≤ p.flowStopS && p.flowStopS ≤ 600 && 3000 ≤ p.coolantCv && p.coolantCv ≤ 4200 &&
  60 ≤ p.leakDecideS && p.leakDecideS ≤ 3600

/-- The checks of R335: R6, R8, R15, R97 and the ranges. -/
def Plan.ok (p : Plan) : Bool :=
  2 ≤ p.g && p.g ≤ 16 && 1 ≤ p.m && p.m ≤ 32 && 1 ≤ p.lm && p.lm ≤ 8 && 1 ≤ p.lg && p.lg ≤ 16 && p.lx ≤ 16 &&
  p.m * p.lm + (p.g - 1) * p.lg + p.lx ≤ 144 &&
  p.modules.contains p.primary && p.modules.contains p.secondary && moduleTray p.primary ≠ moduleTray p.secondary &&
  (p.assigned.all fun a => p.portOk a.1 a.2.1 a.2.2) && p.membersOk && p.rangesOk

/-- Whether two plans give a module the same ports, neighbours and presence inputs. -/
def samePorts (a b : Plan) (m : Nat) : Bool :=
  (a.ports.filter fun e => e.1 / 256 = m) = (b.ports.filter fun e => e.1 / 256 = m)

/-! ## Slices (01 R12, R13; 03 R61) -/

/-- The rows of a slice. -/
def Plan.rowsIn (p : Plan) (x : Slice) : List Nat := (List.range x.h).map fun i => (x.r0 + i) % Nat.max 1 p.g

/-- The columns of a slice. -/
def Plan.colsIn (p : Plan) (x : Slice) : List Nat := (List.range x.w).map fun j => (x.c0 + j) % Nat.max 1 p.m

/-- The endpoints of a slice. -/
def Plan.epsIn (p : Plan) (x : Slice) : List Nat := (p.rowsIn x).flatMap fun r => (p.colsIn x).map fun c => 32 * r + c

/-- How many rows two slices share. [DESIGN CHOICE log 114] -/
def Plan.shared (p : Plan) (a b : Slice) : Nat := ((p.rowsIn a).filter (p.rowsIn b).contains).length

/-- The link set of a new slice (R61; 14 R348): its share of all the indices by column width, taken from those still free, the lowest
first, and at least one; the widest takes the remainder. A slice that shares with no other divides with none and takes every index. [DESIGN CHOICE log 114] -/
def Plan.linksFor (p : Plan) (live : List Slice) (x : Slice) : Option Nat :=
  let share := live.filter fun o => 2 ≤ p.shared x o
  if share = [] then some (2 ^ p.lg - 1)
  else
    let free := (List.range p.lg).filter fun l => !(share.any fun o => o.links.testBit l)
    let total := x.w + (share.map fun o => o.w).sum
    let base := p.lg * x.w / total
    let rest := p.lg - base - (share.map fun o => p.lg * o.w / total).sum
    let want := if share.all fun o => o.w ≤ x.w then base + rest else base
    if free = [] then none
    else some ((free.take (Nat.max 1 want)).foldl (fun n l => n + 2 ^ l) 0)

/-- The slices that hold two groups as rows. [DESIGN CHOICE log 114] -/
def State.slicesOn (s : State) (a b : Nat) : List Slice :=
  s.cond.slices.filter fun x => (s.plan.rowsIn x).contains a && (s.plan.rowsIn x).contains b

/-! ## The contents of the routing tables (03 R56, R60; 04 R95) -/

/-- A table byte: the port, 0xFF for none. -/
def portByte (l : List Nat) : Nat := l.headD 0xFF

/-- The ports of a module with a class, far module or endpoint, and link index. -/
def Plan.portsWhere (p : Plan) (m : Nat) (f : PortPlan → Bool) : List Nat :=
  (p.ports.filter fun e => e.1 / 256 = m && f e.2).map fun e => e.1 % 256

/-- MEMBER_PORTS of a module: an entry for each member. -/
def Plan.memberTable (p : Plan) (m : Nat) : List Nat :=
  (List.range 32).map fun c => (List.range 8).foldl (fun n l =>
    n + portByte (p.portsWhere m fun x => x.cls = 0 && x.endpoint % 32 = c && x.link = l) * 2 ^ (8 * l)) 0

/-- GLOBAL_PORTS of a module: remote group by link index. -/
def Plan.globalTable (p : Plan) (m : Nat) : List Nat :=
  (List.range 256).map fun e => portByte (p.portsWhere m fun x => x.cls = 1 && x.farId % 16 = e / 16 && x.link = e % 16)

/-- XLINK_PORTS of a module. -/
def Plan.xlinkTable (p : Plan) (m : Nat) : List Nat :=
  (List.range 16).map fun e => portByte (p.portsWhere m fun x => x.cls = 2 && x.link = e)

/-- SLICE_LSET of a slice. [DESIGN CHOICE log 114] -/
def Plan.lsetOf (p : Plan) (x : Slice) : Nat :=
  ((p.rowsIn x).foldl (fun n r => n ||| 2 ^ r) 0) + 2 ^ 16 * x.links + 2 ^ 32

/-- The indices of a link set. -/
def linkList (links : Nat) : List Nat := (List.range 16).filter links.testBit

/-- The paths of one SPRAY entry list of a slice, at the module of group g for destination group d: LINK cycles through the link
set within each VIA. -/
def sprayPaths (directShare : Nat) (rows : List Nat) (links : Nat) (g d : Nat) : List Nat :=
  let others := ((List.range 16).filter rows.contains).filter fun v => v ≠ g && v ≠ d
  let nd := if others = [] then 64 else directShare
  let ls := linkList links
  (List.range 64).map fun i =>
    let j := i - nd
    let via := if i < nd then g else others.getD (j % Nat.max 1 others.length) g
    let k := if i < nd then i else j / Nat.max 1 others.length
    0x100 + 16 * via + ls.getD (k % Nat.max 1 ls.length) 0

/-- SPRAY of a slice at a module, for all 16 destination groups. -/
def Plan.sprayTable (p : Plan) (x : Slice) (m : Nat) : List Nat :=
  let rows := p.rowsIn x
  (List.range 16).map fun d =>
    if rows.contains (m % 16) && rows.contains d && d ≠ m % 16 then
      (sprayPaths (if x.num = 0 then 64 else p.directShare) rows x.links (m % 16) d).zipIdx.foldl
        (fun n (e : Nat × Nat) => n + e.1 * 2 ^ (16 * e.2)) 0
    else 0

/-- Slice 0: every group and every link index. -/
def Plan.slice0 (p : Plan) : Slice := { num := 0, r0 := 0, h := p.g, c0 := 0, w := p.m, links := 2 ^ p.lg - 1, verify := false }

/-- The member ports of a module whose endpoints lie in a slice. -/
def Plan.slicePorts (p : Plan) (x : Slice) (m : Nat) : List Nat :=
  p.portsWhere m fun y => y.cls = 0 && (p.epsIn x).contains y.endpoint

/-- The TABLE_WRITE commands that make a slice at a module. [DEDUCED log 33, 71] -/
def Plan.sliceWrites (p : Plan) (x : Slice) (m : Nat) : List CmdBody :=
  [.tableWrite 3 x.num [p.lsetOf x], .tableWrite 6 x.num [(p.colsIn x).foldl (fun n c => n ||| 2 ^ c) 0],
   .tableWrite 4 (16 * x.num) (p.sprayTable x m)] ++
  (p.slicePorts x m).map (fun k => .tableWrite 7 k [256 + x.num]) ++
  (if x.verify then [.tableWrite 8 x.num [1]] else [])

/-- The TABLE_WRITE commands of the tables of generation 1 at a module (R344). -/
def Plan.baseWrites (p : Plan) (m : Nat) : List CmdBody :=
  [.tableWrite 0 0 (p.memberTable m), .tableWrite 1 0 (p.globalTable m), .tableWrite 2 0 (p.xlinkTable m),
   .tableWrite 3 0 [p.lsetOf p.slice0], .tableWrite 4 0 (p.sprayTable p.slice0 m)]

/-! ## Pairs and endpoints (R342) -/

/-- The ACTIVE links of a module of a class to a far module. -/
def State.activeTo (s : State) (m cls far : Nat) : Nat :=
  ((s.plan.portsWhere m fun x => x.cls = cls && x.farId = far).filter fun k => s.cond.active.contains (256 * m + k)).length

/-- The ACTIVE global links of a pair of groups in a plane: those that both ends report. [DEDUCED log 115] -/
def State.pairLinks (s : State) (plane a b : Nat) : Nat :=
  Nat.min (s.activeTo (a + 16 * plane) 1 (b + 16 * plane)) (s.activeTo (b + 16 * plane) 1 (a + 16 * plane))

/-- The key of an ESC_VIA entry the machine holds. -/
def escKey (plane a b : Nat) : Nat := 256 * plane + 16 * a + b

/-- The ESC_VIA entry of a module for a destination group: as last rewritten, else the plan's default. -/
def State.escOf (s : State) (plane a b : Nat) : Nat :=
  match s.cond.escVia.find (escKey plane a b) with
  | some v => v
  | none => s.plan.escVia.getD (16 * (a + 16 * plane) + b) 0

/-- Whether the VALID ESC_VIA of a module leads on to a group. -/
def State.escWorks (s : State) (plane a b : Nat) : Bool :=
  let v := s.escOf plane a b
  v / 16 % 2 = 1 && 0 < s.pairLinks plane a (v % 16) && 0 < s.pairLinks plane (v % 16) b

/-- The state of a pair: 0 NORMAL, 1 DEGRADED, 2 UNREACHABLE. [DEDUCED log 115] -/
def State.pairState (s : State) (plane a b : Nat) : Nat :=
  let n := s.pairLinks plane a b
  if s.plan.minGlobal ≤ n then 0 else if 1 ≤ n || (s.escWorks plane a b && s.escWorks plane b a) then 1 else 2

/-- The ACTIVE member links of an endpoint in a plane. [DEDUCED log 115] -/
def State.epLinks (s : State) (plane ep : Nat) : Nat :=
  let m := ep / 32 % 16 + 16 * plane
  ((s.plan.portsWhere m fun x => x.cls = 0 && x.endpoint = ep).filter fun k => s.cond.active.contains (256 * m + k)).length

/-- The state of an endpoint: 0 NORMAL, 1 DEGRADED, 2 ABSENT. No link in one plane only is DEGRADED. [DEDUCED log 115] -/
def State.epState (s : State) (ep : Nat) : Nat :=
  let a := s.epLinks 0 ep
  let b := s.epLinks 1 ep
  if a = 0 && b = 0 then 2 else if s.plan.minMember ≤ a && s.plan.minMember ≤ b then 0 else 1

/-- The endpoints the plan names, rising. -/
def Plan.endpoints (p : Plan) : List Nat :=
  ((List.range p.g).flatMap fun g => (List.range p.m).map fun c => 32 * g + c).filter fun ep =>
    p.ports.any fun e => e.2.cls = 0 && e.2.endpoint = ep

/-- The pairs of groups of a plan, each once. -/
def Plan.groupPairs (p : Plan) : List (Nat × Nat) :=
  (List.range p.g).flatMap fun a => ((List.range p.g).filter fun b => a < b).map fun b => (a, b)

/-- Whether an endpoint is fenced in the machine's view. -/
def State.condFenced (s : State) (ep : Nat) : Bool :=
  s.cond.fenced.contains (.endpoint ep) || (s.cond.fenced.contains (.module (ep / 32)) && s.cond.fenced.contains (.module (ep / 32 + 16)))

/-- The compute tray of an endpoint. -/
def Plan.trayOf (p : Plan) (ep : Nat) : Nat :=
  ((p.ports.find? fun e => e.2.cls = 0 && e.2.endpoint = ep).map fun e => e.2.tray).getD 0

end Sys2Proof.Machine
end

