-- ==== Sys2Proof/Machine/Machine.lean ====
section
/-! DEFINITION. The conductor state machine (14 R339 to R354; 05 R121 to R125; 15 R369 to R381): what running one log entry does.
It reads nothing but log entries, what they have left in `State.cond`, and the plan. -/

namespace Sys2Proof.Machine

/-! ## Shared steps -/

/-- Change the machine's state. -/
def State.modCond (s : State) (g : Cond → Cond) : State := { s with cond := g s.cond }

/-- The modules that are not fenced. [DEDUCED log 112] -/
def State.liveModules (s : State) : List Nat := s.plan.modules.filter fun m => !s.cond.fenced.contains (.module m)

/-- Send a command to agents and answer what must be waited for: 1024·DSEQ + agent. [DEDUCED log 112] -/
def State.askAll (s : State) (agents : List Nat) (body : CmdBody) : State × List Nat :=
  agents.foldl (fun (r : State × List Nat) a => (r.1.output a body, r.2 ++ [1024 * r.1.cond.dseq + a])) (s, [])

/-- A record of the conductor's own: unit, this module; INFO, the term. -/
def State.condRecord (s : State) (code : Nat) : State := s.raise code s.self (s.rd F.condStatCterm)

/-- GUARD_FAULT, counted (18 R437). [DEDUCED log 112] -/
def State.guardFault (s : State) (unit reading : Nat) : State :=
  ((s.raise E.guardFault unit reading).bump 7).event 14 unit

/-! ## Caps (15 R369, R370, R373, R374) -/

/-- The rack cap and what set it: a policy cap, the lease, or ORPHAN_CAP. [DEDUCED log 108] -/
def State.rackCap (s : State) : Nat × Nat :=
  let c := s.cond
  let base := if c.orphan then (6, s.plan.orphanCap) else match c.rmCap with | some w => (5, w) | none => (6, s.plan.orphanCap)
  match c.policyCap with
  | some w => if w < base.2 then (7, w) else base
  | none => base

/-- The smaller of two caps, where either exists. [DEDUCED log 108] -/
def lowerCap (a b : Option Nat) : Option Nat :=
  match a, b with
  | some x, some y => some (Nat.min x y)
  | some x, none => some x
  | none, y => y

/-- Whether a compute tray is to be powered: no safety cut, permitted, not asked off by its host. -/
def State.trayPowered (s : State) (t : Nat) : Bool :=
  s.cond.trayPermit.contains t && !s.cond.trayOff.contains t && !s.cond.leaks.contains t

/-- What the RM and a host set for a module: half of its switch tray's cap, and its host's. [DEDUCED log 108] -/
def State.moduleCap (s : State) (m : Nat) : Option Nat :=
  lowerCap ((s.cond.trayCaps.find (64 + moduleTray m)).map (· / 2)) (s.cond.moduleHostCap.find m)

/-- What the RM and the host set for a compute tray; a tray that is off takes nothing. [DEDUCED log 108] -/
def State.computeCap (s : State) (t : Nat) : Option Nat :=
  if s.trayPowered t then lowerCap (s.cond.trayCaps.find t) (s.cond.trayHostCap.find t) else some 0

/-- The cap sent to a module, with its source: the division, or the level of a faulted rope or of low flow where that is lower. -/
def State.moduleOrder (s : State) (m w : Nat) : Nat × Nat :=
  let src := s.rackCap.1
  let base := if (s.cond.moduleHostCap.find m) = some w then (8, w) else (src, w)
  let l := base :: (if s.cond.degradedTrays.contains (moduleTray m) then [(3, 750)] else []) ++
    (if s.cond.flowLow then [(4, s.plan.moduleSurvivalW)] else [])
  l.foldl (fun (b e : Nat × Nat) => if e.2 < b.2 then e else b) base

/-- The cap sent to a compute tray, with its source. -/
def State.trayOrder (s : State) (w : Nat) : Nat × Nat :=
  if s.cond.flowLow && s.plan.traySurvivalW < w then (4, s.plan.traySurvivalW) else (s.rackCap.1, w)

/-- Divide the rack cap and send each result. [DEDUCED log 108, 109] -/
def State.sendCaps (s : State) : State :=
  let d := s.plan.divide s.rackCap.2 s.moduleCap s.computeCap
  let expiry := if s.cond.orphan then 0 else s.cond.leaseExpiry
  let s := if d.2.2 then s else s.condRecord E.capInfeasible
  let s := d.1.foldl (fun (s : State) (e : Nat × Nat) =>
    let o := s.moduleOrder e.1 e.2
    s.output e.1 (.powerCap o.2 o.1 expiry s.plan.moduleSurvivalW)) s
  d.2.1.foldl (fun (s : State) (e : Nat × Nat) =>
    let o := s.trayOrder e.2
    s.output (trayAgent e.1) (.powerCap o.2 o.1 expiry s.plan.traySurvivalW)) s

/-- Order a compute tray's power as its sources now have it, once the hosts' stage has begun. -/
def State.orderTray (s : State) (t : Nat) : State :=
  if 3 ≤ s.cond.stage then s.output (trayAgent t) (.powerDomain (s.trayPowered t)) else s

/-! ## Groups (05 R107, R108, R122, R124) -/

/-- Re-form a group: the epoch rises, the ranks become vacant, every module hears. [DEDUCED log 111] -/
def State.reform (s : State) (gid : Nat) (made : List Nat) : State :=
  match s.cond.groups.find gid with
  | none => s
  | some g =>
    let vacant := (List.range g.count).filter fun r => g.vacant.contains r || made.contains r
    let epoch := (g.gepoch + 1) % 65536
    let s := s.modCond fun c => { c with groups := c.groups.insert gid { g with gepoch := epoch, vacant := vacant, suspended := false } }
    s.outputs s.liveModules (.groupReform gid epoch vacant)

/-- What a fenced endpoint does to the groups it belongs to: a large one is re-formed, a small one is suspended. -/
def State.groupsOf (s : State) (ep : Nat) : State :=
  s.cond.groups.foldl (fun (s : State) (e : Nat × Group) =>
    let g := e.2
    if !(g.live.any fun r => s.rankEp g r = ep) then s
    else if s.plan.abortMax < g.live.length then s.reform e.1 (g.live.filter fun r => s.condFenced (s.rankEp g r))
    else (s.modCond fun c => { c with groups := c.groups.insert e.1 { g with suspended := true } }).event 17 e.1) s

/-! ## Fences (R352, R354; 05 R125; 10 R251) -/

/-- The slots homed at a lost module: their live instances end HOME_LOST through the modules of the members' own groups in the home's
plane, and their bindings are lost. [DEDUCED log 112] -/
def State.homeLost (s : State) (id : Nat) : State :=
  let lost := s.cond.bindings.filter fun b => b.1 = id
  let s := s.modCond fun c => { c with bindings := c.bindings.filter fun b => b.1 ≠ id }
  lost.foldl (fun (s : State) (b : Nat × Nat × Nat) =>
    match s.cond.groups.find b.2.2 with
    | none => s
    | some g =>
      let ms := ((s.rowsOf g).map fun r => r + id / 16 * 16).filter fun m => m ≠ id
      s.outputs ms (.instanceEnd id b.2.1 b.2.2 none 0x0108)) s

/-- The shards of a module are LOST. -/
def State.shardsLost (s : State) (id : Nat) : State :=
  let hit := s.cond.shards.filter fun e => e.2.module = id && !e.2.lost
  let s := s.modCond fun c => { c with shards := c.shards.map fun (e : Nat × Shard) =>
    (e.1, if e.2.module = id then { e.2 with lost := true } else e.2) }
  hit.foldl (fun (s : State) (e : Nat × Shard) => s.event 16 e.1) s

/-- Fence a unit: every agent concerned is told. -/
def State.fenceUnit (s : State) (u : FenceUnit) : State :=
  if s.cond.fenced.contains u then s
  else
    let s := (s.modCond fun c => { c with fenced := u :: c.fenced }).event 9 (unitOf u).2
    match u with
    | .link m p =>
      let far := (s.plan.ports.find (256 * m + p)).filter fun x => x.cls ≠ 0
      s.outputs (m :: (match far with | some x => [x.farId] | none => [])) (.fence u)
    | .port _ => s
    | .endpoint ep => (s.outputs s.liveModules (.fence u)).groupsOf ep
    | .module id => ((s.outputs (s.liveModules.filter (· ≠ id)) (.fence u)).homeLost id).shardsLost id

/-- Release a unit's fence, on the RM's order. -/
def State.releaseUnit (s : State) (u : FenceUnit) : State :=
  let s := s.modCond fun c => { c with fenced := c.fenced.filter (· ≠ u) }
  match u with
  | .link m p =>
    let far := (s.plan.ports.find (256 * m + p)).filter fun x => x.cls ≠ 0
    s.outputs (m :: (match far with | some x => [x.farId] | none => [])) (.fenceRelease u)
  | .port _ => s
  | .endpoint _ => s.outputs s.liveModules (.fenceRelease u)
  | .module id => s.outputs (s.liveModules.filter (· ≠ id)) (.fenceRelease u)

/-! ## Drains, switches and other procedures (R348 to R351) -/

/-- The INGRESS_HOLD commands of a slice, to the modules with member ports in it. -/
def State.holdSlice (s : State) (x : Slice) (set : Bool) : State :=
  s.liveModules.foldl (fun (s : State) m =>
    let ps := s.plan.slicePorts x m
    if ps = [] then s else s.output m (.ingressHold (ps.foldl (fun n p => n + 2 ^ p) 0) set)) s

/-- Which slices are held: by a drain, or by a pair without a path (R342, R349; 03 R84). INGRESS_HOLD is set for each slice newly held,
and cleared for each that is held no more. [DEDUCED log 113] -/
def State.markHeld (s : State) : State :=
  let bad := s.cond.pairs.filter fun e => e.2 = 2
  let held (x : Slice) : Bool := (s.cond.procs.any fun p => p.slices.contains x.num) || bad.any fun e =>
    (s.plan.rowsIn x).contains (e.1 / 16 % 16) && (s.plan.rowsIn x).contains (e.1 % 16)
  let newly := s.cond.slices.filter fun x => held x && !x.held
  let freed := s.cond.slices.filter fun x => x.held && !held x
  let s := s.modCond fun c => { c with slices := c.slices.map fun (x : Slice) => { x with held := held x } }
  let s := newly.foldl (fun (s : State) (x : Slice) => (s.event 5 x.num).holdSlice x true) s
  freed.foldl (fun (s : State) (x : Slice) => s.holdSlice x false) s

/-- Complete the commands of a procedure. -/
def State.tagsDone (s : State) (p : Proc) : State :=
  p.tags.foldl (fun (s : State) t =>
    if p.failed = 0 then s.answer t St.ok p.rsp else s.answer t p.failed) s

/-- Replace a procedure by what it has become. -/
def State.setProcs (s : State) (old : Proc) (new : List Proc) : State :=
  s.modCond fun c => { c with procs := c.procs.flatMap fun (p : Proc) => if p = old then new else [p] }

/-- The last step of a procedure. -/
def State.procEnds (s : State) (p : Proc) : State :=
  let s := (s.setProcs p []).markHeld
  let s := match p.kind with
    | .release sl =>
      let xs := s.cond.slices.filter fun (x : Slice) => x.num = sl
      let s := (xs.filter fun (x : Slice) => x.held).foldl (fun (s : State) x => s.holdSlice x false) s
      s.modCond fun c => { c with slices := c.slices.filter fun x => x.num ≠ sl }
    | .trayOff t =>
      let s := (trayModules t).foldl (fun (s : State) m => s.fenceUnit (.module m)) s
      (s.outputs (trayModules t) (.powerDomain false)).event 18 t
    | _ => s
  s.tagsDone p

/-- A procedure whose wait is over goes on. [DEDUCED log 113] -/
def State.procNext (s : State) (p : Proc) : State :=
  if p.stage = 3 then
    match p.kind with
    | .release sl =>
      let r := s.askAll s.liveModules (.sliceRelease sl)
      r.1.setProcs p [{ p with stage := 4, waiting := r.2 }]
    | _ => s.procEnds p
  else if p.stage = 4 then
    match p.kind with
    | .alloc _ | .release _ =>
      let gen := (s.cond.tgen + 1) % 65536
      let time := s.cond.machineTime + 200000
      let r := (s.modCond fun c => { c with tgen := gen }).askAll s.liveModules (.tableSwitch gen time)
      r.1.setProcs p [{ p with stage := 5, waiting := r.2, deadline := time }]
    | .groupDelete g =>
      if p.failed ≠ 0 then s.procEnds p
      else
        let r := (s.modCond fun c => { c with groups := c.groups.erase g, bindings := c.bindings.filter fun b => b.2.2 ≠ g }).askAll
          s.liveModules (.groupDelete g false)
        r.1.setProcs p [{ p with stage := 6, waiting := r.2 }]
    | _ => s.procEnds p
  else s.procEnds p

/-- Whether a procedure waits for nothing more. -/
def State.procReady (s : State) (p : Proc) : Bool := p.waiting = [] && (p.stage ≠ 5 || decide (p.deadline ≤ s.cond.machineTime))

/-- Let every procedure go on that can; each takes at most three steps. -/
def State.runProcs (s : State) : Nat → State
  | 0 => s
  | n + 1 =>
    match s.cond.procs.find? s.procReady with
    | none => s
    | some p => (s.procNext p).runProcs n

/-- Start a procedure. -/
def State.startProc (s : State) (p : Proc) : State := (s.modCond fun c => { c with procs := c.procs ++ [p] }).markHeld

/-- Start a drain of slices: marked, ingress held, and the modules of their rows report. -/
def State.drain (s : State) (kind : ProcKind) (xs : List Slice) (tags : List (Nat × MbxRef)) : State :=
  let wait := xs.flatMap fun x => (s.liveModules.filter fun m => s.plan.slicePorts x m ≠ []).map fun m => 1024 * x.num + m
  let s := s.startProc { kind := kind, slices := xs.map fun x => x.num, stage := 3, waiting := wait, tags := tags
                         deadline := s.cond.machineTime + s.plan.drainLimit * 1000000 }
  (xs.filter fun x => x.held).foldl (fun (s : State) x => s.holdSlice x true) s

/-- A fenced module is waited for no longer. -/
def State.dropWaits (s : State) (id : Nat) : State :=
  s.modCond fun c => { c with
    procs := c.procs.map fun (p : Proc) => { p with waiting := p.waiting.filter fun w => w % 1024 ≠ id }
    stageWait := c.stageWait.filter fun w => w % 1024 ≠ id }

/-- Fence a module and go on without it. -/
def State.fenceModule (s : State) (id : Nat) : State := (s.fenceUnit (.module id)).dropWaits id

/-! ## The roll call and what follows from links (R341, R342) -/

def outcomeCode : Outcome341 → Nat
  | .expected => 0
  | .missing => 1
  | .failed => 2
  | .wrongPort => 3
  | .unexpected => 4
  | .planMismatch => 5
  | .unusedPeer => 6
  | .idConflict => 7

/-- The event of an outcome, where it has one. -/
def outcomeEvent : Outcome341 → Option Nat
  | .expected | .planMismatch => none
  | .missing => some 1
  | .failed => some 2
  | .wrongPort => some 3
  | .unexpected | .unusedPeer | .idConflict => some 4

/-- Record an outcome: its code + 1 and the neighbour found; the port counts as ACTIVE when EXPECTED. -/
def State.setOutcome (s : State) (m p : Nat) (o : Outcome341) (far : Nat) : State :=
  let k := 256 * m + p
  let s := s.modCond fun c => { c with
    outcomes := c.outcomes.insert k (outcomeCode o + 16 * far)
    active := if o = .expected then k :: c.active.filter (· ≠ k) else c.active.filter (· ≠ k) }
  match outcomeEvent o with
  | some e => s.event e k
  | none => s

/-- A pair's state is set anew; without a direct link the ESC_VIA of both ends is rewritten to the lowest third group with links to
both. -/
def State.resetPair (s : State) (plane a b : Nat) : State :=
  let third := (List.range s.plan.g).filter fun v => v ≠ a && v ≠ b && 0 < s.pairLinks plane a v && 0 < s.pairLinks plane v b
  let want := match third with | v :: _ => v + 16 | [] => 0
  let via (s : State) (x y : Nat) : State :=
    if s.escOf plane x y = want then s
    else (s.modCond fun c => { c with escVia := c.escVia.insert (escKey plane x y) want }).output (x + 16 * plane) (.tableWrite 5 y [want])
  let s := if s.pairLinks plane a b = 0 then via (via s a b) b a else s
  let st := s.pairState plane a b
  let k := escKey plane a b
  if s.cond.pairs.getD k 0 = st then s
  else (s.modCond fun c => { c with pairs := c.pairs.setD k 0 st }).event 6 k

/-- An endpoint's state is set anew; an ABSENT one of a slice is fenced. -/
def State.resetEp (s : State) (ep : Nat) : State :=
  let st := s.epState ep
  let s := if s.cond.endpoints.getD ep 0 = st then s
    else (s.modCond fun c => { c with endpoints := c.endpoints.setD ep 0 st }).event 7 ep
  if st = 2 && (s.cond.slices.any fun x => (s.plan.epsIn x).contains ep) then s.fenceUnit (.endpoint ep) else s

/-- The states of all pairs, endpoints and crosslinks (R342). -/
def State.resetStates (s : State) : State :=
  if s.cond.rollcallOpen then s
  else
    let s := [0, 1].foldl (fun (s : State) plane => s.plan.groupPairs.foldl (fun (s : State) e => s.resetPair plane e.1 e.2) s) s
    let lost := (List.range s.plan.g).filter fun g => 0 < s.plan.lx && s.activeTo g 2 (g + 16) = 0
    let newly := lost.filter fun g => !s.cond.xlinkLost.contains g
    let s := newly.foldl (fun (s : State) g => s.event 8 g) (s.modCond fun c => { c with xlinkLost := lost })
    (s.plan.endpoints.foldl State.resetEp s).markHeld

/-- Close the roll call: ports without an outcome are MISSING, states are set, and every conductor probes its own links (R346). -/
def State.closeRollcall (s : State) : State :=
  if !s.cond.rollcallOpen then s
  else
    let open_ := s.plan.ports.filter fun e => (s.cond.outcomes.find e.1).isNone
    let s := open_.foldl (fun (s : State) e => s.setOutcome (e.1 / 256) (e.1 % 256) .missing 0) s
    let s := s.modCond fun c => { c with rollcallOpen := false, dues := c.dues.filter fun d => d.2 ≠ .rollcall }
    let s := s.resetStates
    let mine := (List.range 144).filter fun p => !s.isMemberPort p && s.cond.active.contains (256 * s.self + p)
    let s := s.modCond fun c => { c with verifyUntil := c.machineTime + 100000 }
    let s := { s with agent := { s.agent with probesOut := mine.map fun p => (p, s.rackTime) } }
    mine.foldl (fun (s : State) p => s.emit (.probe p)) s

/-- The roll call closes by itself when every assigned port has an outcome. -/
def State.rollcallDone (s : State) : State :=
  if s.cond.rollcallOpen && (s.plan.ports.all fun e => (s.cond.outcomes.find e.1).isSome) then s.closeRollcall else s

def State.runRollcall (s : State) (m p : Nat) (o : Outcome341) (far : Nat) : State :=
  let s := s.setOutcome m p o far
  let s := if o = .planMismatch then (match s.ledger.plan with
    | some image => s.output (far % 65536) (.plan image)
    | none => s) else s
  if s.cond.rollcallOpen then s.rollcallDone else s.resetStates

def State.runLinkEvent (s : State) (m p : Nat) (up : Bool) : State :=
  (s.setOutcome m p (if up then .expected else .missing) 0).resetStates

/-! ## Pulls (R354), bindings (05 R125), missing ranks (05 R121) -/

/-- A pull: the endpoints of the compute tray behind the input, or the modules of the switch tray. -/
def State.runPull (s : State) (m input : Nat) : State :=
  let ps := s.plan.ports.filter fun e => e.1 / 256 = m && e.2.presence = some input
  let trays := ((ps.filter fun e => e.2.cls = 0).map fun e => e.2.tray).eraseDups
  let eps := s.plan.endpoints.filter fun ep => trays.contains (s.plan.trayOf ep)
  let switches := ((ps.filter fun e => e.2.cls ≠ 0).map fun e => moduleTray e.2.farId).eraseDups
  let s := eps.foldl (fun (s : State) ep => s.fenceUnit (.endpoint ep)) s
  (switches.flatMap trayModules).foldl State.fenceModule s

def State.runBinding (s : State) (m slot g : Nat) (bound : Bool) : State :=
  s.modCond fun c =>
    let rest := c.bindings.filter fun b => !(b.1 = m && b.2.1 = slot)
    { c with bindings := if bound then rest ++ [(m, slot, g)] else rest }

/-- The group of a binding the machine knows. -/
def State.boundGroup (s : State) (m slot : Nat) : Option (Nat × Group) :=
  (s.cond.bindings.find? fun b => b.1 = m && b.2.1 = slot).bind fun b => (s.cond.groups.find b.2.2).map fun g => (b.2.2, g)

/-- A missing endpoint has failed: the groups that miss it are re-formed, each without the missing ranks of its instances, and the endpoint
is fenced. [DEDUCED log 111] -/
def State.verifyFailed (s : State) (v : Verify) : State :=
  let same (x y : Verify) : Bool := x.module = y.module && x.slot = y.slot && x.step = y.step
  let hit := s.cond.verifies.filter fun x => x.ep = v.ep
  let mine := s.cond.verifies.filter fun x => hit.any (same x)
  let gs := (mine.map fun x => x.group).eraseDups
  let s := s.modCond fun c => { c with verifies := c.verifies.filter fun x => !gs.contains x.group }
  (gs.foldl (fun (s : State) g => s.reform g ((mine.filter fun x => x.group = g).map fun x => x.rank)) s).fenceUnit (.endpoint v.ep)

/-- Missing ranks are verified: the state of each endpoint's member links is read, and one without an ACTIVE link has failed; a probe goes
to the node tray controller of the others. A rank no longer named is verified no more. [DEDUCED log 111] -/
def State.runMissing (s : State) (m slot step : Nat) (ranks : List Nat) : State :=
  match s.boundGroup m slot with
  | none => s
  | some (gid, g) =>
    let here (v : Verify) : Bool := v.module = m && v.slot = slot && v.step = step
    let old := s.cond.verifies.filter here
    let fresh := ranks.filter fun r => !(old.any fun v => v.rank = r)
    let due := s.cond.machineTime + 1000 * s.plan.verifyLimit
    let made := fresh.map fun r =>
      ({ ep := s.rankEp g r, module := m, slot := slot, step := step, rank := r, group := gid, deadline := due } : Verify)
    let s := s.modCond fun c => { c with verifies := (c.verifies.filter fun v => !here v || ranks.contains v.rank) ++ made }
    match made.find? fun v => s.epState v.ep = 2 with
    | some v => s.verifyFailed v
    | none => fresh.foldl (fun (s : State) r => s.output (trayAgent (s.plan.trayOf (s.rankEp g r))) (.probe (s.rankEp g r))) s

/-- Every missing endpoint of an instance is alive: it ends TIMEOUT and nothing is fenced. [DEDUCED log 111] -/
def State.verifyAlive (s : State) (v : Verify) : State :=
  let same (x : Verify) : Bool := x.module = v.module && x.slot = v.slot && x.step = v.step
  if ((s.cond.verifies.filter same).all fun x => x.alive) then
    (s.modCond fun c => { c with verifies := c.verifies.filter fun x => !same x }).output v.module
      (.instanceEnd v.module v.slot v.group (some v.step) 0x0101)
  else s

/-- [DEDUCED log 111] -/
def State.runProbe (s : State) (ep : Nat) (alive : Bool) : State :=
  match s.cond.verifies.find? fun v => v.ep = ep && !v.alive with
  | none => s
  | some v =>
    if alive then
      let s := s.modCond fun c => { c with verifies := c.verifies.map fun (x : Verify) => if x.ep = ep then { x with alive := true } else x }
      s.verifyAlive v
    else s.verifyFailed v

/-- Verifications past VERIFY_LIMIT count as failed. -/
def State.verifyDue (s : State) : Nat → State
  | 0 => s
  | n + 1 =>
    match s.cond.verifies.find? fun v => !v.alive && decide (v.deadline ≤ s.cond.machineTime) with
    | some v => (s.verifyFailed v).verifyDue n
    | none => s

/-! ## Rack stages (R344, R345) -/

/-- The trays that a plan names, as agents. -/
def State.trayAgents (s : State) : List Nat := s.plan.trays.map trayAgent

/-- The timeout of a stage in seconds. -/
def stageLimit : Nat → Nat
  | 1 => 30
  | 2 => 90
  | 3 => 60
  | 4 => 300
  | 5 => 120
  | _ => 0

/-- The acting conductor sets rack time at stage SWITCHES: from PTP, or to zero (R347). [DEDUCED log 107] -/
def State.setRackTime (s : State) : State :=
  if !s.sequences then s
  else { s with phys := { s.phys with timeSet := true, timeSlewPpm := 0
                                      timeOffset := if s.plan.ptp then s.phys.ptpOffset else -(Int.ofNat s.now) } }

/-- The actions of a stage that begins; what is asked of agents is waited for. [DEDUCED log 110] -/
def State.beginStage (s : State) (k : Nat) : State :=
  let s := s.modCond fun c => { c with
    dues := (c.dues.filter fun d => d.2 ≠ .stage) ++ (if stageLimit k = 0 then [] else [(c.machineTime + 1000000000 * stageLimit k, .stage)])
    stageWait := [] }
  let wait (r : State × List Nat) : State := r.1.modCond fun c => { c with stageWait := r.2 }
  match k with
  | 1 => wait (s.askAll (s.liveModules ++ s.trayAgents) (.stage 1))
  | 2 => wait (s.askAll [rmAgent] (.stage 2))
  | 3 =>
    let s := s.modCond fun c => { c with rollcallOpen := true, outcomes := [], active := [], tgen := 1
                                         dues := c.dues ++ [(c.machineTime + 1000000000 * s.plan.rollcallTimeout, .rollcall)] }
    let s := s.setRackTime.outputs s.liveModules (.powerDomain true)
    let s := s.liveModules.foldl (fun (s : State) m => (s.plan.baseWrites m).foldl (fun (s : State) b => s.output m b) s) s
    let sw := s.askAll s.liveModules (.tableSwitch 1 (s.cond.machineTime + 200000))
    let st := sw.1.askAll s.liveModules (.stage 3)
    wait (st.1, sw.2 ++ st.2)
  | 4 =>
    let on := s.plan.trays.filter s.trayPowered
    wait ((s.outputs (on.map trayAgent) (.powerDomain true)).askAll (on.map trayAgent) (.stage 4))
  | 5 => wait (s.sendCaps.askAll ((s.plan.trays.filter s.trayPowered).map trayAgent) (.stage 5))
  | _ => s

/-- Whether every planned member link of an endpoint is ACTIVE. -/
def State.epReady (s : State) (ep : Nat) : Bool :=
  s.plan.ports.all fun e => !(e.2.cls = 0 && e.2.endpoint = ep) || s.cond.active.contains e.1

/-- Whether the stage in progress is done. [DEDUCED log 110] -/
def State.stageDone (s : State) (k : Nat) : Bool :=
  match k with
  | 1 => s.cond.stageWait = []
  | 2 => s.cond.stageWait = [] && s.plan.flowMin ≤ s.cond.flowLpm && 2 ≤ s.cond.pumps && s.cond.leaks = [] && s.cond.degradedTrays = []
  | 3 => s.cond.stageWait = [] && !s.cond.rollcallOpen && s.cond.verifyUntil ≤ s.cond.machineTime
  | 4 => s.cond.stageWait = []
  | 5 => s.plan.endpoints.all fun ep => s.cond.endpoints.getD ep 0 = 2 || s.condFenced ep || s.epReady ep
  | _ => true

/-- RACK_SEQUENCE completes with the stage reached. -/
def State.seqDone (s : State) (detail : Nat) : State :=
  let tag := s.cond.seqMbx
  let st := s.cond.stage
  let s := s.modCond fun c => { c with seqMbx := none, stopping := false, stageWait := [], target := st
                                       dues := c.dues.filter fun d => d.2 ≠ .stage }
  match tag with
  | some t => s.answer t St.ok (leBytes 1 st) detail
  | none => s

/-- A stage is complete: the next one begins, or the sequence ends at its target. [DEDUCED log 110] -/
def State.stageComplete (s : State) : State :=
  let k := s.cond.stage + 1
  let s := (s.modCond fun c => { c with stage := k }).event 10 k
  if k = s.cond.target || k = 6 then
    let s := s.outputs s.liveModules (.stage k)
    s.seqDone 0
  else s.beginStage (k + 1)

/-- One step of a stop: the stages end in reverse order, each once the last one's agents have answered. [DEDUCED log 110] -/
def State.stopStep (s : State) : State :=
  let k := s.cond.stage
  let down (r : State × List Nat) : State := r.1.modCond fun c => { c with stage := k - 1, stageWait := r.2 }
  if k ≤ Nat.max 1 s.cond.target then s.seqDone 0
  else match k with
    | 6 => if s.cond.slices = [] then down (s, []) else s
    | 5 => down (s.askAll s.trayAgents (.stage 4))
    | 4 => down (s.askAll s.trayAgents (.powerDomain false))
    | 3 => down (s.askAll s.liveModules (.powerDomain false))
    | _ => down (s.askAll [rmAgent] (.stage 1))

/-- Let the rack sequence go on as far as it can. -/
def State.runStages (s : State) : Nat → State
  | 0 => s
  | n + 1 =>
    if s.cond.stopping then
      (if s.cond.stageWait = [] && !(s.cond.stage = 6 && s.cond.slices ≠ []) then s.stopStep.runStages n else s)
    else if s.cond.stage < s.cond.target && s.stageDone (s.cond.stage + 1) then s.stageComplete.runStages n
    else s

/-- Begin a stop: a start that runs ends at the stage it has reached; live slices are drained and released first. -/
def State.beginStop (s : State) (target : Nat) (tag : Option (Nat × MbxRef)) : State :=
  let s := if s.cond.seqMbx.isSome then s.seqDone 0 else s
  let s := s.modCond fun c => { c with stopping := true, target := target, seqMbx := tag, stageWait := []
                                       dues := c.dues.filter fun d => d.2 ≠ .stage }
  let idle := s.cond.slices.filter fun x => !(s.cond.procs.any fun p => p.slices.contains x.num)
  idle.foldl (fun (s : State) x => s.drain (.release x.num) [x] []) s

/-- Whether a pair of groups still has a path in a plane: over its links once the roll call has closed, before that while neither
module is fenced. -/
def State.pathLeft (s : State) (plane a b : Nat) : Bool :=
  if 2 ≤ s.cond.stage && !s.cond.rollcallOpen then s.pairState plane a b ≠ 2
  else !s.cond.fenced.contains (.module (a + 16 * plane)) && !s.cond.fenced.contains (.module (b + 16 * plane))

/-- A stage times out: what is not ready is fenced; the stage completes DEGRADED if the rack still holds together, else the sequence
stops at the last completed stage. [DEDUCED log 110] -/
def State.stageTimeout (s : State) : State :=
  let k := s.cond.stage + 1
  let late := s.cond.stageWait.map fun w => w % 1024
  let s := s.modCond fun c => { c with dues := c.dues.filter fun d => d.2 ≠ .stage, stageWait := [] }
  let s := (late.filter fun a => a < 0x100).foldl State.fenceModule s
  let trays := (late.filter fun a => 0x100 ≤ a && a < 0x200).map fun a => a - 0x100
  let eps := s.plan.endpoints.filter fun ep => trays.contains (s.plan.trayOf ep) ||
    (k = 5 && s.cond.endpoints.getD ep 0 ≠ 2 && !s.epReady ep)
  let s := eps.foldl (fun (s : State) ep => s.fenceUnit (.endpoint ep)) s
  let s := if k = 3 then s.closeRollcall else s
  let whole : Bool := [0, 1].all fun plane => s.plan.groupPairs.all fun e => s.pathLeft plane e.1 e.2
  let some_ : Bool := s.plan.endpoints.any fun ep => !s.condFenced ep
  if whole && some_ then
    ((s.modCond fun c => { c with degraded := true }).stageComplete).runStages 8
  else s.seqDone k

/-! ## Sensors (15 R373, R374, R378 to R381) -/

/-- The flow that P and ΔT imply, in L/min. -/
def State.impliedFlow (s : State) : Nat :=
  60 * s.cond.flowP / Nat.max 1 (s.plan.coolantCv * s.cond.flowDt)

/-- The flow value that R374 supervises. -/
def State.flowUsed (s : State) : Nat := if s.cond.flowFaulted then Nat.min s.cond.flowLpm s.impliedFlow else s.cond.flowLpm

/-- Supervise the flow against FLOW_MIN. [DEDUCED log 109] -/
def State.superviseFlow (s : State) : State :=
  let low : Bool := s.flowUsed < s.plan.flowMin
  if low = s.cond.flowLow then s
  else if low then
    let s := s.modCond fun c => { c with flowLow := true, dues := c.dues ++ [(c.machineTime + 1000000000 * s.plan.flowStopS, .flowStop)] }
    let d := s.detected E.flowLow 0
    ((d.1.raise E.flowLow 0 s.flowUsed 0 none d.2).event 11 s.flowUsed).sendCaps
  else (s.modCond fun c => { c with flowLow := false, dues := c.dues.filter fun d => d.2 ≠ .flowStop }).sendCaps

/-- A flow reading, cross-checked against the implied flow. [DEDUCED log 109] -/
def State.runFlow (s : State) (lpm p dt : Nat) : State :=
  let s := s.modCond fun c => { c with flowLpm := lpm, flowP := p, flowDt := dt }
  let fi := s.impliedFlow
  let apart : Bool := 30 * (s.plan.shelves * s.plan.shelfW) ≤ 100 * p && fi < 4 * (if fi ≤ lpm then lpm - fi else fi - lpm)
  let s := s.modCond fun c => { c with flowSince := if apart then (if c.flowSince.isSome then c.flowSince else some c.machineTime) else none }
  s.superviseFlow

/-- Shelves at work, and the load they carry. [DEDUCED log 109] -/
def State.runShelves (s : State) (working load : Nat) : State :=
  let cap := working * s.plan.shelfW
  if s.plan.shelves ≤ working then (s.modCond fun c => { c with policyCap := none, noRedundancy := false }).sendCaps
  else if cap < load then (s.modCond fun c => { c with policyCap := some (cap * 95 / 100) }).sendCaps
  else if s.plan.derate then
    (s.modCond fun c => { c with policyCap := some ((working - 1) * s.plan.shelfW) }).sendCaps
  else (s.modCond fun c => { c with noRedundancy := true }).event 12 working

def State.runSensor (s : State) : SensorReport → State
  | .flow lpm p dt => s.runFlow lpm p dt
  | .flowRepaired => (s.modCond fun c => { c with flowFaulted := false, flowSince := none }).superviseFlow
  | .pump n => s.modCond fun c => { c with pumps := n }
  | .shelves n load => s.runShelves n load
  | .leakTray t =>
    ((s.modCond fun c => { c with leaks := t :: c.leaks.filter (· ≠ t) }).output (trayAgent t) (.powerDomain false)).event 15 t
  | .ropeFaulted t rope =>
    let d := s.detected E.guardFault (0x100 + rope)
    let s := ((d.1.raise E.guardFault (0x100 + rope) t 0 none d.2).bump 7).event 14 (64 + t)
    let waits : Bool := (s.cond.dues.any fun x => x.2 = .leakDecide t) || s.cond.keepDegraded.contains t
    let s := s.modCond fun c => { c with
      degradedTrays := t :: c.degradedTrays.filter (· ≠ t)
      dues := if waits then c.dues else c.dues ++ [(c.machineTime + 1000000000 * s.plan.leakDecideS, .leakDecide t)] }
    s.sendCaps
  | .ropeGood t _ =>
    (s.modCond fun c => { c with
      degradedTrays := c.degradedTrays.filter (· ≠ t), keepDegraded := c.keepDegraded.filter (· ≠ t)
      dues := c.dues.filter fun d => d.2 ≠ .leakDecide t }).sendCaps
  | .coolantPair t a b =>
    if 2 < (if a ≤ b then b - a else a - b) then s.guardFault t (Nat.max a b) else s

/-! ## Errors and results -/

/-- A contained or fatal record of a module (R352; 03 R83; 10 R251; 15 R379). -/
def State.runError (s : State) (m code sev inst : Nat) : State :=
  if code = E.endpointStall then
    match s.plan.ports.find (256 * m + inst % 256) with
    | some x => if x.cls = 0 then s.fenceUnit (.endpoint x.endpoint) else s
    | none => s
  else if code = E.leakCut then (trayModules (moduleTray m)).foldl State.fenceModule s
  else if code = E.memChannelFailed then s.shardsLost m
  else if sev = 3 then s.fenceModule m
  else s

/-- The result of a command. That of a table switch comes once the module has switched, and says whether its QSW_TGEN.GEN is the one asked
for: a module on another generation is fenced, as one whose stage 3 action, the verification, failed (03 R57; R346, R349). [DESIGN CHOICE log 139] -/
def State.runResult (s : State) (m dseq status : Nat) : State :=
  let w := 1024 * dseq + m
  let hit := s.cond.procs.filter fun p => p.stage ≠ 3 && p.waiting.contains w
  let bad : Bool := status ≠ St.ok
  let fence : Bool := bad && m < 0x100 && ((hit.any fun p => p.stage = 5) || (s.cond.stageWait.contains w && s.cond.stage = 2))
  let s := s.modCond fun c => { c with
    procs := c.procs.map fun (p : Proc) => if p.stage ≠ 3 && p.waiting.contains w then
        { p with waiting := p.waiting.filter (· ≠ w), failed := if bad && p.stage = 4 then status else p.failed } else p
    stageWait := c.stageWait.filter (· ≠ w)
    outs := c.outs.filter fun o => !(o.dseq = dseq && o.agent = m) }
  if fence then s.fenceModule m else s

/-- The counts of one module for one held slice. -/
def State.runDrainState (s : State) (m sl replay live streams : Nat) : State :=
  let zero : Bool := replay = 0 && live = 0 && streams = 0
  let w := 1024 * sl + m
  s.modCond fun c => { c with procs := c.procs.map fun (p : Proc) =>
    if p.stage = 3 && p.slices.contains sl then
      { p with waiting := if zero then p.waiting.filter (· ≠ w) else w :: p.waiting.filter (· ≠ w) } else p }

/-- A TIMER entry: the machine's clock moves. -/
def State.runTimer (s : State) (t : Nat) : State := (s.modCond fun c => { c with machineTime := t }).verifyDue 512

/-- What follows every entry: procedures and stages go on. [DEDUCED log 121] -/
def State.afterEntry (s : State) : State := (s.runProcs 64).runStages 8

end Sys2Proof.Machine
end

