-- ==== Sys2Proof/Machine/RcsCond.lean ====
section
/-! DEFINITION. Conductor commands as the machine runs them from an RCS_CMD entry (13 R317, R320; 14 R335, R343 to R352; 15 R369,
R370, R384; 05 R107; 10 R251). Where R320 gives a response without offsets, its fields stand in the order named. -/

namespace Sys2Proof.Machine

/-- A forwarded command: the module whose mailbox accepted it, that mailbox, the requester's role, opcode and payload. -/
structure CondReq where
  module : Nat
  mb : MbxRef
  role : Role
  opcode : Nat
  payload : List Byte
deriving DecidableEq, Repr

/-- What an answer names. -/
def condTag (r : CondReq) : Nat × MbxRef := (r.module, r.mb)

/-- Answer a command. -/
def State.says (s : State) (r : CondReq) (status : Nat) (rsp : List Byte := []) (detail : Nat := 0) : State :=
  s.answer (condTag r) status rsp detail

/-- Send a command to agents; the request completes when all have answered, with the status of one that failed. -/
def State.askFor (s : State) (r : CondReq) (agents : List Nat) (body : CmdBody) (rsp : List Byte := []) : State :=
  let a := s.askAll agents body
  a.1.startProc { kind := .results, stage := 4, waiting := a.2, tags := [condTag r], rsp := rsp }

/-- A slice by its number. -/
def State.sliceOf (s : State) (n : Nat) : Option Slice := s.cond.slices.find? fun x => x.num = n

/-- Whether the slice of a group is held. -/
def State.groupHeld (s : State) (g : Group) : Bool := (s.sliceOf g.dfn.slice).any fun x => x.held

/-! ## Plans (R333, R335, R343) -/

/-- PLAN_STAGE: a piece of the plan image (13 R321), staged at both conductors. -/
def State.runPlanStage (s : State) (r : CondReq) : State :=
  let x : MbxSt := { role := r.role, session := 65536 + r.module, state := 2, reqLen := r.payload.length
                     req := { opcode := r.opcode, verMaj := 1, verMin := 0, token := 0, payload := r.payload } }
  match s.stagePiece 0 r.mb x with
  | (s, .refused st) => s.says r st
  | (s, .taken) => s.says r St.ok
  | (s, .whole im) => s.says r St.ok (leBytes 48 (sha384 im).toNat)

/-- Check a plan and adopt it: it comes into force here, every module is sent its image, the caps are divided again. [DEDUCED log 116] -/
def State.adopt (s : State) (r : CondReq) (image : List Byte) (p : Plan) : State :=
  let changed := s.plan.modules.filter fun m => !samePorts s.plan p m
  if !p.ok then s.says r St.planInvalid
  else if (s.cond.slices.any fun x => changed.any fun m => (s.plan.rowsIn x).contains (m % 16)) then s.says r St.running
  else
    let s := s.takePlanAs image p
    (s.askFor r s.liveModules (.plan image) (leBytes 48 (sha384 image).toNat)).sendCaps

/-- PLAN_ADOPT: the staged plan, named by its hash. [DEDUCED log 116] -/
def State.runPlanAdopt (s : State) (r : CondReq) : State :=
  match (s.stages.find 0).filter fun b => b.final with
  | none => s.says r St.field
  | some b =>
    if fieldAt r.payload 0 48 ≠ (sha384 b.data).toNat then s.says r St.field
    else match planOf b.data with
      | none => s.says r St.planInvalid
      | some p => s.adopt r b.data p

/-- PLAN_READ: bytes of the plan in force. -/
def State.runPlanRead (s : State) (r : CondReq) : State :=
  s.says r St.ok ((((s.ledger.plan.getD []).drop (fieldAt r.payload 0 4)).take (fieldAt r.payload 4 2)))

/-- What ADOPT_DISCOVERED makes of one port (R343): a WRONG_PORT or UNEXPECTED port takes the neighbour it found and keeps its link
index, a MISSING port is unassigned. [DEDUCED log 84, 117] -/
def State.discovered (s : State) (k : Nat) (x : PortPlan) : Option PortPlan :=
  match s.cond.outcomes.find k with
  | none => some x
  | some o =>
    let far := o / 16
    let id := far % 65536
    let module := k / 256
    if o % 16 = 1 then none
    else if o % 16 = 3 || o % 16 = 4 then
      if far / 2 ^ 24 % 2 = 1 then
        some { x with cls := 0, endpoint := id, farId := id, farPort := far / 65536 % 256, tray := far / 2 ^ 25 % 32, pos := far / 2 ^ 30 % 4 }
      else
        some { x with cls := if id / 16 = module / 16 then 1 else 2, farId := id, farPort := far / 65536 % 256 }
    else some x

/-- ADOPT_DISCOVERED. [DEDUCED log 117] -/
def State.runAdoptDiscovered (s : State) (r : CondReq) : State :=
  let ports := s.plan.ports.filterMap fun e => (s.discovered e.1 e.2).map fun x => (e.1, x)
  let p := { s.plan with ports := ports }
  s.adopt r (planImage p) p

/-! ## Reads -/

/-- COND_STATUS: primary and secondary IDs, MODE, CTERM, rack stage, the last health report. [DESIGN CHOICE log 17] -/
def State.runCondStatus (s : State) (r : CondReq) : State :=
  s.says r St.ok (leBytes 2 s.plan.primary ++ leBytes 2 s.plan.secondary ++ leBytes 1 s.cmode ++ leBytes 2 (s.rd F.condStatCterm) ++
    leBytes 1 s.cond.stage ++ s.pair.lastHealth)

/-- ROLLCALL_READ: one outcome code for each port of a module, 0xFF where there is none. -/
def State.runRollcallRead (s : State) (r : CondReq) : State :=
  let m := fieldAt r.payload 0 2
  if !s.plan.modules.contains m then s.says r St.field
  else s.says r St.ok ((List.range 144).flatMap fun p => leBytes 1 (match s.cond.outcomes.find (256 * m + p) with
    | some o => o % 16
    | none => 0xFF))

/-- EVENT_READ: 8 bytes sequence, 2 kind, 4 unit of each event after the one named. -/
def State.runEventRead (s : State) (r : CondReq) : State :=
  let last := fieldAt r.payload 0 8
  s.says r St.ok (((s.cond.events.filter fun e => last < e.1).take 288).flatMap fun e =>
    leBytes 8 e.1 ++ leBytes 2 e.2.1 ++ leBytes 4 e.2.2)

/-! ## The rack sequence (R344, R345) -/

/-- Whether stage MANAGEMENT may begin: the pair is DUAL, or the plan lets one conductor start. [DEDUCED log 110] -/
def State.mayStart (s : State) : Bool := s.plan.soloStart || s.cmode = 1 || s.cmode = 3

/-- RACK_SEQUENCE: a start while another start or a stop runs is refused. [DEDUCED log 110] -/
def State.runSequence (s : State) (r : CondReq) : State :=
  let target := fieldAt r.payload 0 1
  if s.cond.stopping || s.cond.stage < s.cond.target then s.says r St.running
  else if 6 < target then s.says r St.field
  else if target ≤ s.cond.stage || !s.mayStart then s.says r St.ok (leBytes 1 s.cond.stage)
  else (s.modCond fun c => { c with target := target, seqMbx := some (condTag r) }).beginStage (s.cond.stage + 1)

/-- RACK_SEQUENCE with the stop bit. A second stop while one runs is refused. [DEDUCED log 110] -/
def State.runSequenceStop (s : State) (r : CondReq) : State :=
  let target := fieldAt r.payload 0 1
  if s.cond.stopping then s.says r St.running
  else if 6 < target then s.says r St.field
  else s.beginStop target (some (condTag r))

/-! ## Slices (R348, R349; 01 R12, R13; 03 R61) -/

/-- SLICE_ALLOC. [DEDUCED log 32, 119] -/
def State.runSliceAlloc (s : State) (r : CondReq) : State :=
  let f (i : Nat) : Nat := fieldAt r.payload i 1
  let p := s.plan
  let x : Slice := { num := f 0, r0 := f 1, h := f 2, c0 := f 3, w := f 4, links := 0
                     verify := f 5 % 2 = 1 || p.verifySlices.contains (f 0) }
  if x.num = 0 || p.g ≤ x.r0 || x.h = 0 || p.g < x.h || p.m ≤ x.c0 || x.w = 0 || p.m < x.w then s.says r St.field
  else if s.cond.stage ≠ 6 || s.cond.stopping then s.says r St.notPermitted
  else
    let eps := p.epsIn x
    let rows := p.rowsIn x
    if (s.cond.slices.any fun o => o.num = x.num || (p.epsIn o).any eps.contains) then s.says r St.sliceConflict
    else match p.linksFor s.cond.slices x with
      | none => s.says r St.linksExhausted
      | some links =>
        if (s.cond.pairs.any fun e => rows.contains (e.1 / 16 % 16) && rows.contains (e.1 % 16)) then s.says r St.noResources [] 1
        else if (eps.any fun ep => s.cond.endpoints.getD ep 0 ≠ 0 || s.condFenced ep) then s.says r St.noResources [] 2
        else
          let x := { x with links := links }
          let s := s.modCond fun c => { c with slices := c.slices ++ [x] }
          let w := s.liveModules.foldl (fun (a : State × List Nat) m => (p.sliceWrites x m).foldl (fun (a : State × List Nat) b =>
            let q := a.1.askAll [m] b
            (q.1, a.2 ++ q.2)) a) (s, [])
          w.1.startProc { kind := .alloc x.num, stage := 4, waiting := w.2, tags := [condTag r], rsp := leBytes 2 links }

/-- A command joins the procedure that drains a slice. [DEDUCED log 119] -/
def joinDrain (n : Nat) (t : Nat × MbxRef) : List Proc → List Proc
  | [] => []
  | p :: ps => if p.slices.contains n then { p with tags := p.tags ++ [t] } :: ps else p :: joinDrain n t ps

/-- SLICE_RELEASE: a slice that drains already completes this one too (R351). [DEDUCED log 119] -/
def State.runSliceRelease (s : State) (r : CondReq) : State :=
  let n := fieldAt r.payload 0 1
  match s.sliceOf n with
  | none => s.says r St.field
  | some x =>
    if (s.cond.procs.any fun p => p.slices.contains n) then s.modCond fun c => { c with procs := joinDrain n (condTag r) c.procs }
    else s.drain (.release n) [x] [condTag r]

/-- SLICE_QUERY: number, r0, h, c0, w, VERIFY, LINKS, HELD. [DESIGN CHOICE log 17] -/
def State.runSliceQuery (s : State) (r : CondReq) : State :=
  match s.sliceOf (fieldAt r.payload 0 1) with
  | none => s.says r St.field
  | some x => s.says r St.ok (leBytes 1 x.num ++ leBytes 1 x.r0 ++ leBytes 1 x.h ++ leBytes 1 x.c0 ++ leBytes 1 x.w ++
      leBytes 1 (if x.verify then 1 else 0) ++ leBytes 2 x.links ++ leBytes 1 (if x.held then 1 else 0))

/-- SLICE_MARK: the VERIFY mark, at every module (06 R154). -/
def State.runSliceMark (s : State) (r : CondReq) : State :=
  let n := fieldAt r.payload 0 1
  let v := fieldAt r.payload 1 1 % 2
  match s.sliceOf n with
  | none => s.says r St.field
  | some _ =>
    let mark (x : Slice) : Slice := if x.num = n then { x with verify := decide (v = 1) } else x
    let s := s.modCond fun c => { c with slices := c.slices.map mark }
    s.askFor r s.liveModules (.tableWrite 8 n [v])

/-! ## Groups (05 R107, R108, R122, R124) -/

/-- The definition that a GROUP_DEFINE request carries. -/
def groupReq (p : List Byte) : GroupDef :=
  let f (i : Nat) : Nat := fieldAt p i 1
  { group := fieldAt p 0 2, slice := f 2, axis := f 3, rowOff := f 4, rowExt := f 5, rowStride := f 6, colOff := f 7, colExt := f 8
    colStride := f 9 }

/-- Whether a definition keeps R107 on a slice. -/
def groupFits (d : GroupDef) (x : Slice) : Bool :=
  d.group < 4096 && d.axis < 3 && 1 ≤ d.rowExt && 1 ≤ d.colExt && 1 ≤ d.rowStride && 1 ≤ d.colStride &&
  d.rowOff + (d.rowExt - 1) * d.rowStride < x.h && d.colOff + (d.colExt - 1) * d.colStride < x.w && d.rowExt * d.colExt ≤ 512 &&
  (d.axis ≠ 0 || d.rowExt = 1) && (d.axis ≠ 1 || d.colExt = 1)

/-- GROUP_DEFINE. -/
def State.runGroupDefine (s : State) (r : CondReq) : State :=
  let d := groupReq r.payload
  match s.sliceOf d.slice with
  | none => s.says r St.groupInvalid
  | some x =>
    if x.held then s.says r St.running
    else if (s.cond.groups.find d.group).isSome || !groupFits d x then s.says r St.groupInvalid
    else
      let s := s.modCond fun c => { c with groups := c.groups.insert d.group { dfn := d, r0 := x.r0, c0 := x.c0, height := x.h, width := x.w } }
      s.askFor r s.liveModules (.groupDefine d x.r0 x.c0 x.h x.w)

/-- GROUP_DELETE: the homes of its slots are asked first, and any refuses while an instance lives; then every module deletes. [DEDUCED log 113, 119] -/
def State.runGroupDelete (s : State) (r : CondReq) : State :=
  let g := fieldAt r.payload 0 2
  match s.cond.groups.find g with
  | none => s.says r St.field
  | some x =>
    if s.groupHeld x then s.says r St.running
    else
      let homes := s.liveModules.filter fun m => s.cond.bindings.any fun b => b.1 = m && b.2.2 = g
      let a := s.askAll homes (.groupDelete g true)
      a.1.startProc { kind := .groupDelete g, stage := 4, waiting := a.2, tags := [condTag r] }

/-- GROUP_REFORM: the fenced ranks become vacant. [DEDUCED log 119] -/
def State.runGroupReform (s : State) (r : CondReq) : State :=
  let g := fieldAt r.payload 0 2
  match s.cond.groups.find g with
  | none => s.says r St.field
  | some x =>
    if s.groupHeld x then s.says r St.running
    else (s.reform g (x.live.filter fun k => s.condFenced (s.rankEp x k))).says r St.ok (leBytes 2 ((x.gepoch + 1) % 65536))

/-! ## The shard map (10 R251) -/

/-- A shard entry as SHARD_WRITE carries it: 0–1 SHARD; 2–3 MODULE; 4–5 SLOT; 6 IMAGE_FMT; 7 FLAGS; 8–15 STATE; 16–19 SB; 20–23 E;
24–28 FIRST; 32–36 COUNT; 40–47 IMAGE. [DEDUCED log 118] -/
def shardAt (p : List Byte) : Shard :=
  { shard := fieldAt p 0 2, module := fieldAt p 2 2, slot := fieldAt p 4 2, imageFmt := fieldAt p 6 1, lost := fieldAt p 7 1 % 2 = 1
    stateAddr := fieldAt p 8 8, sb := fieldAt p 16 4, e := fieldAt p 20 4, first := fieldAt p 24 5, count := fieldAt p 32 5
    image := fieldAt p 40 8 }

/-- The bytes of a shard entry. [DESIGN CHOICE log 17; DEDUCED log 118] -/
def shardBytes (x : Shard) : List Byte :=
  leBytes 2 x.shard ++ leBytes 2 x.module ++ leBytes 2 x.slot ++ leBytes 1 x.imageFmt ++ leBytes 1 (if x.lost then 1 else 0) ++
  leBytes 8 x.stateAddr ++ leBytes 4 x.sb ++ leBytes 4 x.e ++ leBytes 5 x.first ++ leBytes 3 0 ++ leBytes 5 x.count ++ leBytes 3 0 ++
  leBytes 8 x.image

/-- SHARD_WRITE. [DEDUCED log 118] -/
def State.runShardWrite (s : State) (r : CondReq) : State :=
  let x := shardAt r.payload
  if 4096 ≤ x.shard then s.says r St.field
  else (s.modCond fun c => { c with shards := c.shards.insert x.shard x }).says r St.ok

/-- SHARD_READ. [DEDUCED log 118] -/
def State.runShardRead (s : State) (r : CondReq) : State :=
  let first := fieldAt r.payload 0 2
  let n := Nat.min 84 (fieldAt r.payload 2 2)
  s.says r St.ok (((s.cond.shards.filter fun e => first ≤ e.1).take n).flatMap fun e => shardBytes e.2)

/-! ## Caps (15 R369, R370, R384) -/

/-- One entry of CAP_SET: the tray's permission, its cap, KEEP_DEGRADED. -/
def State.capEntry (s : State) (tray flags w : Nat) : State :=
  s.modCond fun c => { c with
    trayPermit := if 32 ≤ tray then c.trayPermit
      else if flags % 2 = 1 then tray :: c.trayPermit.filter (· ≠ tray) else c.trayPermit.filter (· ≠ tray)
    trayCaps := if flags / 2 % 2 = 1 then c.trayCaps.insert tray (10 * w) else c.trayCaps
    keepDegraded := if 64 ≤ tray && flags / 4 % 2 = 1 then tray % 64 :: c.keepDegraded.filter (· ≠ tray % 64) else c.keepDegraded
    dues := if 64 ≤ tray && flags / 4 % 2 = 1 then c.dues.filter fun d => d.2 ≠ .leakDecide (tray % 64) else c.dues }

/-- CAP_SET: a lease of 30 s from the machine's time, in place of every earlier one. With CLEAR_CUT the command completes when the
modules of the tray have answered. [DEDUCED log 108, 119] -/
def State.runCapSet (s : State) (r : CondReq) : State :=
  let p := r.payload
  let n := fieldAt p 4 1
  let es := (List.range n).map fun i => (fieldAt p (8 + 4 * i) 1, fieldAt p (9 + 4 * i) 1, fieldAt p (10 + 4 * i) 2)
  let bad := es.findIdx? fun e => !(e.1 < 32 || (64 ≤ e.1 && e.1 < 72))
  if 40 < n then s.says r St.field
  else if p.length ≠ 8 + 4 * n then s.says r St.length
  else match bad with
    | some i => s.says r St.field [] i
    | none =>
      let expiry := s.cond.machineTime + 30000000000
      let on := s.plan.trays.filter s.trayPowered
      let s := s.modCond fun c => { c with rmCap := some (fieldAt p 0 4), leaseExpiry := expiry, orphan := false, trayCaps := [] }
      let s := es.foldl (fun (s : State) (e : Nat × Nat × Nat) => s.capEntry e.1 e.2.1 e.2.2) s
      let s := (s.plan.trays.filter fun t => s.trayPowered t ≠ on.contains t).foldl State.orderTray s
      let clear := (es.filter fun e => e.2.1 / 8 % 2 = 1 && 64 ≤ e.1).flatMap fun e => trayModules (e.1 % 64)
      if clear = [] then s.sendCaps.says r St.ok (leBytes 8 expiry)
      else s.sendCaps.askFor r clear .powerClearCut (leBytes 8 expiry)

/-- Whether a HOST_REQUEST may name what it names: a fabric host only its own module, a tray only one of the plan. [DEDUCED log 119] -/
def State.hostTarget (s : State) (r : CondReq) : Option Nat :=
  let t := fieldAt r.payload 0 1
  if t = 0xFF then some t
  else if r.role = .host then none
  else if s.plan.trays.contains t then some t
  else none

/-- HOST_REQUEST: power off or on, a cap set or cleared, of a compute tray or of the requester's module. [DEDUCED log 119] -/
def State.runHostRequest (s : State) (r : CondReq) : State :=
  let form := fieldAt r.payload 1 1
  let w := fieldAt r.payload 2 2
  match s.hostTarget r with
  | none => s.says r (if r.role = .host then St.notPermitted else St.field)
  | some t =>
    if 3 < form then s.says r St.field
    else if t = 0xFF then
      if form < 2 then s.says r St.notPermitted
      else
        let s := s.modCond fun c => { c with moduleHostCap :=
          if form = 2 then c.moduleHostCap.insert r.module w else c.moduleHostCap.erase r.module }
        s.sendCaps.says r St.ok
    else if form = 0 then
      (((s.modCond fun c => { c with trayOff := t :: c.trayOff.filter (· ≠ t) }).orderTray t).sendCaps).says r St.ok
    else if form = 1 then
      if !s.cond.trayPermit.contains t then s.says r St.notPermitted
      else (((s.modCond fun c => { c with trayOff := c.trayOff.filter (· ≠ t) }).orderTray t).sendCaps).says r St.ok
    else
      let s := s.modCond fun c => { c with trayHostCap :=
        if form = 2 then c.trayHostCap.insert t w else c.trayHostCap.erase t }
      s.sendCaps.says r St.ok

/-! ## Fences (R352, R354) -/

/-- UNIT_FENCE of an endpoint or a module, and its release, which only the RM may order. [DEDUCED log 120] -/
def State.runUnitFence (s : State) (r : CondReq) : State :=
  let kind := fieldAt r.payload 0 1
  let n := fieldAt r.payload 2 2
  let release : Bool := fieldAt r.payload 4 1 % 2 = 1
  if release && r.role ≠ .rm then s.says r St.notPermitted
  else if kind = 2 && s.plan.endpoints.contains n then
    (if release then s.releaseUnit (.endpoint n) else s.fenceUnit (.endpoint n)).says r St.ok
  else if kind = 3 && s.plan.modules.contains n then
    (if release then s.releaseUnit (.module n) else s.fenceModule n).says r St.ok
  else s.says r St.field

/-! ## All of them -/

/-- Run a forwarded command. -/
def State.runCommand (s : State) (r : CondReq) : State :=
  let stop : Bool := fieldAt r.payload 1 1 % 2 = 1
  match r.opcode with
  | 0x0200 => s.runPlanStage r
  | 0x0201 => s.runPlanAdopt r
  | 0x0202 => s.runPlanRead r
  | 0x0203 => s.runCondStatus r
  | 0x0204 => s.runRollcallRead r
  | 0x0205 => s.runAdoptDiscovered r
  | 0x0206 => s.runEventRead r
  | 0x0207 => if stop then s.runSequenceStop r else s.runSequence r
  | 0x0300 => s.runSliceAlloc r
  | 0x0301 => s.runSliceRelease r
  | 0x0302 => s.runSliceQuery r
  | 0x0303 => s.runSliceMark r
  | 0x0400 => s.runGroupDefine r
  | 0x0401 => s.runGroupDelete r
  | 0x0402 => s.runGroupReform r
  | 0x0505 => s.runShardWrite r
  | 0x0506 => s.runShardRead r
  | 0x0600 => s.runCapSet r
  | 0x0601 => s.runHostRequest r
  | 0x0806 => s.runUnitFence r
  | _ => s.says r St.opcode

end Sys2Proof.Machine
end

