-- ==== Sys2Proof/Machine/Entry.lean ====
section
/-! DEFINITION. The rows of the conductor's log and machine (13 R317; 14 R338, R339, R341 to R351; 15 R369, R374, R378, R381): inputs
and conductor commands enter the log, entries are forwarded and acknowledged, the machine runs the oldest entry that may be run, and
its deadlines fall due. -/

namespace Sys2Proof.Machine

/-! ## Running an entry (R338) -/

/-- What one report does. -/
def State.runReport (s : State) (e : LogEntry) : State :=
  match e.report with
  | .rollcall m p o far => s.runRollcall m p o far
  | .linkEvent m p up => s.runLinkEvent m p up
  | .pull m i => s.runPull m i
  | .missingRanks m slot step ranks => s.runMissing m slot step ranks
  | .binding m slot g bound => s.runBinding m slot g bound
  | .drainState m sl replay live streams => s.runDrainState m sl replay live streams
  | .error m code sev inst => s.runError m code sev inst
  | .rcsCmd m mb role op payload => s.runCommand { module := m, mb := mb, role := role, opcode := op, payload := payload }
  | .result m dseq status => s.runResult m dseq status
  | .sensor x => s.runSensor x
  | .probeResult ep alive => s.runProbe ep alive
  | .linkProbeLost m p => s.fenceUnit (.link m p)
  | .timer => s.runTimer e.rtime

/-- [DEDUCED log 121] -/
def State.runEntry (s : State) (e : LogEntry) : State := (s.runReport e).afterEntry

/-- Run the oldest entry that may be run, when it is of a kind. -/
def State.runKind (s : State) (kind : Report → Bool) : State :=
  if !s.runsMachine then s
  else
    match s.nextEntry kind with
    | none => s
    | some (e, s) => s.runEntry e

def execRollcall (s : State) : Host.Outcome State Fault Refusal :=
  .next (s.runKind fun r => match r with | .rollcall _ _ _ _ => true | _ => false).settle

def execLinkEvent (s : State) : Host.Outcome State Fault Refusal :=
  .next (s.runKind fun r => match r with | .linkEvent _ _ _ => true | _ => false).settle

def execPull (s : State) : Host.Outcome State Fault Refusal :=
  .next (s.runKind fun r => match r with | .pull _ _ => true | _ => false).settle

def execMissingRanks (s : State) : Host.Outcome State Fault Refusal :=
  .next (s.runKind fun r => match r with | .missingRanks _ _ _ _ => true | _ => false).settle

def execBinding (s : State) : Host.Outcome State Fault Refusal :=
  .next (s.runKind fun r => match r with | .binding _ _ _ _ => true | _ => false).settle

def execDrainState (s : State) : Host.Outcome State Fault Refusal :=
  .next (s.runKind fun r => match r with | .drainState _ _ _ _ _ => true | _ => false).settle

def execInputError (s : State) : Host.Outcome State Fault Refusal :=
  .next (s.runKind fun r => match r with | .error _ _ _ _ => true | _ => false).settle

def execRcsCmd (s : State) : Host.Outcome State Fault Refusal :=
  .next (s.runKind fun r => match r with | .rcsCmd _ _ _ _ _ => true | _ => false).settle

def execResult (s : State) : Host.Outcome State Fault Refusal :=
  .next (s.runKind fun r => match r with | .result _ _ _ => true | _ => false).settle

def execSensor (s : State) : Host.Outcome State Fault Refusal :=
  .next (s.runKind fun r => match r with | .sensor _ => true | _ => false).settle

/-- PROBE_RESULT, and what its type also carries here: a start-up probe without an answer. -/
def execProbeResult (s : State) : Host.Outcome State Fault Refusal :=
  .next (s.runKind fun r => match r with | .probeResult _ _ => true | .linkProbeLost _ _ => true | _ => false).settle

def execTimer (s : State) : Host.Outcome State Fault Refusal :=
  .next (s.runKind fun r => match r with | .timer => true | _ => false).settle

/-! ## Deadlines (R338): what falls due once a TIMER entry has passed its time -/

def State.dueNow (s : State) (d : Due) : Bool := s.runsMachine && s.cond.dues.any fun x => x.2 = d && decide (x.1 ≤ s.cond.machineTime)

def State.dropDue (s : State) (d : Due) : State := s.modCond fun c => { c with dues := c.dues.filter fun x => x.2 ≠ d }

def State.dueStage (s : State) : State := if s.dueNow .stage then s.stageTimeout.afterEntry else s

def State.dueRollcall (s : State) : State := if s.dueNow .rollcall then (s.dropDue .rollcall).closeRollcall.afterEntry else s

/-- A drain past its limit: the modules of its slices end what is left, and the procedure goes on (R350). -/
def State.forceProc (s : State) (p : Proc) : State :=
  let xs := s.cond.slices.filter fun x => p.slices.contains x.num
  let s := xs.foldl (fun (s : State) x =>
    s.outputs (s.liveModules.filter fun m => s.plan.slicePorts x m ≠ []) (.streamCut x.num)) s
  s.setProcs p [{ p with waiting := [] }]

def State.dueDrains (s : State) : State :=
  if !s.runsMachine then s
  else
    let late := s.cond.procs.filter fun p => p.stage = 3 && p.waiting ≠ [] && decide (p.deadline ≤ s.cond.machineTime)
    if late = [] then s else (late.foldl State.forceProc s).afterEntry

/-- The lease lapses: ORPHAN_CAP, no caps of the RM for trays (15 R369). -/
def State.dueLease (s : State) : State :=
  if !s.runsMachine || s.cond.leaseExpiry = 0 || s.cond.orphan || s.cond.machineTime < s.cond.leaseExpiry then s
  else
    let s := s.modCond fun c => { c with orphan := true, trayCaps := [] }
    ((s.condRecord E.leaseExpired).event 13 s.self).sendCaps

/-- FLOW_STOP_S passed: an orderly stop if the flow is still low (15 R374). -/
def State.dueFlowStop (s : State) : State :=
  if !s.dueNow .flowStop then s
  else
    let s := s.dropDue .flowStop
    if s.cond.flowLow then (s.beginStop 1 none).afterEntry else s

/-- The flow readings have disagreed for 60 s: the sensor is faulted (15 R378). -/
def State.dueCrosscheck (s : State) : State :=
  if !s.runsMachine || s.cond.flowFaulted || !(s.cond.flowSince.any fun t => decide (t + 60000000000 ≤ s.cond.machineTime)) then s
  else
    let s := s.modCond fun c => { c with flowFaulted := true, flowSince := none }
    (s.guardFault 0xFFFF s.cond.flowLpm).superviseFlow

/-- LEAK_DECIDE_S passed without an order: the tray is drained, fenced and switched off (15 R381). -/
def State.dueLeak (s : State) (t : Nat) : State :=
  if !s.dueNow (.leakDecide t) then s
  else
    let s := s.dropDue (.leakDecide t)
    let groups := (trayModules t).map (· % 16)
    let xs := s.cond.slices.filter fun x => (s.plan.rowsIn x).any groups.contains
    (s.drain (.trayOff t) xs []).afterEntry

/-- Everything that is due, in one order: what a conductor replays after each TIMER entry. -/
def State.allDue (s : State) : State :=
  s.dueStage.dueRollcall.dueDrains.dueLease.dueFlowStop.dueCrosscheck.each (List.range 8) State.dueLeak

def execStageTimeout (s : State) : Host.Outcome State Fault Refusal := .next s.dueStage.settle

def execRollcallClose (s : State) : Host.Outcome State Fault Refusal := .next s.dueRollcall.settle

/-- PROBE_TIMEOUT: no answer within 100 µs: this end of the link is fenced at once, and the machine hears of it, so that both ends
are. [DEDUCED log 110] -/
def State.probeTimeout (s : State) (port : Nat) : State :=
  if !(s.agent.probesOut.any fun p => p.1 = port && decide (p.2 + 100000 ≤ s.rackTime)) then s
  else
    let s := { s with agent := { s.agent with probesOut := s.agent.probesOut.filter fun p => p.1 ≠ port } }
    (s.applyFence (.link s.self port) 3).report (.linkProbeLost s.self port)

def execProbeTimeout (port : Nat) (s : State) : Host.Outcome State Fault Refusal := .next (s.probeTimeout port).settle

/-- [DEDUCED log 102] -/
def execDrainForced (s : State) : Host.Outcome State Fault Refusal := .next s.dueDrains.settle

/-- [DESIGN CHOICE log 4] -/
def execLeaseExpired (s : State) : Host.Outcome State Fault Refusal := .next s.dueLease.settle

def execFlowStop (s : State) : Host.Outcome State Fault Refusal := .next s.dueFlowStop.settle

def execFlowCrosscheck (s : State) : Host.Outcome State Fault Refusal := .next s.dueCrosscheck.settle

def execLeakDecide (tray : Nat) (s : State) : Host.Outcome State Fault Refusal := .next (s.dueLeak tray).settle

/-! ## The log (R338, R339) -/

/-- INPUT_RECEIVE: each (AGENT, ASEQ) is logged once and acknowledged each time. The module's own reports come to it without a link. [DEDUCED log 121] -/
def State.inputReceive (s : State) (msg : DrpMsg) : State :=
  match msg.body with
  | .report r =>
    if r = .timer || msg.dclass ≠ 2 || !s.sequences then s
    else
      let own : Bool := msg.agent = s.self && s.agent.unacked.contains (msg.seq, r)
      match (if own then some s else s.drpTake msg) with
      | none => s.drpBad msg
      | some s =>
        let s := if s.cond.seenInputs.contains (msg.agent, msg.seq) then s else s.logInput msg.agent msg.seq r
        if own then { s with agent := { s.agent with unacked := s.agent.unacked.filter fun e => e.1 ≠ msg.seq } }
        else s.emit (.inputAck msg.agent msg.seq)
  | _ => s

def execInputReceive (msg : DrpMsg) (s : State) : Host.Outcome State Fault Refusal := .next (s.inputReceive msg)

/-- TIMER_ENTRY_WRITE. [DEDUCED log 121] -/
def execTimerEntryWrite (s : State) : Host.Outcome State Fault Refusal :=
  .next (if s.sequences then s.logInput s.self 0 .timer else s)

/-- PAIR_FORWARD_RECEIVE: the next entry is stored; its commit is acknowledged, and it may then be run (16 R388). -/
def State.pairForward (s : State) (e : LogEntry) : State :=
  if !(s.cmode = 3 || s.cmode = 4) || e.index ≠ s.cond.nextIdx then s
  else
    let s := s.modCond fun c => { c with
      log := c.log ++ [e], nextIdx := e.index + 1
      seenInputs := if e.report = Report.timer then c.seenInputs else (e.agent, e.aseq) :: c.seenInputs }
    s.askLedger 10 (e.index % 65536) (entryBytes e)

def execPairForwardReceive (e : LogEntry) (s : State) : Host.Outcome State Fault Refusal := .next ((s.ev U.hub 0x04).pairForward e)

/-- PAIR_ACK_RECEIVE: the entries up to an index may be run. -/
def State.pairAcked (s : State) (index : Nat) : State :=
  if s.cmode ≠ 1 || index ≤ s.cond.committed then s
  else s.modCond fun c => { c with
    ready := c.ready ++ c.log.filter fun e => c.committed < e.index && e.index ≤ index
    committed := index }

def execPairAckReceive (index : Nat) (s : State) : Host.Outcome State Fault Refusal := .next ((s.ev U.hub 0x04).pairAcked index)

/-! ## Conductor commands at the module that accepts them (13 R317) -/

/-- Whether this module has heard the acting conductor within 3 ms. [DEDUCED log 67, 105] -/
def State.hearsActing (s : State) : Bool :=
  s.recent (if s.agent.acting = s.plan.primary then s.agent.heardPrimary else s.agent.heardSecondary) 3000000

/-- The command enters the log here or is forwarded, and waits for its answer (kind 2 of `waitCmds`). A conductor alone, with nothing
else to run, runs it at once. [DEDUCED log 67] -/
def State.condForward (s : State) (mb : MbxRef) (x : MbxSt) : State :=
  let rep := Report.rcsCmd s.self mb x.role x.req.opcode x.req.payload
  let wait : State := { s with waitCmds := s.waitCmds ++ [(mb, 2, 0)] }
  if s.sequences then
    let a := s.agent
    let alone : Bool := s.cmode = 2 && s.cond.ready = []
    let s := ({ wait with agent := { a with aseq := a.aseq + 1 } }).logInput s.self a.aseq rep
    if alone then s.runKind fun _ => true else s
  else if s.hearsActing then wait.report rep
  else s.complete mb St.unreachable

/-- A conductor command row, for the requests of its form. -/
def State.condRow (s : State) (mb : MbxRef) (op : Nat) (form : List Byte → Bool := fun _ => true) : State :=
  s.rcs mb op fun s x => if form x.req.payload then s.condForward mb x else s

def execPlanStage (mb : MbxRef) (s : State) : Host.Outcome State Fault Refusal := .next (s.condRow mb 0x0200).settle

def execPlanAdopt (mb : MbxRef) (s : State) : Host.Outcome State Fault Refusal := .next (s.condRow mb 0x0201).settle

def execPlanRead (mb : MbxRef) (s : State) : Host.Outcome State Fault Refusal := .next (s.condRow mb 0x0202).settle

def execCondStatus (mb : MbxRef) (s : State) : Host.Outcome State Fault Refusal := .next (s.condRow mb 0x0203).settle

def execRollcallRead (mb : MbxRef) (s : State) : Host.Outcome State Fault Refusal := .next (s.condRow mb 0x0204).settle

def execAdoptDiscovered (mb : MbxRef) (s : State) : Host.Outcome State Fault Refusal := .next (s.condRow mb 0x0205).settle

def execEventRead (mb : MbxRef) (s : State) : Host.Outcome State Fault Refusal := .next (s.condRow mb 0x0206).settle

def execRackSequence (mb : MbxRef) (s : State) : Host.Outcome State Fault Refusal :=
  .next (s.condRow mb 0x0207 fun p => fieldAt p 1 1 % 2 = 0).settle

def execRackSequenceStop (mb : MbxRef) (s : State) : Host.Outcome State Fault Refusal :=
  .next (s.condRow mb 0x0207 fun p => fieldAt p 1 1 % 2 = 1).settle

def execSliceAlloc (mb : MbxRef) (s : State) : Host.Outcome State Fault Refusal := .next (s.condRow mb 0x0300).settle

def execSliceRelease (mb : MbxRef) (s : State) : Host.Outcome State Fault Refusal := .next (s.condRow mb 0x0301).settle

def execSliceQuery (mb : MbxRef) (s : State) : Host.Outcome State Fault Refusal := .next (s.condRow mb 0x0302).settle

def execSliceMark (mb : MbxRef) (s : State) : Host.Outcome State Fault Refusal := .next (s.condRow mb 0x0303).settle

def execGroupDefine (mb : MbxRef) (s : State) : Host.Outcome State Fault Refusal := .next (s.condRow mb 0x0400).settle

def execGroupDelete (mb : MbxRef) (s : State) : Host.Outcome State Fault Refusal := .next (s.condRow mb 0x0401).settle

def execGroupReform (mb : MbxRef) (s : State) : Host.Outcome State Fault Refusal := .next (s.condRow mb 0x0402).settle

def execShardWrite (mb : MbxRef) (s : State) : Host.Outcome State Fault Refusal := .next (s.condRow mb 0x0505).settle

def execShardRead (mb : MbxRef) (s : State) : Host.Outcome State Fault Refusal := .next (s.condRow mb 0x0506).settle

def execCapSet (mb : MbxRef) (s : State) : Host.Outcome State Fault Refusal := .next (s.condRow mb 0x0600).settle

/-- A HOST_REQUEST of none of the four forms is taken by each of their rows, and refused. -/
def hostForm (n : Nat) (p : List Byte) : Bool := fieldAt p 1 1 = n || 3 < fieldAt p 1 1

def execHostRequestOff (mb : MbxRef) (s : State) : Host.Outcome State Fault Refusal := .next (s.condRow mb 0x0601 (hostForm 0)).settle

def execHostRequestOn (mb : MbxRef) (s : State) : Host.Outcome State Fault Refusal := .next (s.condRow mb 0x0601 (hostForm 1)).settle

def execHostRequestCap (mb : MbxRef) (s : State) : Host.Outcome State Fault Refusal := .next (s.condRow mb 0x0601 (hostForm 2)).settle

def execHostRequestClearCap (mb : MbxRef) (s : State) : Host.Outcome State Fault Refusal :=
  .next (s.condRow mb 0x0601 (hostForm 3)).settle

/-- UNIT_FENCE of a port is this module's own; of an endpoint or a module it goes to the conductor (14 R352). Only the RM releases. [DEDUCED log 120] -/
def State.unitFence (s : State) (mb : MbxRef) (release : Bool) : State :=
  s.rcs mb 0x0806 fun s x =>
    let p := x.req.payload
    let n := fieldAt p 2 2
    if (fieldAt p 4 1 % 2 = 1) ≠ release then s
    else if fieldAt p 0 1 ≠ 1 then s.condForward mb x
    else if release && x.role ≠ .rm then s.complete mb St.notPermitted
    else if 152 ≤ n then s.complete mb St.field
    else (if release then s.applyRelease (.port n) else s.applyFence (.port n) 2).complete mb St.ok

/-- [DEDUCED log 120] -/
def execUnitFence (mb : MbxRef) (s : State) : Host.Outcome State Fault Refusal := .next (s.unitFence mb false).settle

/-- [DEDUCED log 120] -/
def execUnitFenceRelease (mb : MbxRef) (s : State) : Host.Outcome State Fault Refusal := .next (s.unitFence mb true).settle

end Sys2Proof.Machine
end

