-- ==== Sys2Proof/Machine/Castle.lean ====
section
/-! DEFINITION. The pair of conductors (14 R336, R339, R340, R355 to R364): heartbeats, digests, checkpoints, takeover, cold restart,
shadow, failback, self-test and health. Kinds of a CASTLE message as the module emits it: 1 TAKEOVER, 2 ACCEPT, 3 REFUSED, 4 CONFIRM,
5 WITHDRAW, 6 FAILBACK, 7 HANDBACK. -/

namespace Sys2Proof.Machine

/-- The bytes of the machine's state in a checkpoint, whose layout the spec does not give (R340; 16 R388). [DESIGN CHOICE log 16] -/
opaque condImage : Cond → List Byte

/-- The machine's state in the checkpoint after a log index, as fetched from the acting conductor (R359). [DESIGN CHOICE log 16] -/
opaque fetchedCkpt : Nat → Cond

def State.modPair (s : State) (g : Pair → Pair) : State := { s with pair := g s.pair }

def State.modAgent (s : State) (g : Agent → Agent) : State := { s with agent := g s.agent }

/-- The plan's conductors. -/
def State.conductors (s : State) : List Nat := [s.plan.primary, s.plan.secondary]

/-! ## Heartbeats (R336) -/

/-- A heartbeat of the primary or the secondary is heard now. -/
def State.heard (s : State) (primary : Bool) : State :=
  s.modAgent fun a => if primary then { a with heardPrimary := some s.rackTime } else { a with heardSecondary := some s.rackTime }

/-- HEARTBEAT_SEND: a conductor that acts or follows, to every module and the other conductor. [DEDUCED log 105] -/
def State.heartbeatSend (s : State) : State :=
  if !(s.cmode = 1 || s.cmode = 2 || s.cmode = 3) then s
  else
    let s := s.others.foldl (fun (s : State) m => (s.emit (.heartbeat m (s.rd F.condStatCterm))).ev U.hub 0x03) s
    s.heard (s.rd F.condStatRole = 1)

def execHeartbeatSend (s : State) : Host.Outcome State Fault Refusal := .next s.heartbeatSend

/-- HEARTBEAT_RECEIVE: discarded below the current term; a module that has accepted no term takes its term. A conductor speaks, so
the orphan share lapses (15 R370). [DEDUCED log 105] -/
def State.heartbeatReceive (s : State) (fromPrimary : Bool) (cterm : Nat) : State :=
  let cur := s.rd F.condStatCterm
  if cterm < cur then s
  else
    let s := if cur = 0 then s.wr F.condStatCterm (cterm % 65536) else s
    ({ s.heard fromPrimary with power := { s.power with orphan := none } }).showPower

def execHeartbeatReceive (fromPrimary : Bool) (cterm : Nat) (s : State) : Host.Outcome State Fault Refusal :=
  .next ((s.ev U.hub 0x04).heartbeatReceive fromPrimary cterm)

/-- When the other conductor was last heard. [DEDUCED log 123] -/
def State.partnerHeard (s : State) : Option Nat := if s.rd F.condStatRole = 1 then s.agent.heardSecondary else s.agent.heardPrimary

/-! ## Changes of mode (R355) -/

def State.setMode (s : State) (m : Nat) : State := s.wr F.condStatMode m

/-- Go to COLD: nothing waits to be run or told. -/
def State.goCold (s : State) : State :=
  ((s.modCond fun c => { c with ready := [] }).modPair fun p =>
    { p with newDigests := [], peerDigests := [], votes := [], refusals := [], takeoverTerm := none, shadowMatches := 0
             shadowSince := none }).setMode 5

/-- Act alone: the entries that the partner has not committed may be run too. -/
def State.goSolo (s : State) : State :=
  (s.modCond fun c => { c with ready := c.ready ++ c.log.filter fun e => c.committed < e.index, committed := c.nextIdx - 1 }).setMode 2

/-- Go to OUT (R362). -/
def State.goOut (s : State) : State :=
  let d := s.detected E.conductorOut s.self
  (d.1.raise E.conductorOut s.self 0 0 none d.2).goCold.setMode 6

/-- Resend what has not been acknowledged after a change of term: the acting conductor its outputs, every agent its inputs (R357). -/
def State.resendAll (s : State) : State :=
  let s := if s.sequences then s.cond.outs.foldl (fun (s : State) o => s.sendCopies o false) s else s
  s.agent.unacked.foldl (fun (s : State) (e : Nat × Report) => (s.emit (.report e.2 e.1)).ev U.hub 0x03) s

/-! ## Digests (R339, R357, R360) -/

/-- DIGEST_EXCHANGE. -/
def execDigestExchange (s : State) : Host.Outcome State Fault Refusal :=
  .next (if !s.runsMachine then s
    else ((s.emit (.pairDigests s.pair.newDigests)).ev U.hub 0x03).modPair fun p => { p with newDigests := [] })

/-- The acting conductor finds a divergence: it acts alone and asserts its own version of what is not critical. [DEDUCED log 121] -/
def State.divergence (s : State) (dseqs : List Nat) : State :=
  let now := s.rackTime
  let s := s.modPair fun p => { p with divergences := now :: p.divergences.filter fun t => now ≤ t + 86400000000000 }
  let s := s.goSolo
  (s.pair.sent.filter fun o => dseqs.contains o.dseq && !o.critical).foldl (fun (s : State) o => s.sendCopies o true) s

/-- SHADOW fails: back to COLD, and to OUT at the third time within 1 h (R360, R362). -/
def State.failShadow (s : State) : State :=
  let now := s.rackTime
  let fails := now :: s.pair.shadowFails.filter fun t => now ≤ t + 3600000000000
  let s := (s.modPair fun p => { p with shadowFails := fails }).goCold
  if 3 ≤ fails.length then s.goOut else s

/-- DIGEST_RECEIVE: the digests of outputs made here are compared; the others wait. [DEDUCED log 121] -/
def State.digestReceive (s : State) (ds : List (Nat × BitVec 128)) : State :=
  let all := s.pair.peerDigests ++ ds
  let made := all.filter fun d => d.1 < s.cond.dseq
  let same (d : Nat × BitVec 128) (o : CondOut) : Bool := o.dseq = d.1 && outDigest o = d.2
  let known := made.filter fun d => s.pair.sent.any fun o => o.dseq = d.1
  let bad := (known.filter fun d => !(s.pair.sent.any (same d))).map fun d => d.1
  let good := known.length - bad.length
  let s := s.modPair fun p => { p with peerDigests := all.filter fun d => s.cond.dseq ≤ d.1 }
  if s.cmode = 1 then
    let c := s.check E.conductorDiverged s.self (bad ≠ []) (bad.headD 0)
    if c.2 then c.1.divergence bad else c.1
  else if s.cmode = 3 then (if bad ≠ [] then s.goCold else s)
  else if s.cmode = 4 then
    (if bad ≠ [] then s.failShadow else s.modPair fun p => { p with shadowMatches := p.shadowMatches + good })
  else if s.cmode = 2 then
    s.modPair fun p => if bad ≠ [] then { p with shadowMatches := 0, shadowSince := none }
      else { p with shadowMatches := p.shadowMatches + good }
  else s

def execDigestReceive (ds : List (Nat × BitVec 128)) (s : State) : Host.Outcome State Fault Refusal :=
  .next ((s.ev U.hub 0x04).digestReceive ds)

/-! ## Checkpoints (R340; 16 R388) -/

/-- CONDUCTOR_CHECKPOINT: the machine's state after the last entry run; the log keeps what follows the two newest checkpoints. [DEDUCED log 122] -/
def State.checkpoint (s : State) : State :=
  if !s.runsMachine then s
  else
    let c := s.cond
    let s := s.askLedger 9 0 (leBytes 8 c.lastRun ++ leBytes 2 (s.rd F.condStatCterm) ++ leBytes 8 c.dseq ++
      leBytes 48 s.planHash.toNat ++ condImage c)
    let kept := ((c.lastRun, c) :: s.ckpts.filter fun k => k.1 ≠ c.lastRun).take 2
    let floor := match kept with | [_, old] => old.1 | _ => 0
    ({ s with ckpts := kept, cond := { c with log := c.log.filter fun e => floor < e.index } }).modPair fun p => { p with ckptIndex := c.lastRun }

def execConductorCheckpoint (s : State) : Host.Outcome State Fault Refusal := .next s.checkpoint

/-! ## Takeover (R358, R364) -/

/-- A CASTLE message to each of some agents. -/
def State.casts (s : State) (kind cterm arg : Nat) (dests : List Nat) : State :=
  dests.foldl (fun (s : State) a => (s.emit (.drpCast kind cterm s.self a arg)).ev U.hub 0x03) s

/-- Every agent but this module. -/
def State.everyAgent (s : State) : List Nat := s.others ++ s.plan.trays.map trayAgent ++ [rmAgent]

/-- TAKEOVER: a follower that has not heard its partner for 3 ms asks every module. -/
def State.takeover (s : State) : State :=
  if s.cmode ≠ 3 || s.pair.takeoverTerm.isSome || s.recent s.partnerHeard 2999999 then s
  else
    let term := s.rd F.condStatCterm + 1
    (s.modPair fun p => { p with takeoverTerm := some term, votes := [s.self], refusals := [] }).casts 1 term 0 s.others

def execTakeover (s : State) : Host.Outcome State Fault Refusal := .next s.takeover

/-- A message of another conductor in a term already taken: reported, and the first is kept (R364). -/
def State.castleClash (s : State) : State :=
  let d := s.detected E.conductorDiverged s.self
  d.1.raise E.conductorDiverged s.self 0 0 none d.2

/-- TAKEOVER_RECEIVE: accepted only above the current term, while the other conductor has been silent for 2 ms and no failback is
under way. -/
def State.takeoverReceive (s : State) (cterm from_ : Nat) : State :=
  let rival := if from_ = s.plan.primary then s.agent.heardSecondary else s.agent.heardPrimary
  if !s.conductors.contains from_ then s
  else if (s.agent.castle.any fun c => c.1 = cterm && c.2 ≠ from_) then s.castleClash.casts 3 cterm 0 [from_]
  else if s.rd F.condStatCterm < cterm && !s.recent rival 1999999 && !s.agent.handbackSeen then
    (s.modAgent fun a => { a with castle := some (cterm, from_) }).casts 2 cterm 0 [from_]
  else s.casts 3 cterm 0 [from_]

def execTakeoverReceive (cterm from_ : Nat) (s : State) : Host.Outcome State Fault Refusal :=
  .next ((s.ev U.hub 0x04).takeoverReceive cterm from_)

/-- The log from the first index after the last entry committed here: later ones are not in it. -/
def State.dropUncommitted (s : State) : State :=
  s.modCond fun c =>
    let gone := (c.log.filter fun e => c.committed < e.index).map fun e => (e.agent, e.aseq)
    { c with log := c.log.filter fun e => e.index ≤ c.committed, ready := c.ready.filter fun e => e.index ≤ c.committed
             nextIdx := c.committed + 1, seenInputs := c.seenInputs.filter fun i => !gone.contains i }

/-- Take a new term at this module: open pairing windows are discarded. -/
def State.newTerm (s : State) (cterm from_ acting : Nat) : State :=
  (s.wr F.condStatCterm (cterm % 65536)).modAgent fun a =>
    { a with held := [], acting := acting, castle := some (cterm, from_), handbackSeen := false }

/-- More than half accept. -/
def State.winTakeover (s : State) (cterm : Nat) : State :=
  let s := (s.dropUncommitted.newTerm cterm s.self s.self).modPair fun p => { p with takeoverTerm := none, votes := [], refusals := [] }
  ((s.casts 4 cterm s.self s.everyAgent).setMode 2).resendAll

/-- The vote fails. [DEDUCED log 105] -/
def State.loseTakeover (s : State) (cterm : Nat) : State :=
  let d := s.detected E.primaryUnseen s.self
  ((d.1.raise E.primaryUnseen s.self cterm 0 none d.2).casts 5 cterm 0 s.others).goCold

/-- VOTE_RECEIVE: counted with the follower's own; the vote fails once half have refused. [DEDUCED log 105] -/
def State.voteReceive (s : State) (from_ cterm : Nat) (accept : Bool) : State :=
  if s.cmode ≠ 3 || s.pair.takeoverTerm ≠ some cterm || !s.others.contains from_ then s
  else
    let n := s.plan.modules.length
    let put (l : List Nat) : List Nat := from_ :: l.filter (· ≠ from_)
    let s := s.modPair fun p => if accept then { p with votes := put p.votes } else { p with refusals := put p.refusals }
    if n < 2 * s.pair.votes.length then s.winTakeover cterm
    else if n ≤ 2 * s.pair.refusals.length then s.loseTakeover cterm
    else s

def execVoteReceive (from_ cterm : Nat) (accept : Bool) (s : State) : Host.Outcome State Fault Refusal :=
  .next ((s.ev U.hub 0x04).voteReceive from_ cterm accept)

/-- CONFIRM: an agent accepts a higher term; a conductor that acted and is not the one named goes to COLD. [DEDUCED log 105] -/
def State.confirm (s : State) (cterm from_ acting : Nat) : State :=
  let cur := s.rd F.condStatCterm
  if cterm < cur || !s.conductors.contains from_ || !s.conductors.contains acting then s
  else if (s.agent.castle.any fun c => c.1 = cterm && c.2 ≠ from_) then s.castleClash
  else if cterm = cur then s
  else
    let s := { s.newTerm cterm from_ acting with power := { s.power with orphan := none } }.showPower
    let s := if s.sequences && acting ≠ s.self then s.goCold else s
    s.resendAll

/-- [DEDUCED log 105] -/
def execConfirm (cterm from_ acting : Nat) (s : State) : Host.Outcome State Fault Refusal :=
  .next ((s.ev U.hub 0x04).confirm cterm from_ acting)

/-- WITHDRAW: at the module that had asked, the takeover fails; at the others, an acceptance of it lapses. -/
def State.withdraw (s : State) (cterm : Nat) : State :=
  if s.cmode = 3 && s.pair.takeoverTerm = some cterm then s.loseTakeover cterm
  else if (s.agent.castle.any fun c => c.1 = cterm && s.rd F.condStatCterm < cterm) then s.modAgent fun a => { a with castle := none }
  else s

def execWithdraw (cterm : Nat) (s : State) : Host.Outcome State Fault Refusal := .next ((s.ev U.hub 0x04).withdraw cterm)

/-- SECONDARY_LOST. -/
def State.secondaryLost (s : State) : State :=
  if s.cmode ≠ 1 || s.recent s.partnerHeard 2999999 then s
  else
    let d := s.detected E.secondaryLost s.self
    (d.1.raise E.secondaryLost s.self 0 0 none d.2).goSolo

/-- [DEDUCED log 123] -/
def execSecondaryLost (s : State) : Host.Outcome State Fault Refusal := .next s.secondaryLost

/-! ## Restart, shadow, failback (R359 to R361) -/

/-- Replay entries: each is run, and what falls due after a TIMER entry with it. [DEDUCED log 121] -/
def State.replayLog (s : State) (es : List LogEntry) : State :=
  es.foldl (fun (s : State) e =>
    let s := (s.modCond fun c => { c with lastRun := e.index }).runEntry e
    if e.report = Report.timer then s.allDue else s) s

/-- The checkpoint that a restart loads: this module's own unless it is UNTRUSTED or not held; index 0 is a machine that has run
nothing. [DEDUCED log 122] -/
def State.ckptAt (s : State) (index : Nat) : Cond :=
  if index = 0 then {}
  else match s.ckpts.find? fun k => k.1 = index && !s.ledger.untrusted.contains (9, 0) with
    | some k => k.2
    | none => fetchedCkpt index

/-- COLD_RESTART: nothing but the machine's state comes out of the replay. [DEDUCED log 122] -/
def State.coldRestart (s : State) (ckptIndex : Nat) (entries : List LogEntry) : State :=
  if s.cmode ≠ 5 then s
  else
    let base := s.ckptAt ckptIndex
    let es := entries.filter fun e => ckptIndex < e.index
    let last := es.foldl (fun n e => Nat.max n e.index) ckptIndex
    let r := ({ s with cond := base, pair := { s.pair with sent := [] } }).replayLog es
    let seen := (es.filter fun e => e.report ≠ Report.timer).map fun e => (e.agent, e.aseq)
    let c := { r.cond with log := es, ready := [], nextIdx := last + 1, committed := last, lastRun := last
                           seenInputs := seen.reverse ++ base.seenInputs }
    let s := { s with cond := c, pair := { s.pair with sent := r.pair.sent, newDigests := [], peerDigests := [], shadowMatches := 0
                                                       shadowSince := some s.rackTime } }
    (s.wr F.condStatLogidx (last % 2 ^ 32)).setMode 4

def execColdRestart (ckptIndex : Nat) (entries : List LogEntry) (s : State) : Host.Outcome State Fault Refusal :=
  .next (s.coldRestart ckptIndex entries)

/-- LOG_FETCH_RECEIVE: the entries from an index on, or a new checkpoint with what follows it; the count of matching outputs starts. [DEDUCED log 122] -/
def State.logFetch (s : State) (fromIndex : Nat) (wantCkpt : Bool) : State :=
  if !s.sequences then s
  else
    let s := s.modPair fun p => { p with shadowMatches := 0, shadowSince := some s.rackTime }
    let oldest := (s.cond.log.map fun e => e.index).headD s.cond.nextIdx
    if wantCkpt || fromIndex < oldest then
      let k := s.cond.lastRun
      (s.emit (.pairCkpt k)).emit (.pairEntries (s.cond.log.filter fun e => k < e.index))
    else s.emit (.pairEntries (s.cond.log.filter fun e => fromIndex ≤ e.index))

def execLogFetchReceive (fromIndex : Nat) (wantCkpt : Bool) (s : State) : Host.Outcome State Fault Refusal :=
  .next ((s.ev U.hub 0x04).logFetch fromIndex wantCkpt)

/-- Whether SHADOW has succeeded: 1,000 matches, or 10 s. -/
def State.shadowDone (s : State) (timedOut : Bool) : Bool :=
  1000 ≤ s.pair.shadowMatches || (timedOut && s.pair.shadowSince.any fun t => decide (t + 10000000000 ≤ s.rackTime))

/-- SHADOW_COMPLETE: a secondary follows again, an acting primary leads; a primary asks for control back. -/
def State.shadowComplete (s : State) (timedOut : Bool) : State :=
  let role := s.rd F.condStatRole
  if !s.shadowDone timedOut then s
  else if s.cmode = 4 then
    (if role = 2 then s.setMode 3 else s.casts 6 (s.rd F.condStatCterm) 0 [s.partner])
  else if s.cmode = 2 && role = 1 then s.setMode 1
  else s

def execShadowComplete (timedOut : Bool) (s : State) : Host.Outcome State Fault Refusal := .next (s.shadowComplete timedOut)

/-- Give up control to the partner: HANDBACK with the last index logged, CONFIRM of the next term naming the partner, FOLLOW. [DEDUCED log 122] -/
def State.handOver (s : State) : State :=
  let last := s.cond.nextIdx - 1
  let term := s.rd F.condStatCterm + 1
  let s := s.casts 7 (s.rd F.condStatCterm) last [s.partner]
  let s := (s.casts 4 term s.partner s.everyAgent).newTerm term s.self s.partner
  ((s.modCond fun c => { c with committed := last }).setMode 3).resendAll

/-- FAILBACK: the acting secondary hands control back. -/
def execFailback (s : State) : Host.Outcome State Fault Refusal :=
  .next (if s.cmode = 2 && s.rd F.condStatRole = 2 then (s.ev U.hub 0x04).handOver else s)

/-- HANDBACK: the primary in SHADOW, or in a planned handover the follower, leads from the next index; another module notes it. [DEDUCED log 123] -/
def State.handback (s : State) (index : Nat) : State :=
  if (s.cmode = 4 && s.rd F.condStatRole = 1) || s.cmode = 3 then
    let s := s.modCond fun c => { c with
      log := c.log.filter fun e => e.index ≤ index, ready := c.ready.filter fun e => e.index ≤ index
      nextIdx := index + 1, committed := index }
    ((s.modAgent fun a => { a with acting := s.self }).setMode 1).resendAll
  else s.modAgent fun a => { a with handbackSeen := true }

def execHandback (index : Nat) (s : State) : Host.Outcome State Fault Refusal := .next ((s.ev U.hub 0x04).handback index)

/-! ## Self-test and health (R362, R363) -/

/-- SELFTEST: a cycle has run. A failure in a LEAD starts a planned handover; the third within 1 h leads to OUT. -/
def State.selftest (s : State) (pass : Bool) : State :=
  if s.rd F.condStatRole = 0 || s.cmode = 0 || s.cmode = 6 then s
  else
    let now := s.rackTime
    let old := s.pair.selftestFails.filter fun t => now ≤ t + 3600000000000
    let fails := if pass then old else now :: old
    let s := (s.wr F.condSelftestLastPass (if pass then 1 else 0)).wr F.condSelftestFails (Nat.min fails.length 127)
    let s := s.modPair fun p => { p with selftestFails := fails, selftestAge := 0 }
    let s := if !pass && s.cmode = 1 then s.handOver else s
    if !pass && 3 ≤ fails.length then s.goOut else s

def execSelftest (pass : Bool) (s : State) : Host.Outcome State Fault Refusal := .next (s.selftest pass)

/-- HEALTH_SEND: to the rack manager and the other conductor. [DESIGN CHOICE log 17; DEDUCED log 122] -/
def State.healthSend (s : State) : State :=
  if s.rd F.condStatRole = 0 || s.cmode = 0 then s
  else
    let now := s.rackTime
    let div := (s.pair.divergences.filter fun t => now ≤ t + 86400000000000).length
    let log := s.cond.nextIdx - 1
    let pass : Bool := s.flag F.condSelftestLastPass
    let term := s.rd F.condStatCterm
    let bytes := leBytes 1 s.cmode ++ leBytes 2 term ++ leBytes 8 log ++ leBytes 8 s.pair.ckptIndex ++
      leBytes 1 (if pass then 1 else 0) ++ leBytes 2 div ++ leBytes 8 (s.phys.timeOffset % 2 ^ 64).toNat
    ((s.emit (.health s.cmode term log s.pair.ckptIndex pass div s.phys.timeOffset)).ev U.hub 0x03).modPair fun p =>
      { p with lastHealth := bytes }

def execHealthSend (s : State) : Host.Outcome State Fault Refusal := .next s.healthSend

end Sys2Proof.Machine
end

