-- ==== Sys2Proof/Machine/Tap.lean ====
section
/-! DEFINITION. The test access port (19 R456): what one scan of the data register does under each instruction. A chain's head is the
cell next to TDO. `cells` are the signals that the boundary cells capture. -/

namespace Sys2Proof.Machine

/-- Shift bits through a chain: the bits that leave at TDO, and what the chain then holds. [PRESUMED log 125] -/
def scanChain (chain tdi : List Bool) : List Bool × List Bool := ((chain ++ tdi).take tdi.length, (chain ++ tdi).drop tdi.length)

/-- The instruction in force: 0 BYPASS, 1 IDCODE, 2 SAMPLE/PRELOAD, 3 EXTEST, 4 EXTEST_PULSE, 5 EXTEST_TRAIN. [PRESUMED log 125] -/
def State.tapSelect (s : State) (ir : Nat) (drive : Bool) : State :=
  { s with phys := { s.phys with tapIr := ir, scanDrive := drive } }

/-- BYPASS: one cell, which captures 0. [PRESUMED log 125] -/
def State.tapBypass (s : State) (tdi : List Bool) : State := (s.tapSelect 0 false).emit (.tdo (scanChain [false] tdi).1)

def execBypass (tdi : List Bool) (s : State) : Host.Outcome State Fault Refusal := .next (s.tapBypass tdi)

/-- IDCODE. -/
def idcodeBits : List Bool := (List.range 32).map fun k => (0x171013CF : BitVec 32).getLsbD k

/-- [PRESUMED log 125] -/
def execIdcode (tdi : List Bool) (s : State) : Host.Outcome State Fault Refusal :=
  .next ((s.tapSelect 1 false).emit (.tdo (scanChain idcodeBits tdi).1))

/-- A scan of the boundary register: the captured cells leave, what is shifted in is held for the next test. [PRESUMED log 125] -/
def State.tapBoundary (s : State) (cells tdi : List Bool) : State :=
  let r := scanChain cells tdi
  { s with phys := { s.phys with boundary := r.2 } }.emit (.tdo r.1)

/-- SAMPLE/PRELOAD. [PRESUMED log 125] -/
def execSamplePreload (cells tdi : List Bool) (s : State) : Host.Outcome State Fault Refusal :=
  .next ((s.tapSelect 2 false).tapBoundary cells tdi)

/-- A test that drives the lands: only while MAIN_RST_N is held low, BYPASS at any other time. [PRESUMED log 125] -/
def State.tapDrive (s : State) (kind : Nat) (cells tdi : List Bool) : State :=
  if !s.phys.mainRstLow then s.tapBypass tdi
  else
    let s := (s.tapSelect (3 + kind) true).tapBoundary cells tdi
    s.emit (.scan kind s.phys.boundary)

/-- [PRESUMED log 125] -/
def execExtest (cells tdi : List Bool) (s : State) : Host.Outcome State Fault Refusal := .next (s.tapDrive 0 cells tdi)

def execExtestPulse (cells tdi : List Bool) (s : State) : Host.Outcome State Fault Refusal := .next (s.tapDrive 1 cells tdi)

def execExtestTrain (cells tdi : List Bool) (s : State) : Host.Outcome State Fault Refusal := .next (s.tapDrive 2 cells tdi)

end Sys2Proof.Machine
end

