-- ==== Sys2Proof/Machine/Late.lean ====
section
/-! DEFINITION. Rows whose effect also completes a waiting command: a report from another module, which a binding may wait for (05 R103,
R116), the end of an instance (05 R119, R136) and the switch of the table generation (03 R57; 13 R320, R327); and promotion at the five
arbiters (04 R98 to R100). -/

namespace Sys2Proof.Machine

/-- Complete the commands that wait for a condition. -/
def State.waitersDone (s : State) (mine : MbxRef × Nat × Nat → Bool) (rsp : List Byte) : State :=
  let ws := s.waitCmds.filter mine
  ws.foldl (fun (s : State) w => s.complete w.1 St.ok rsp) { s with waitCmds := s.waitCmds.filter fun w => !mine w }

/-- COLL_CTRL_RECEIVE: what a helper, or the module of a peer's slot, tells this home, or the COLL_CTRL that waits at a helper. -/
def State.collCtrl (s : State) (report : Option HelperReport) : State :=
  match report with
  | none => s.takeTerminal
  | some r => match r.msg with
    | .lost => s.takeLost r
    | .bound st => s.takeBound r.slot r.module st
    | .peer st => s.takeBound r.slot (4096 + r.module) st
    | _ => s.takeReport r

def execCollCtrlReceive (report : Option HelperReport) (s : State) : Host.Outcome State Fault Refusal := .next (s.collCtrl report).settle

/-- INSTANCE_ENDED, with the INSTANCE_ABORT that waits for it. [DEDUCED log 100] -/
def State.instanceOver (s : State) (slot step : Nat) : State :=
  let st := (s.inst? slot step).bind fun i => i.status
  let t := s.instanceEnded slot step
  match st with
  | some st => if (t.inst? slot step).isNone then
      t.waitersDone (fun w => w.2.1 = 0 && w.2.2 = 65536 * slot + step) (leBytes 2 st) else t
  | none => t

def execInstanceEnded (slot step : Nat) (s : State) : Host.Outcome State Fault Refusal := .next (s.instanceOver slot step).settle

/-- The results of the TABLE_SWITCH commands that waited: whether the active GEN is the one each asked for (03 R57; 14 R349). [DESIGN CHOICE log 139] -/
def State.tellSwitched (s : State) : State :=
  let told := s.agent.switchTold
  told.foldl (fun (s : State) e => s.report (.result s.self e.1 (if s.rd F.qswTgenGen 0 = e.2 then St.ok else St.field)))
    { s with agent := { s.agent with switchTold := [] } }

/-- TABLE_GENERATION_SWITCH: the switch that a command armed has reached its time; TABLE_SWITCH completes with the active GEN. -/
def State.tableGeneration (s : State) : State :=
  match s.agent.pendingSwitch with
  | none => s
  | some (gen, t) =>
    if s.rackTime < t || !s.flag F.hubIdStatMainOn then s
    else ((s.switchTables gen).waitersDone (fun w => w.2.1 = 1) (leBytes 2 gen)).tellSwitched

def execTableGenerationSwitch (s : State) : Host.Outcome State Fault Refusal := .next s.tableGeneration.settle

/-! ## Promotion (04 R98 to R100) -/

/-- Whether an age has passed a threshold, which acts as 100 below 100; ages saturate at 16 bits. -/
def aged (age lim : Nat) : Bool := Nat.max 100 lim < Nat.min age 65535

/-- The oldest of some waiting accounts; equal ages go to the lower requester index, here the account number 16·port + VC. [DESIGN CHOICE log 146] -/
def State.oldestWaiter (s : State) (as : List Nat) : Option Nat :=
  as.foldl (fun (b : Option Nat) a => match b with
    | none => some a
    | some x =>
      if (s.vcb x).age < (s.vcb a).age || ((s.vcb a).age = (s.vcb x).age && a < x) then some a else b) none

/-- PROMOTION: the oldest requester of an arbiter past its threshold is granted once, and its age restarts: a shared cell, one scrub
read (`e`), the oldest ledger commit (`ok0` and `ok1` as in LEDGER_COMMIT), one self-test cycle, a placement. [DESIGN CHOICE log 130, 146] -/
def execPromotion (arb : Arbiter) (s : State) : Host.Outcome State Fault Refusal :=
  .next (match arb with
    | .sharedCell quad =>
      let q := quad % 4
      (match s.oldestWaiter ((s.waiters q).filter fun a => aged (s.vcb a).age (s.rd F.qswBufarbPromo q)) with
       | some a => if 0 < s.sharedFree q then ({ s.grantShared a with arb := s.arb.setD q 0 (a / 16) }).moveCells else s
       | none => s)
    | .memScrub ch e =>
      if ch < 64 && s.memReady && s.flag F.memcScrubEn (ch / 16) && aged (s.scrubAge ch) (s.rd F.memcScrubPromo (ch / 16)) then
        (s.scrub ch e).ev (U.mem ch) 0x05
      else s
    | .mramPort ok0 ok1 =>
      (match s.ledger.queue with
       | [] => s
       | c :: _ => if aged c.age (s.rd F.ledgArbPromo) then (s.ledgerCommit ok0 ok1).settle else s)
    | .selftest pass => if aged s.pair.selftestAge (s.rd F.condSelftestPromo) then s.selftest pass else s
    | .dealer quad =>
      let q := quad % 4
      if (s.waitingInsts q).any fun e => aged (s.waitAge e.2) (s.rd F.pipDealcfgPromo q) then (s.dealerPlace q .clean).settleLib
      else s)

end Sys2Proof.Machine
end

