-- ==== Sys2Proof/Machine/Dispatch.lean ====
section
/-! DEFINITION. The dispatch of a command to its meaning: one arm per constructor of `Instr`. -/

namespace Sys2Proof.Machine

open Sys2Proof

def exec (i : Instr) (s : State) : Host.Outcome State Fault Refusal :=
  match i with
  | .slotTransmit port vc crVc read => Sys2Proof.Machine.execSlotTransmit port vc crVc read s
  | .slotReceive port slot => Sys2Proof.Machine.execSlotReceive port slot s
  | .retryTimerExpire port => Sys2Proof.Machine.execRetryTimerExpire port s
  | .codewordReceive port cw => Sys2Proof.Machine.execCodewordReceive port cw s
  | .headReceive port vc => Sys2Proof.Machine.execHeadReceive port vc s
  | .tailReceive port vc held => Sys2Proof.Machine.execTailReceive port vc held s
  | .escapeMove port vc => Sys2Proof.Machine.execEscapeMove port vc s
  | .ackDelayExpire flow => Sys2Proof.Machine.execAckDelayExpire flow s
  | .e2eAckReceive => Sys2Proof.Machine.execE2eAckReceive s
  | .gapTimeout flow => Sys2Proof.Machine.execGapTimeout flow s
  | .e2eNackReceive reads => Sys2Proof.Machine.execE2eNackReceive reads s
  | .flowErrorReceive => Sys2Proof.Machine.execFlowErrorReceive s
  | .ackTimeout flow reads => Sys2Proof.Machine.execAckTimeout flow reads s
  | .endpointStall ep vc => Sys2Proof.Machine.execEndpointStall ep vc s
  | .tableGenerationSwitch => Sys2Proof.Machine.execTableGenerationSwitch s
  | .allowanceRecompute quad => Sys2Proof.Machine.execAllowanceRecompute quad s
  | .promotion arb => Sys2Proof.Machine.execPromotion arb s
  | .memWrReceive reads => Sys2Proof.Machine.execMemWrReceive reads s
  | .memRdReqReceive => Sys2Proof.Machine.execMemRdReqReceive s
  | .memReadComplete tag reads => Sys2Proof.Machine.execMemReadComplete tag reads s
  | .memRdRspReceive => Sys2Proof.Machine.execMemRdRspReceive s
  | .ctrlReceive msg => Sys2Proof.Machine.execCtrlReceive msg s
  | .gatePacketReceive => Sys2Proof.Machine.execGatePacketReceive s
  | .ethFrameReceive port sub frame => Sys2Proof.Machine.execEthFrameReceive port sub frame s
  | .collContribReceive => Sys2Proof.Machine.execCollContribReceive s
  | .contribDeposit slot reads => Sys2Proof.Machine.execContribDeposit slot reads s
  | .collCtrlReceive report => Sys2Proof.Machine.execCollCtrlReceive report s
  | .dealerPlace quad ckpt => Sys2Proof.Machine.execDealerPlace quad ckpt s
  | .chessClockExpire slot step => Sys2Proof.Machine.execChessClockExpire slot step s
  | .verdictTimeout slot step => Sys2Proof.Machine.execVerdictTimeout slot step s
  | .terminalSend slot step => Sys2Proof.Machine.execTerminalSend slot step s
  | .instanceEnded slot step => Sys2Proof.Machine.execInstanceEnded slot step s
  | .add x d a b => Sys2Proof.Machine.execAdd x d a b s
  | .sub x d a b => Sys2Proof.Machine.execSub x d a b s
  | .and x d a b => Sys2Proof.Machine.execAnd x d a b s
  | .or x d a b => Sys2Proof.Machine.execOr x d a b s
  | .xor x d a b => Sys2Proof.Machine.execXor x d a b s
  | .sll x d a b => Sys2Proof.Machine.execSll x d a b s
  | .srl x d a b => Sys2Proof.Machine.execSrl x d a b s
  | .sra x d a b => Sys2Proof.Machine.execSra x d a b s
  | .slt x d a b => Sys2Proof.Machine.execSlt x d a b s
  | .sltu x d a b => Sys2Proof.Machine.execSltu x d a b s
  | .min x d a b => Sys2Proof.Machine.execMin x d a b s
  | .max x d a b => Sys2Proof.Machine.execMax x d a b s
  | .minu x d a b => Sys2Proof.Machine.execMinu x d a b s
  | .maxu x d a b => Sys2Proof.Machine.execMaxu x d a b s
  | .mul x d a b => Sys2Proof.Machine.execMul x d a b s
  | .mulhu x d a b => Sys2Proof.Machine.execMulhu x d a b s
  | .addi x d a imm => Sys2Proof.Machine.execAddi x d a imm s
  | .andi x d a imm => Sys2Proof.Machine.execAndi x d a imm s
  | .ori x d a imm => Sys2Proof.Machine.execOri x d a imm s
  | .xori x d a imm => Sys2Proof.Machine.execXori x d a imm s
  | .slli x d a sh => Sys2Proof.Machine.execSlli x d a sh s
  | .srli x d a sh => Sys2Proof.Machine.execSrli x d a sh s
  | .srai x d a sh => Sys2Proof.Machine.execSrai x d a sh s
  | .slti x d a imm => Sys2Proof.Machine.execSlti x d a imm s
  | .lui x d imm => Sys2Proof.Machine.execLui x d imm s
  | .csrr x d num => Sys2Proof.Machine.execCsrr x d num s
  | .csrw x a num => Sys2Proof.Machine.execCsrw x a num s
  | .ld x d a imm e => Sys2Proof.Machine.execLd x d a imm e s
  | .st x d a imm => Sys2Proof.Machine.execSt x d a imm s
  | .lw x d a imm e => Sys2Proof.Machine.execLw x d a imm e s
  | .sw x d a imm => Sys2Proof.Machine.execSw x d a imm s
  | .beq x a b off => Sys2Proof.Machine.execBeq x a b off s
  | .bne x a b off => Sys2Proof.Machine.execBne x a b off s
  | .blt x a b off => Sys2Proof.Machine.execBlt x a b off s
  | .bge x a b off => Sys2Proof.Machine.execBge x a b off s
  | .bltu x a b off => Sys2Proof.Machine.execBltu x a b off s
  | .bgeu x a b off => Sys2Proof.Machine.execBgeu x a b off s
  | .jal x off => Sys2Proof.Machine.execJal x off s
  | .ret x => Sys2Proof.Machine.execRet x s
  | .vld x vd a imm e => Sys2Proof.Machine.execVld x vd a imm e s
  | .vst x vd a imm => Sys2Proof.Machine.execVst x vd a imm s
  | .vadd x vd va vb pr fmt => Sys2Proof.Machine.execVadd x vd va vb pr fmt s
  | .vsub x vd va vb pr fmt => Sys2Proof.Machine.execVsub x vd va vb pr fmt s
  | .vmul x vd va vb pr fmt => Sys2Proof.Machine.execVmul x vd va vb pr fmt s
  | .vfma x vd va vb pr fmt => Sys2Proof.Machine.execVfma x vd va vb pr fmt s
  | .vmax x vd va vb pr fmt => Sys2Proof.Machine.execVmax x vd va vb pr fmt s
  | .vmin x vd va vb pr fmt => Sys2Proof.Machine.execVmin x vd va vb pr fmt s
  | .vneg x vd va pr fmt => Sys2Proof.Machine.execVneg x vd va pr fmt s
  | .vabs x vd va pr fmt => Sys2Proof.Machine.execVabs x vd va pr fmt s
  | .vdiv x vd va vb pr => Sys2Proof.Machine.execVdiv x vd va vb pr s
  | .vsqrt x vd va pr => Sys2Proof.Machine.execVsqrt x vd va pr s
  | .vcmpeq x pd va vb pr fmt => Sys2Proof.Machine.execVcmpeq x pd va vb pr fmt s
  | .vcmplt x pd va vb pr fmt => Sys2Proof.Machine.execVcmplt x pd va vb pr fmt s
  | .vcmple x pd va vb pr fmt => Sys2Proof.Machine.execVcmple x pd va vb pr fmt s
  | .vcmpun x pd va vb pr fmt => Sys2Proof.Machine.execVcmpun x pd va vb pr fmt s
  | .vand x vd va vb pr => Sys2Proof.Machine.execVand x vd va vb pr s
  | .vor x vd va vb pr => Sys2Proof.Machine.execVor x vd va vb pr s
  | .vxor x vd va vb pr => Sys2Proof.Machine.execVxor x vd va vb pr s
  | .vsel x vd va vb pr fmt => Sys2Proof.Machine.execVsel x vd va vb pr fmt s
  | .vmov x vd va pr fmt => Sys2Proof.Machine.execVmov x vd va pr fmt s
  | .vsplat x vd a pr fmt => Sys2Proof.Machine.execVsplat x vd a pr fmt s
  | .vextr x d va b fmt => Sys2Proof.Machine.execVextr x d va b fmt s
  | .vinsr x vd a b fmt => Sys2Proof.Machine.execVinsr x vd a b fmt s
  | .vcvt x vd va tf part pr fmt => Sys2Proof.Machine.execVcvt x vd va tf part pr fmt s
  | .pmov x pd a => Sys2Proof.Machine.execPmov x pd a s
  | .pread x d pa => Sys2Proof.Machine.execPread x d pa s
  | .pand x pd pa pb => Sys2Proof.Machine.execPand x pd pa pb s
  | .por x pd pa pb => Sys2Proof.Machine.execPor x pd pa pb s
  | .pnot x pd pa => Sys2Proof.Machine.execPnot x pd pa s
  | .bld x vd a imm e => Sys2Proof.Machine.execBld x vd a imm e s
  | .bst x vd a imm lost => Sys2Proof.Machine.execBst x vd a imm lost s
  | .batomAdd x vd a fmt ret imm e => Sys2Proof.Machine.execBatomAdd x vd a fmt ret imm e s
  | .batomAddI32w x vd a ret imm e => Sys2Proof.Machine.execBatomAddI32w x vd a ret imm e s
  | .batomAddI32s x vd a ret imm e => Sys2Proof.Machine.execBatomAddI32s x vd a ret imm e s
  | .batomXacc32 x vd a ret imm e => Sys2Proof.Machine.execBatomXacc32 x vd a ret imm e s
  | .batomXacc64 x vd a ret imm e => Sys2Proof.Machine.execBatomXacc64 x vd a ret imm e s
  | .batomMax x vd a fmt ret imm e => Sys2Proof.Machine.execBatomMax x vd a fmt ret imm e s
  | .batomMin x vd a fmt ret imm e => Sys2Proof.Machine.execBatomMin x vd a fmt ret imm e s
  | .batomSwap x vd a ret imm e => Sys2Proof.Machine.execBatomSwap x vd a ret imm e s
  | .bankOpComplete x reads => Sys2Proof.Machine.execBankOpComplete x reads s
  | .msend x a b => Sys2Proof.Machine.execMsend x a b s
  | .sendDrawn x reads => Sys2Proof.Machine.execSendDrawn x reads s
  | .mwait x d a b chan mode => Sys2Proof.Machine.execMwait x d a b chan mode s
  | .mrecv x d chan => Sys2Proof.Machine.execMrecv x d chan s
  | .dma x d a e => Sys2Proof.Machine.execDma x d a e s
  | .dmaTransferComplete x tag reads lost => Sys2Proof.Machine.execDmaTransferComplete x tag reads lost s
  | .dmawait x d a => Sys2Proof.Machine.execDmawait x d a s
  | .idone x => Sys2Proof.Machine.execIdone x s
  | .iabort x a => Sys2Proof.Machine.execIabort x a s
  | .ireportChunkDone x a => Sys2Proof.Machine.execIreportChunkDone x a s
  | .ireportChunkFault x a => Sys2Proof.Machine.execIreportChunkFault x a s
  | .ireportDropped x a => Sys2Proof.Machine.execIreportDropped x a s
  | .ireportUser x a => Sys2Proof.Machine.execIreportUser x a s
  | .ickpt x d a => Sys2Proof.Machine.execIckpt x d a s
  | .fence x cls => Sys2Proof.Machine.execFence x cls s
  | .coreHwError core code => Sys2Proof.Machine.execCoreHwError core code s
  | .recarveComplete quad => Sys2Proof.Machine.execRecarveComplete quad s
  | .memoryInitComplete failed => Sys2Proof.Machine.execMemoryInitComplete failed s
  | .refresh ch => Sys2Proof.Machine.execRefresh ch s
  | .scrubRead ch e => Sys2Proof.Machine.execScrubRead ch e s
  | .memChannelFailed ch => Sys2Proof.Machine.execMemChannelFailed ch s
  | .streamEpochSwitch => Sys2Proof.Machine.execStreamEpochSwitch s
  | .streamStart id => Sys2Proof.Machine.execStreamStart id s
  | .streamPacketSend id reads stg => Sys2Proof.Machine.execStreamPacketSend id reads stg s
  | .receiverDetect port seen => Sys2Proof.Machine.execReceiverDetect port seen s
  | .noPeer port => Sys2Proof.Machine.execNoPeer port s
  | .trainingFrameReceive port lane word sense => Sys2Proof.Machine.execTrainingFrameReceive port lane word sense s
  | .trainTimeout port => Sys2Proof.Machine.execTrainTimeout port s
  | .cwLock port => Sys2Proof.Machine.execCwLock port s
  | .capsBlockReceive port block => Sys2Proof.Machine.execCapsBlockReceive port block s
  | .capsTimeout port => Sys2Proof.Machine.execCapsTimeout port s
  | .bringupWaitExpire port => Sys2Proof.Machine.execBringupWaitExpire port s
  | .los port lane => Sys2Proof.Machine.execLos port lane s
  | .fecDegrade port corrected total => Sys2Proof.Machine.execFecDegrade port corrected total s
  | .qUnusedPort port => Sys2Proof.Machine.execQUnusedPort port s
  | .deepExitRelock port => Sys2Proof.Machine.execDeepExitRelock port s
  | .laneCounterClear port => Sys2Proof.Machine.execLaneCounterClear port s
  | .laneSnapshot lane eye => Sys2Proof.Machine.execLaneSnapshot lane eye s
  | .bar2Read off len reads => Sys2Proof.Machine.execBar2Read off len reads s
  | .bar2Write off data ep reads => Sys2Proof.Machine.execBar2Write off data ep reads s
  | .bar0Write off size value => Sys2Proof.Machine.execBar0Write off size value s
  | .dmaRun ch => Sys2Proof.Machine.execDmaRun ch s
  | .dmaDescriptorComplete ch desc data hostErr hostPoison reads => Sys2Proof.Machine.execDmaDescriptorComplete ch desc data hostErr hostPoison reads s
  | .pcieFunctionReset kind => Sys2Proof.Machine.execPcieFunctionReset kind s
  | .mailboxSubmit m seq irqEn => Sys2Proof.Machine.execMailboxSubmit m seq irqEn s
  | .commandAccept mb => Sys2Proof.Machine.execCommandAccept mb s
  | .remoteRequestReceive mb role session seq req => Sys2Proof.Machine.execRemoteRequestReceive mb role session seq req s
  | .controlWatchdog mb => Sys2Proof.Machine.execControlWatchdog mb s
  | .lockstepMismatch => Sys2Proof.Machine.execLockstepMismatch s
  | .controllerReady => Sys2Proof.Machine.execControllerReady s
  | .irqClear mask events => Sys2Proof.Machine.execIrqClear mask events s
  | .irqUnmask mask => Sys2Proof.Machine.execIrqUnmask mask s
  | .hello mb => Sys2Proof.Machine.execHello mb s
  | .identity mb => Sys2Proof.Machine.execIdentity mb s
  | .regRead mb => Sys2Proof.Machine.execRegRead mb s
  | .regWrite mb => Sys2Proof.Machine.execRegWrite mb s
  | .ledgerRead mb => Sys2Proof.Machine.execLedgerRead mb s
  | .hours mb => Sys2Proof.Machine.execHours mb s
  | .inventory mb => Sys2Proof.Machine.execInventory mb s
  | .repairMap mb => Sys2Proof.Machine.execRepairMap mb s
  | .ledgerSupply mb => Sys2Proof.Machine.execLedgerSupply mb s
  | .planStage mb => Sys2Proof.Machine.execPlanStage mb s
  | .planAdopt mb => Sys2Proof.Machine.execPlanAdopt mb s
  | .planRead mb => Sys2Proof.Machine.execPlanRead mb s
  | .condStatus mb => Sys2Proof.Machine.execCondStatus mb s
  | .rollcallRead mb => Sys2Proof.Machine.execRollcallRead mb s
  | .adoptDiscovered mb => Sys2Proof.Machine.execAdoptDiscovered mb s
  | .eventRead mb => Sys2Proof.Machine.execEventRead mb s
  | .rackSequence mb => Sys2Proof.Machine.execRackSequence mb s
  | .rackSequenceStop mb => Sys2Proof.Machine.execRackSequenceStop mb s
  | .sliceAlloc mb => Sys2Proof.Machine.execSliceAlloc mb s
  | .sliceRelease mb => Sys2Proof.Machine.execSliceRelease mb s
  | .sliceQuery mb => Sys2Proof.Machine.execSliceQuery mb s
  | .sliceMark mb => Sys2Proof.Machine.execSliceMark mb s
  | .sessionGrant mb => Sys2Proof.Machine.execSessionGrant mb s
  | .tableWrite mb => Sys2Proof.Machine.execTableWrite mb s
  | .tableSwitch mb => Sys2Proof.Machine.execTableSwitch mb s
  | .ingressHoldSet mb => Sys2Proof.Machine.execIngressHoldSet mb s
  | .ingressHoldClear mb => Sys2Proof.Machine.execIngressHoldClear mb s
  | .groupDefine mb => Sys2Proof.Machine.execGroupDefine mb s
  | .groupDelete mb => Sys2Proof.Machine.execGroupDelete mb s
  | .groupReform mb => Sys2Proof.Machine.execGroupReform mb s
  | .slotBind mb => Sys2Proof.Machine.execSlotBind mb s
  | .slotUnbind mb => Sys2Proof.Machine.execSlotUnbind mb s
  | .slotQuery mb => Sys2Proof.Machine.execSlotQuery mb s
  | .instanceQuery mb => Sys2Proof.Machine.execInstanceQuery mb s
  | .instanceAbort mb => Sys2Proof.Machine.execInstanceAbort mb s
  | .programLoad mb => Sys2Proof.Machine.execProgramLoad mb s
  | .programUnload mb => Sys2Proof.Machine.execProgramUnload mb s
  | .programList mb => Sys2Proof.Machine.execProgramList mb s
  | .regionWrite mb => Sys2Proof.Machine.execRegionWrite mb s
  | .regionRead mb => Sys2Proof.Machine.execRegionRead mb s
  | .streamWrite mb => Sys2Proof.Machine.execStreamWrite mb s
  | .streamEpoch mb => Sys2Proof.Machine.execStreamEpoch mb s
  | .streamQuery mb => Sys2Proof.Machine.execStreamQuery mb s
  | .shardWrite mb => Sys2Proof.Machine.execShardWrite mb s
  | .shardRead mb => Sys2Proof.Machine.execShardRead mb s
  | .memStatus mb => Sys2Proof.Machine.execMemStatus mb s
  | .capSet mb => Sys2Proof.Machine.execCapSet mb s
  | .hostRequestOff mb => Sys2Proof.Machine.execHostRequestOff mb s
  | .hostRequestOn mb => Sys2Proof.Machine.execHostRequestOn mb s
  | .hostRequestCap mb => Sys2Proof.Machine.execHostRequestCap mb s
  | .hostRequestClearCap mb => Sys2Proof.Machine.execHostRequestClearCap mb s
  | .powerStatus mb => Sys2Proof.Machine.execPowerStatus mb s
  | .brakeStatus mb => Sys2Proof.Machine.execBrakeStatus mb s
  | .cntConfig mb => Sys2Proof.Machine.execCntConfig mb s
  | .cntRead mb => Sys2Proof.Machine.execCntRead mb s
  | .scoresheetConfig mb => Sys2Proof.Machine.execScoresheetConfig mb s
  | .errRead mb => Sys2Proof.Machine.execErrRead mb s
  | .errAck mb => Sys2Proof.Machine.execErrAck mb s
  | .injectArm mb => Sys2Proof.Machine.execInjectArm mb s
  | .injectDisarm mb => Sys2Proof.Machine.execInjectDisarm mb s
  | .coreFence mb => Sys2Proof.Machine.execCoreFence mb s
  | .bankRetire mb => Sys2Proof.Machine.execBankRetire mb s
  | .unitFence mb => Sys2Proof.Machine.execUnitFence mb s
  | .unitFenceRelease mb => Sys2Proof.Machine.execUnitFenceRelease mb s
  | .portSetDeep mb => Sys2Proof.Machine.execPortSetDeep mb s
  | .portSetClearDeep mb => Sys2Proof.Machine.execPortSetClearDeep mb s
  | .laneRead mb => Sys2Proof.Machine.execLaneRead mb s
  | .tunnelWrite mb => Sys2Proof.Machine.execTunnelWrite mb s
  | .tunnelRead mb => Sys2Proof.Machine.execTunnelRead mb s
  | .ethAddr mb => Sys2Proof.Machine.execEthAddr mb s
  | .fwStage mb => Sys2Proof.Machine.execFwStage mb s
  | .fwActivate mb => Sys2Proof.Machine.execFwActivate mb s
  | .spdm mb => Sys2Proof.Machine.execSpdm mb s
  | .testUnlockNonce mb => Sys2Proof.Machine.execTestUnlockNonce mb s
  | .testUnlock mb => Sys2Proof.Machine.execTestUnlock mb s
  | .testUnlockExpire => Sys2Proof.Machine.execTestUnlockExpire s
  | .ownerKey mb => Sys2Proof.Machine.execOwnerKey mb s
  | .heartbeatSend => Sys2Proof.Machine.execHeartbeatSend s
  | .heartbeatReceive fromPrimary cterm => Sys2Proof.Machine.execHeartbeatReceive fromPrimary cterm s
  | .inputReceive msg => Sys2Proof.Machine.execInputReceive msg s
  | .timerEntryWrite => Sys2Proof.Machine.execTimerEntryWrite s
  | .pairForwardReceive e => Sys2Proof.Machine.execPairForwardReceive e s
  | .pairAckReceive index => Sys2Proof.Machine.execPairAckReceive index s
  | .digestExchange => Sys2Proof.Machine.execDigestExchange s
  | .digestReceive ds => Sys2Proof.Machine.execDigestReceive ds s
  | .rollcall => Sys2Proof.Machine.execRollcall s
  | .linkEvent => Sys2Proof.Machine.execLinkEvent s
  | .pull => Sys2Proof.Machine.execPull s
  | .missingRanks => Sys2Proof.Machine.execMissingRanks s
  | .binding => Sys2Proof.Machine.execBinding s
  | .drainState => Sys2Proof.Machine.execDrainState s
  | .inputError => Sys2Proof.Machine.execInputError s
  | .rcsCmd => Sys2Proof.Machine.execRcsCmd s
  | .result => Sys2Proof.Machine.execResult s
  | .sensor => Sys2Proof.Machine.execSensor s
  | .probeResult => Sys2Proof.Machine.execProbeResult s
  | .timer => Sys2Proof.Machine.execTimer s
  | .stageTimeout => Sys2Proof.Machine.execStageTimeout s
  | .rollcallClose => Sys2Proof.Machine.execRollcallClose s
  | .probeTimeout port => Sys2Proof.Machine.execProbeTimeout port s
  | .drainForced => Sys2Proof.Machine.execDrainForced s
  | .conductorCheckpoint => Sys2Proof.Machine.execConductorCheckpoint s
  | .drpAckReceive input agent seq => Sys2Proof.Machine.execDrpAckReceive input agent seq s
  | .drpResend input agent seq => Sys2Proof.Machine.execDrpResend input agent seq s
  | .pairWindow => Sys2Proof.Machine.execPairWindow s
  | .drpFence msg => Sys2Proof.Machine.execDrpFence msg s
  | .drpFenceRelease msg => Sys2Proof.Machine.execDrpFenceRelease msg s
  | .drpPowerCap msg => Sys2Proof.Machine.execDrpPowerCap msg s
  | .drpPowerDomain msg => Sys2Proof.Machine.execDrpPowerDomain msg s
  | .drpPowerClearCut msg => Sys2Proof.Machine.execDrpPowerClearCut msg s
  | .drpTableWrite msg => Sys2Proof.Machine.execDrpTableWrite msg s
  | .drpTableSwitch msg => Sys2Proof.Machine.execDrpTableSwitch msg s
  | .drpIngressHold msg => Sys2Proof.Machine.execDrpIngressHold msg s
  | .drpSliceRelease msg => Sys2Proof.Machine.execDrpSliceRelease msg s
  | .drpGroupDefine msg => Sys2Proof.Machine.execDrpGroupDefine msg s
  | .drpGroupDelete msg => Sys2Proof.Machine.execDrpGroupDelete msg s
  | .drpGroupReform msg => Sys2Proof.Machine.execDrpGroupReform msg s
  | .drpPlan msg => Sys2Proof.Machine.execDrpPlan msg s
  | .drpStage msg => Sys2Proof.Machine.execDrpStage msg s
  | .drpInstanceEnd msg => Sys2Proof.Machine.execDrpInstanceEnd msg s
  | .drpProbe msg => Sys2Proof.Machine.execDrpProbe msg s
  | .drpRegion msg => Sys2Proof.Machine.execDrpRegion msg s
  | .drpStreamCut msg => Sys2Proof.Machine.execDrpStreamCut msg s
  | .timeExchange port => Sys2Proof.Machine.execTimeExchange port s
  | .timeReceive port t1 t2 t3 t4 => Sys2Proof.Machine.execTimeReceive port t1 t2 t3 t4 s
  | .presenceBreak input => Sys2Proof.Machine.execPresenceBreak input s
  | .takeover => Sys2Proof.Machine.execTakeover s
  | .takeoverReceive cterm from_ => Sys2Proof.Machine.execTakeoverReceive cterm from_ s
  | .voteReceive from_ cterm accept => Sys2Proof.Machine.execVoteReceive from_ cterm accept s
  | .confirm cterm from_ acting => Sys2Proof.Machine.execConfirm cterm from_ acting s
  | .withdraw cterm => Sys2Proof.Machine.execWithdraw cterm s
  | .secondaryLost => Sys2Proof.Machine.execSecondaryLost s
  | .coldRestart ckptIndex entries => Sys2Proof.Machine.execColdRestart ckptIndex entries s
  | .shadowComplete timedOut => Sys2Proof.Machine.execShadowComplete timedOut s
  | .failback => Sys2Proof.Machine.execFailback s
  | .handback index => Sys2Proof.Machine.execHandback index s
  | .selftest pass => Sys2Proof.Machine.execSelftest pass s
  | .healthSend => Sys2Proof.Machine.execHealthSend s
  | .brakeAssert respNs => Sys2Proof.Machine.execBrakeAssert respNs s
  | .brakeRelease => Sys2Proof.Machine.execBrakeRelease s
  | .vinUndervoltage => Sys2Proof.Machine.execVinUndervoltage s
  | .vinRecover => Sys2Proof.Machine.execVinRecover s
  | .powerEstimate w => Sys2Proof.Machine.execPowerEstimate w s
  | .governorRecalibrate w => Sys2Proof.Machine.execGovernorRecalibrate w s
  | .thermalLimitStep temps => Sys2Proof.Machine.execThermalLimitStep temps s
  | .thermalTrip die => Sys2Proof.Machine.execThermalTrip die s
  | .sensorFault die sensor reading => Sys2Proof.Machine.execSensorFault die sensor reading s
  | .leaseExpired => Sys2Proof.Machine.execLeaseExpired s
  | .orphanApply => Sys2Proof.Machine.execOrphanApply s
  | .flowStop => Sys2Proof.Machine.execFlowStop s
  | .flowCrosscheck => Sys2Proof.Machine.execFlowCrosscheck s
  | .ropeMeasure rope ohms => Sys2Proof.Machine.execRopeMeasure rope ohms s
  | .leakCut rope => Sys2Proof.Machine.execLeakCut rope s
  | .ropeTest rope => Sys2Proof.Machine.execRopeTest rope s
  | .ropeTestEnd rope wetInWindow ohms => Sys2Proof.Machine.execRopeTestEnd rope wetInWindow ohms s
  | .ropeFault rope => Sys2Proof.Machine.execRopeFault rope s
  | .leakDecide tray => Sys2Proof.Machine.execLeakDecide tray s
  | .inventoryScan found => Sys2Proof.Machine.execInventoryScan found s
  | .ledgerCommit ok0 ok1 => Sys2Proof.Machine.execLedgerCommit ok0 ok1 s
  | .norCopy ok => Sys2Proof.Machine.execNorCopy ok s
  | .mramPatrol corrected => Sys2Proof.Machine.execMramPatrol corrected s
  | .norRefresh block => Sys2Proof.Machine.execNorRefresh block s
  | .hoursCommit => Sys2Proof.Machine.execHoursCommit s
  | .pwrFail openSeconds => Sys2Proof.Machine.execPwrFail openSeconds s
  | .pwrFailRelease => Sys2Proof.Machine.execPwrFailRelease s
  | .ledgerMount => Sys2Proof.Machine.execLedgerMount s
  | .recovery fromRm image => Sys2Proof.Machine.execRecovery fromRm image s
  | .recoveryPeerTimeout => Sys2Proof.Machine.execRecoveryPeerTimeout s
  | .recoveryRequest devId tray => Sys2Proof.Machine.execRecoveryRequest devId tray s
  | .recordClose rseq => Sys2Proof.Machine.execRecordClose rseq s
  | .fenceEscalation rseq => Sys2Proof.Machine.execFenceEscalation rseq s
  | .cdcTimeout group inst => Sys2Proof.Machine.execCdcTimeout group inst s
  | .cdcOverrun group inst => Sys2Proof.Machine.execCdcOverrun group inst s
  | .counterClear unit k => Sys2Proof.Machine.execCounterClear unit k s
  | .scoresheetSnapshot => Sys2Proof.Machine.execScoresheetSnapshot s
  | .scoresheetWrite => Sys2Proof.Machine.execScoresheetWrite s
  | .refclkLoss => Sys2Proof.Machine.execRefclkLoss s
  | .standbyReset => Sys2Proof.Machine.execStandbyReset s
  | .hubReset => Sys2Proof.Machine.execHubReset s
  | .mainFull => Sys2Proof.Machine.execMainFull s
  | .mainKeepmem => Sys2Proof.Machine.execMainKeepmem s
  | .mainPgLoss => Sys2Proof.Machine.execMainPgLoss s
  | .mainPowerUp fusedMv coresPass => Sys2Proof.Machine.execMainPowerUp fusedMv coresPass s
  | .vddCoreAdjust mv => Sys2Proof.Machine.execVddCoreAdjust mv s
  | .bypass tdi => Sys2Proof.Machine.execBypass tdi s
  | .idcode tdi => Sys2Proof.Machine.execIdcode tdi s
  | .samplePreload cells tdi => Sys2Proof.Machine.execSamplePreload cells tdi s
  | .extest cells tdi => Sys2Proof.Machine.execExtest cells tdi s
  | .extestPulse cells tdi => Sys2Proof.Machine.execExtestPulse cells tdi s
  | .extestTrain cells tdi => Sys2Proof.Machine.execExtestTrain cells tdi s
  | .stagedTransferDiscard kind => Sys2Proof.Machine.execStagedTransferDiscard kind s
  | .tokenBucketRefill => Sys2Proof.Machine.execTokenBucketRefill s
  | .presenceRestore input => Sys2Proof.Machine.execPresenceRestore input s
  | .ethLinkDown port sub => Sys2Proof.Machine.execEthLinkDown port sub s
  | .ethLinkUp port sub => Sys2Proof.Machine.execEthLinkUp port sub s
  | .ethFrameSend port sub => Sys2Proof.Machine.execEthFrameSend port sub s
  | .pcieLinkUp gtps width => Sys2Proof.Machine.execPcieLinkUp gtps width s
  | .standbyPowerLoss => Sys2Proof.Machine.execStandbyPowerLoss s
  | .refclkReturn => Sys2Proof.Machine.execRefclkReturn s
  | .mainResetRelease coresPass => Sys2Proof.Machine.execMainResetRelease coresPass s
  | .logFetchReceive fromIndex wantCkpt => Sys2Proof.Machine.execLogFetchReceive fromIndex wantCkpt s
  | .prbsCheck lane bits => Sys2Proof.Machine.execPrbsCheck lane bits s

end Sys2Proof.Machine
end

