-- ==== Sys2Proof/Machine/Carry.lean ====
section
/-! DEFINITION. The fabric as a carrier of the Dvorog Rack Protocol (14 R336): each message of the hub to another module leaves in a CTRL
packet of its own flow (03 R70, R461). The hub hands its messages to the switch core in the order in which it made them. -/

namespace Sys2Proof.Machine

/-- The type within its class, and the body, of a DRP message whose layout 14 R337 does not give: heartbeats, acknowledgements, the
messages between the conductors, castling, mailboxes. [DESIGN CHOICE log 147] -/
opaque drpPart : Out → Nat × List Byte

/-- A DRP message on its way over the fabric: the module it goes to, the fields of its header (14 R336), its body. -/
structure DrpWire where
  dest : Nat
  dclass : Nat
  dtype : Nat
  cterm : Nat
  flags : Nat := 0
  seq : Nat := 0
  agent : Nat := 0
  digest : BitVec 128
  rtime : Nat
  body : List Byte

/-- Header bytes 16 to 63 of a CTRL packet (14 R336). -/
def DrpWire.header (w : DrpWire) : Flit :=
  flitOf (leBytes 16 0 ++ leBytes 1 1 ++ leBytes 1 w.dclass ++ leBytes 2 w.dtype ++ leBytes 2 w.cterm ++ leBytes 1 w.flags ++ leBytes 1 0 ++
    leBytes 8 w.seq ++ leBytes 2 w.agent ++ leBytes 2 w.body.length ++ leBytes 4 0 ++ leBytes 16 w.digest.toNat ++ leBytes 8 w.rtime)

/-- A message of one of the classes whose parts 14 R337 leaves open. -/
def State.openWire (s : State) (o : Out) (dest dclass seq agent cterm : Nat) : DrpWire :=
  let p := drpPart o
  let body := p.2.take 4096
  { dest := dest, dclass := dclass, dtype := p.1 % 65536, cterm := cterm, seq := seq, agent := agent
    digest := drpDigestOf dclass (p.1 % 65536) seq agent body, rtime := s.rackTime, body := body }

/-- What an output of the hub is as a DRP message over the fabric, none for every other output. Answers and acknowledgements go to the
module that asked; an INPUT, and the acknowledgement of a COMMAND, to the acting conductor; messages of the pair to the other
conductor. A TIME exchange is bound to its own link, and a helper's report has no packet in the spec. [DESIGN CHOICE log 147] -/
def State.wireOf (s : State) (o : Out) : Option DrpWire :=
  let term := s.rd F.condStatCterm
  match o with
  | .drp false d m => some
      { dest := d, dclass := m.dclass, dtype := m.dtype, cterm := m.cterm, seq := m.seq, agent := m.agent
        flags := (if m.secondary then 1 else 0) + (if m.critical then 2 else 0) + (if m.reassert then 8 else 0) + (if m.needsAck then 16 else 0)
        digest := m.digest, rtime := m.rtime, body := Config.drpBody m.body }
  | .report r aseq => some
      { dest := s.agent.acting, dclass := 2, dtype := reportType r, cterm := term, flags := 16, seq := aseq, agent := s.self
        digest := drpDigest 2 (reportType r) aseq s.self (.report r), rtime := s.rackTime, body := Config.drpBody (.report r) }
  | .ack agent seq => some (s.openWire o s.agent.acting 3 seq agent term)
  | .inputAck agent aseq => some (s.openWire o agent 3 aseq agent term)
  | .heartbeat d t => some (s.openWire o d 1 0 0 t)
  | .drpCast _ t _ d _ => some (s.openWire o d 6 0 0 t)
  | .pairForward _ | .pairAck _ | .pairDigests _ | .pairEntries _ | .pairCkpt _ => some (s.openWire o s.partner 5 0 0 term)
  | .health _ _ _ _ _ _ _ => some (s.openWire o s.partner 9 0 0 term)
  | .peerRequest m _ => some (s.openWire o m 8 0 0 term)
  | .condAnswer m _ _ _ _ => some (s.openWire o m 8 0 0 term)
  | .mbxMsg mb _ _ _ _ _ _ => if mb.set = .peer then some (s.openWire o (s.mbxOf (mbxKey mb)).session 8 0 0 term) else none
  | _ => none

/-- The header of a CTRL packet: TC4, SLICE 0, SMOD = DMOD = 1 (14 R336). -/
def State.ctrlHdr (s : State) (w : DrpWire) : Flit :=
  mkHdr [(H.ptype, PT.ctrl), (H.tc, 4), (H.dst, w.dest), (H.dmod, 1), (H.src, s.self), (H.smod, 1), (H.plane, if s.plane then 1 else 0)] |||
    w.header

/-- Whether the fabric reaches the module a message goes to; the management Ethernet reaches the others (14 R336, R339, R342). -/
def State.fabricReaches (s : State) (w : DrpWire) : Bool :=
  w.dest < 0x100 && w.dest ≠ s.self && s.flag F.hubIdStatMainOn &&
    (s.routeOf (s.ctrlHdr w) (coreGen (w.dest % 4) 3) none true).1.route ≠ .discard

/-- Send a message in a CTRL packet: originated at the HUB port of quadrant DST.group mod 4 (03 R461), or left to the Ethernet. -/
def State.carryOne (s : State) (w : DrpWire) : State :=
  if s.fabricReaches w then s.originate (s.ctrlHdr w) w.body (w.dest % 4) 6 .other else s

/-- The messages that the hub has made and not yet handed to the switch core. -/
def State.toCarry (s : State) : List Out := (s.out.drop s.carried).filter fun o => (s.wireOf o).isSome

/-- Hand the hub's messages to the switch core, in order. [DESIGN CHOICE log 147] -/
def State.carryDrp (s : State) : State :=
  s.toCarry.foldl (fun s o => match s.wireOf o with | some w => s.carryOne w | none => s) { s with carried := s.out.length }

end Sys2Proof.Machine
end

