-- ==== Sys2Proof/Machine/Idle.lean ====
section
/-! DEFINITION. What one TICK of 10 ns does when no command waits (19 R443, R445): time passes, clocks are steered, occupancies are
counted, the hub hands its DRP messages to the switch core, a released port whose contact has been made long enough comes up, changed drain
counts are reported. -/

namespace Sys2Proof.Machine

/-- The occupancy of a unit (18 R436). Bank groups and the PCIe port answer each request within one command here. [DEDUCED log 124] -/
def State.occupancy (s : State) (u ev : Nat) : Nat :=
  if u < 128 then
    let cs := (s.ctxs.filter fun e => e.1 / 4 = u).map fun e => e.2
    if ev = 0x10 then (cs.filter fun c => c.run ≠ .free).length else (cs.map fun c => c.bankOps).sum
  else if ev ≠ 0x10 then 0
  else if u < 132 then (s.waitingInsts (u - 128)).length
  else if u < 196 then 0
  else if u < 260 then (s.memReads.filter fun r => memChannel (hget r.req H.faddr % 2 ^ 48) = u - 196).length
  else if u < 264 then (s.runs.filter fun e => e.2.status = 2 && e.1 / 1024 = s.sepoch && e.1 % 1024 / 256 = u - 260).length
  else if u < 272 then ((s.ethOf (2 * (u - 264))).outBytes + (s.ethOf (2 * (u - 264) + 1)).outBytes) / 1024
  else if u = 272 then 0
  else (s.mbx.filter fun e => e.2.state = 2).length

/-- Count one TICK of occupancy in one programmable counter (18 R432). [DESIGN CHOICE log 2; DEDUCED log 124] -/
def State.countOccupancy (s : State) (i : Nat) : State :=
  let u := i / 8
  let k := i % 8
  let mode := s.rd F.cntSelMode i
  let ev := s.rd F.cntSelEvent i
  if !s.flag F.cntSelEn i || (s.flag F.cntSelChain i && k ≠ 0) || !(mode = 1 || mode = 2) || unitCounters u ≤ k || ev < 0x10 || 0x1F < ev ||
      !s.unitCounts u then s
  else
    let n := s.occupancy u ev
    let add := if mode = 2 then n else if s.rd F.cntSelThresh i < n then 1 else 0
    if add = 0 then s else s.cntAdd u k (add * clocksPerTick u) 8

/-- The CNT_SEL registers that are set. -/
def State.selSet (s : State) : List Nat :=
  (s.regs.filter fun e => e.1 / 2 ^ 20 = Reg.cntSel.ctorIdx).map fun e => e.1 % 2 ^ 20

/-- Steer rack time by frequency: 1 ppm is 1 ns in 10^5 TICK (14 R347). [DESIGN CHOICE log 2; DEDUCED log 107] -/
def State.steer (s : State) : State :=
  let p := s.phys
  if p.timeSlewPpm = 0 then s
  else
    let a := p.timeAcc + p.timeSlewPpm
    { s with phys := { p with timeOffset := p.timeOffset + a.tdiv 100000, timeAcc := a.tmod 100000 } }

/-- One TICK of age of everything that waits for an arbiter: eligible main VCs, scrub, commits, the self-test cycle (04 R98). -/
def State.ageTick (s : State) : State :=
  let s := if s.vcbuf.all fun e => !e.2.waits then s
    else { s with vcbuf := s.vcbuf.map fun (e : Nat × VcBuf) =>
      (e.1, if e.2.waits && s.eligible e.1 then { e.2 with age := Nat.min 65535 (e.2.age + 1) } else e.2) }
  let s := if s.memReady then s.each [0, 1, 2, 3] fun s q =>
      if s.flag F.memcScrubEn q then { s with scrubClock := s.scrubClock.mod q 0 (· + 1) } else s
    else s
  let s := if s.ledger.queue = [] || !s.flag F.ledgStatMounted || s.flag F.ledgStatProtected || s.phys.pwrFail then s
    else { s with ledger := { s.ledger with queue := s.ledger.queue.map fun (c : CommitReq) =>
      { c with age := Nat.min 65535 (c.age + 1) } } }
  if s.rd F.condStatRole = 0 || s.cmode = 0 || s.cmode = 6 then s
  else s.modPair fun p => { p with selftestAge := Nat.min 65535 (p.selftestAge + 1) }

/-- One TICK; none comes while REFCLK is lost. [DESIGN CHOICE log 2, 147] -/
def idleTick (s : State) : State :=
  if !s.phys.refclk then s
  else
    let s := (((s.carryDrp).each s.selSet State.countOccupancy).steer).ageTick
    let s := { s with now := s.now + 10, tick := s.tick + 1 }
    s.releaseDue.each s.streamHeld State.drainReport

end Sys2Proof.Machine
end

