-- ==== Sys2Proof/Machine/Step.lean ====
section
/-! DEFINITION. One step: the command at the front of the queue, or one TICK while the queue is empty. -/

namespace Sys2Proof.Machine

/-- Take the command at the front of the queue and answer what `exec` answers with the queue's rest; on an empty queue
one TICK of 10 ns passes (19 R443). [DESIGN CHOICE log 2, 3, 130] -/
def step (s : State) : Host.Outcome State Fault Refusal :=
  match s.pending with
  | [] => .next (idleTick s)
  | c :: rest => exec c { s with pending := rest }

/-- The state with the command that a table word spells put at the front of the queue; no word spells one. [DESIGN CHOICE log 10] -/
def State.withFetchWord (s : State) (nbits w : Nat) : State :=
  match Sys2Proof.decodeTableWord nbits w with
  | some c => { s with pending := c :: s.pending }
  | none => s

end Sys2Proof.Machine
end

