-- ==== Sys2Proof/Safety.lean ====
section
/-! DEFINITION. The terms claims are made in: a command that completes and what it leaves, what counting changes (18), what an
error record changes (17), when a core may issue an instruction (08), and what the answer to a mailbox command is (13). -/

namespace Sys2Proof.Machine

/-- The command `c` completes at `s`, and the state it leaves has the property. -/
def Does (c : Instr) (s : State) (P : State → Prop) : Prop := ∃ t, exec c s = .next t ∧ P t

/-- The command completes, its own effect is `P`, and then everything that follows at once inside the module has happened:
deposits, bindings that end, units that hear of their packets (`State.settle`). -/
def Settles (c : Instr) (s : State) (P : State → Prop) : Prop := ∃ u, exec c s = .next u.settle ∧ P u

/-- As `Settles`, and then the library programs have gone on as far as they can, and what follows from that has happened
(`State.settleLib`). -/
def SettlesLib (c : Instr) (s : State) (P : State → Prop) : Prop := ∃ u, exec c s = .next u.settleLib ∧ P u

/-- The command completes, its own effect is `P`, and then freed cells have gone to the packets and credits that wait for them
(`State.moveCells`). -/
def MovesCells (c : Instr) (s : State) (P : State → Prop) : Prop := ∃ u, exec c s = .next u.moveCells ∧ P u

/-- Every register but those named has the same value. -/
def SameRegs (s t : State) (but : List Reg) : Prop := ∀ r j, r ∉ but → j < 2 ^ 20 → t.reg r j = s.reg r j

/-- The state is `u` but for counters that count an event, and their overflow marks (18 R430 to R433). -/
def Counted (u t : State) : Prop := (∃ rg c, t = { u with regs := rg, cnt := c }) ∧ SameRegs u t [.cntSel]

/-- As `Counted`, and interrupts may have been raised: HUB_IRQ_STAT, the PBA, the messages sent (13 R330). -/
def CountedIrq (u t : State) : Prop :=
  (∃ rg c b o, t = { u with regs := rg, cnt := c, pba := b, out := u.out ++ o }) ∧ SameRegs u t [.cntSel, .hubIrqStat]

/-! ## Reduction cores -/

/-- The core may issue the instruction now (08 R184, R190): it is the word at the context's pc, the loader accepts it, the
context is not free or stopped, it is its turn, the core is not fenced, and no die is loaded. -/
def Issuable (i : Instr) (x : CtxId) (s : State) : Prop :=
  (∃ w, xoWord i = some (x, w) ∧ s.codeHas (s.ctx (ctxNum x)).program (s.ctx (ctxNum x)).pc w = true) ∧
  xoLegal i = true ∧ x.core < 128 ∧ x.ctx < 4 ∧ s.phys.fatal = false ∧ x.core ∉ s.coreFenced ∧
  ((s.ctx (ctxNum x)).run = .ready ∨ (s.ctx (ctxNum x)).run = .blocked) ∧ s.turn x.core x.ctx = true ∧ s.dice = []

/-- The context after an instruction that goes on at `pc`. -/
def PipCtx.goto (c : PipCtx) (pc : Nat) : PipCtx := { c with pc := pc, run := .ready }

/-- The instruction has retired: the context is `c`, the core's round-robin stands at it, and the core's RETIRED counter and
event counters may have counted; all else is `s`. -/
def Retired (x : CtxId) (c : PipCtx) (s t : State) : Prop :=
  ∃ td, (∀ k, k ≠ 4 * x.core → td.getD k 0 = s.topDown.getD k 0) ∧
    Counted { s with rrCtx := s.rrCtx.setD x.core 0 x.ctx, ctxs := s.ctxs.setD (ctxNum x) {} c, topDown := td } t

/-- The context waits, and the core will go on with another one; all else is `s`. -/
def Waits (x : CtxId) (c : PipCtx) (s t : State) : Prop :=
  Counted { s with rrCtx := s.rrCtx.setD x.core 0 x.ctx, ctxs := s.ctxs.setD (ctxNum x) {} { c with run := .blocked } } t

/-! ## Mailboxes -/

/-- The mailbox command is DONE with a status, a detail and a response; beside `u` only mailboxes, their images, stored answers,
outputs and interrupts have changed, and no other mailbox (13 R311, R316, R330). -/
def Answered (mb : MbxRef) (status detail : Nat) (rsp : List Byte) (u t : State) : Prop :=
  (t.mbxOf (mbxKey mb)).state = 4 ∧ (t.mbxOf (mbxKey mb)).status = status ∧ (t.mbxOf (mbxKey mb)).detail = detail ∧
  (t.mbxOf (mbxKey mb)).rsp = rsp.take 4032 ∧ (∀ k, k ≠ mbxKey mb → t.mbxOf k = u.mbxOf k) ∧
  (∃ mx im rg o pb c sd, t = { u with mbx := mx, mbxImage := im, regs := rg, out := u.out ++ o, pba := pb, cnt := c, stored := sd }) ∧
  SameRegs u t [.cntSel, .hubIrqStat, .hubMbxCtl]

end Sys2Proof.Machine
end

