-- ==== Sys2Proof/WellFormed.lean ====
section
/-! DEFINITION. Well-formed commands: every index within the number of units the spec gives, and every instruction word
one that the loader accepts (08 R209). A command outside these ranges names no unit, and its meaning leaves the state as it is. -/

namespace Sys2Proof

/-- Fabric ports (01 R8). -/
def portOk (p : Nat) : Bool := p < 144

/-- The main VCs and the escape VCs of a port (02 R20). -/
def vcOk (v : Nat) : Bool := v < 11

/-- Quadrants (01 R9). -/
def quadOk (q : Nat) : Bool := q < 4

/-- Reduction cores and their contexts (08 R184). -/
def ctxOk (x : CtxId) : Bool := x.core < 128 && x.ctx < 4

/-- Slots and steps (05 R102, R105). -/
def stepOk (slot step : Nat) : Bool := slot < 4096 && step < 65536

/-- The mailboxes of each set (13 R315). -/
def mbxOk (m : MbxRef) : Bool :=
  match m.set with
  | .host => m.idx < 32
  | .mgmt => m.idx < 16
  | .mctp => m.idx < 4
  | .peer => m.idx < 64

/-- Ethernet ports and their sub-ports (12 R289). -/
def ethOk (p sub : Nat) : Bool := p < 8 && sub < 2

def arbOk : Arbiter → Bool
  | .sharedCell q => quadOk q
  | .memScrub ch _ => ch < 64
  | .dealer q => quadOk q
  | _ => true

/-- Whether a command names units that the module has, and, for an instruction, whether the loader accepts its word. -/
def Instr.wf (i : Instr) : Bool :=
  match Machine.xoWord i with
  | some (x, _) => ctxOk x && Machine.xoLegal i
  | none =>
    match i with
    | .slotTransmit p vc crVc _ => portOk p && vc.all vcOk && vcOk crVc
    | .slotReceive p _ | .retryTimerExpire p | .codewordReceive p _ | .receiverDetect p _ | .noPeer p
    | .trainTimeout p | .cwLock p | .capsBlockReceive p _ | .capsTimeout p | .bringupWaitExpire p | .fecDegrade p _ _
    | .qUnusedPort p | .deepExitRelock p | .laneCounterClear p | .probeTimeout p | .timeExchange p | .timeReceive p _ _ _ _ =>
      portOk p
    | .headReceive p v | .tailReceive p v _ | .escapeMove p v => portOk p && vcOk v
    | .trainingFrameReceive p l _ _ | .los p l => portOk p && l < 4
    | .laneSnapshot l _ | .prbsCheck l _ => l < 576
    | .allowanceRecompute q | .dealerPlace q _ | .recarveComplete q => quadOk q
    | .promotion a => arbOk a
    | .ethFrameReceive p b _ | .ethLinkDown p b | .ethLinkUp p b | .ethFrameSend p b => ethOk p b
    | .contribDeposit s _ => s < 4096
    | .chessClockExpire s n | .verdictTimeout s n | .terminalSend s n | .instanceEnded s n => stepOk s n
    | .bankOpComplete x _ | .sendDrawn x _ | .dmaTransferComplete x _ _ _ => ctxOk x
    | .coreHwError c _ => c < 128
    | .refresh ch | .scrubRead ch _ | .memChannelFailed ch => ch < 64
    | .memoryInitComplete f => f.all (· < 64)
    | .streamStart id | .streamPacketSend id _ _ => id < 1024
    | .dmaRun ch | .dmaDescriptorComplete ch _ _ _ _ _ => ch < 8
    | .mailboxSubmit m _ _ => m < 32
    | .commandAccept m | .remoteRequestReceive m _ _ _ _ | .controlWatchdog m
    | .hello m | .identity m | .regRead m | .regWrite m | .ledgerRead m | .hours m | .inventory m | .repairMap m
    | .ledgerSupply m | .planStage m | .planAdopt m | .planRead m | .condStatus m | .rollcallRead m | .adoptDiscovered m
    | .eventRead m | .rackSequence m | .rackSequenceStop m | .sliceAlloc m | .sliceRelease m | .sliceQuery m | .sliceMark m
    | .sessionGrant m | .tableWrite m | .tableSwitch m | .ingressHoldSet m | .ingressHoldClear m | .groupDefine m
    | .groupDelete m | .groupReform m | .slotBind m | .slotUnbind m | .slotQuery m | .instanceQuery m | .instanceAbort m
    | .programLoad m | .programUnload m | .programList m | .regionWrite m | .regionRead m | .streamWrite m | .streamEpoch m
    | .streamQuery m | .shardWrite m | .shardRead m | .memStatus m | .capSet m | .hostRequestOff m | .hostRequestOn m
    | .hostRequestCap m | .hostRequestClearCap m | .powerStatus m | .brakeStatus m | .cntConfig m | .cntRead m
    | .scoresheetConfig m | .errRead m | .errAck m | .injectArm m | .injectDisarm m | .coreFence m | .bankRetire m
    | .unitFence m | .unitFenceRelease m | .portSetDeep m | .portSetClearDeep m | .laneRead m | .tunnelWrite m
    | .tunnelRead m | .ethAddr m | .fwStage m | .fwActivate m | .spdm m | .testUnlockNonce m | .testUnlock m | .ownerKey m =>
      mbxOk m
    | .presenceBreak i | .presenceRestore i => i < 16
    | .ropeMeasure r _ | .leakCut r | .ropeTest r | .ropeTestEnd r _ _ | .ropeFault r => r < 4
    | .sensorFault d n _ => d < 13 && n < 8
    | .thermalTrip d => d < 13
    | .cdcTimeout g _ | .cdcOverrun g _ => 1 ≤ g && g ≤ 9
    | .counterClear u k => u < 274 && k < 8
    | _ => true

end Sys2Proof
end

