-- ==== Sys2Proof/Certificates/Slice0/Obligations.lean ====
section
/-! DEFINITION. The statements for the provers, and the terms they are made in. Where a statement is the conjunction of several terms, each of them
is one group of rules. -/

section Statements

open Sys2Proof Sys2Proof.Machine

/-! ## The step (block) and the whole machine -/

/-- A step takes the command at the front of the queue and runs it with the queue's rest. -/
def Obligations.StepRunsFrontCommand : Prop :=
  ∀ (c : Instr) (rest : List Instr) (s : State),
    step { s with pending := c :: rest } = exec c { s with pending := rest }

/-- With no command waiting one TICK of 10 ns passes (19 R443): without REFCLK none comes and nothing changes; with it the
time goes on by 10 ns, and, where the hub has no DRP message to hand to the switch core (14 R336), what is stored stays but for the ages of what
waits (04 R98): memory, the stores, instances, the ledger, the error ring. Where it has, memory, the stores, instances and contexts stay all
the same. That a step on an empty queue is a TICK, and that the hub hands its messages over in it, is the model's choice
(notes/assumptions 2, 147). -/
def Obligations.EmptyQueueIsOneTick : Prop :=
  ∀ s : State, s.pending = [] →
    (s.phys.refclk = false → step s = .next s) ∧
    (s.phys.refclk = true → ∃ t, step s = .next t ∧ t.now = s.now + 10 ∧ t.tick = s.tick + 1 ∧ t.pending = [] ∧
      t.mem = s.mem ∧ t.memPoison = s.memPoison ∧ t.banks = s.banks ∧ t.insts = s.insts ∧ t.ctxs = s.ctxs) ∧
    (s.phys.refclk = true → s.toCarry = [] → ∃ t, step s = .next t ∧
      { t.ledger with queue := s.ledger.queue } = s.ledger ∧ t.errs = s.errs ∧ t.rseq = s.rseq ∧
      t.ledger.queue.map (fun c => { c with age := 0 }) = s.ledger.queue.map (fun c => { c with age := 0 }) ∧
      (∀ a, { t.vcbuf.getD a {} with age := 0 } = { s.vcbuf.getD a {} with age := 0 }) ∧
      (∀ a, (s.vcbuf.getD a {}).waits = false → t.vcbuf.getD a {} = s.vcbuf.getD a {}))

/-- No command of this block stops the machine: an error is a record and a status bit (17 R413), and a command that meets no
condition of its own leaves the state as it is (the model's reading, notes/assumptions 1). -/
def Obligations.EveryCommandCompletes : Prop := ∀ (c : Instr) (s : State), ∃ t, exec c s = .next t

/-! ## Instructions of the reduction cores (08) -/

/-- The contexts differ in one scalar register, the pc and the run state: register d holds v, or is s0. -/
def Sys2Proof.Claims.WritesS (c c' : PipCtx) (d : Reg5) (v : Word) : Prop :=
  c'.pc = c.pc + 4 ∧ c'.run = .ready ∧ c'.s d = (if d = 0 then 0 else v) ∧ (∀ r : Reg5, r ≠ d → c'.s r = c.s r) ∧
  c' = { c with pc := c'.pc, run := c'.run, regs := c'.regs }

/-- The register-register instructions of 08 R191 and what each computes of a and b, as numbers. -/
def Sys2Proof.Claims.scalarOps : List ((CtxId → Reg5 → Reg5 → Reg5 → Instr) × (Word → Word → Word)) := [
  (Instr.add, fun a b => BitVec.ofNat 64 (a.toNat + b.toNat)),
  (Instr.sub, fun a b => BitVec.ofInt 64 (a.toNat - b.toNat)),
  (Instr.and, fun a b => a &&& b),
  (Instr.or, fun a b => a ||| b),
  (Instr.xor, fun a b => a ^^^ b),
  (Instr.sll, fun a b => BitVec.ofNat 64 (a.toNat * 2 ^ (b.toNat % 64))),
  (Instr.srl, fun a b => BitVec.ofNat 64 (a.toNat / 2 ^ (b.toNat % 64))),
  (Instr.sra, fun a b => BitVec.ofInt 64 (a.toInt / 2 ^ (b.toNat % 64))),
  (Instr.slt, fun a b => if a.toInt < b.toInt then 1 else 0),
  (Instr.sltu, fun a b => if a.toNat < b.toNat then 1 else 0),
  (Instr.min, fun a b => if a.toInt ≤ b.toInt then a else b),
  (Instr.max, fun a b => if a.toInt ≤ b.toInt then b else a),
  (Instr.minu, fun a b => if a.toNat ≤ b.toNat then a else b),
  (Instr.maxu, fun a b => if a.toNat ≤ b.toNat then b else a),
  (Instr.mul, fun a b => BitVec.ofNat 64 (a.toNat * b.toNat)),
  (Instr.mulhu, fun a b => BitVec.ofNat 64 (a.toNat * b.toNat / 2 ^ 64))]

/-- A register-register instruction that the core may issue writes its result to d (s0 discards it and reads zero, 08 R187),
moves the pc by 4, and changes nothing else of the machine but counters. -/
def Sys2Proof.Claims.RegisterInstructionsWriteTheirResult : Prop :=
  ∀ e ∈ Claims.scalarOps, ∀ (x : CtxId) (d a b : Reg5) (s : State), Issuable (e.1 x d a b) x s →
    Does (e.1 x d a b) s fun t => ∃ c', Retired x c' s t ∧
      Claims.WritesS (s.ctx (ctxNum x)) c' d (e.2 ((s.ctx (ctxNum x)).s a) ((s.ctx (ctxNum x)).s b))

/-- The immediate instructions of 08 R191 that take a 16-bit immediate. -/
def Sys2Proof.Claims.immOps : List ((CtxId → Reg5 → Reg5 → BitVec 16 → Instr) × (Word → BitVec 16 → Word)) := [
  (Instr.addi, fun a i => BitVec.ofInt 64 (a.toInt + i.toInt)),
  (Instr.andi, fun a i => a &&& BitVec.ofNat 64 i.toNat),
  (Instr.ori, fun a i => a ||| BitVec.ofNat 64 i.toNat),
  (Instr.xori, fun a i => a ^^^ BitVec.ofNat 64 i.toNat),
  (Instr.slti, fun a i => if a.toInt < i.toInt then 1 else 0)]

/-- The immediate shifts of 08 R191. -/
def Sys2Proof.Claims.shiftOps : List ((CtxId → Reg5 → Reg5 → BitVec 6 → Instr) × (Word → Nat → Word)) := [
  (Instr.slli, fun a n => BitVec.ofNat 64 (a.toNat * 2 ^ n)),
  (Instr.srli, fun a n => BitVec.ofNat 64 (a.toNat / 2 ^ n)),
  (Instr.srai, fun a n => BitVec.ofInt 64 (a.toInt / 2 ^ n))]

/-- Immediate instructions and LUI (which shifts its sign-extended immediate left by 16) write d and nothing else. -/
def Sys2Proof.Claims.ImmediateInstructionsWriteTheirResult : Prop :=
  (∀ e ∈ Claims.immOps, ∀ (x : CtxId) (d a : Reg5) (i : BitVec 16) (s : State), Issuable (e.1 x d a i) x s →
    Does (e.1 x d a i) s fun t => ∃ c', Retired x c' s t ∧
      Claims.WritesS (s.ctx (ctxNum x)) c' d (e.2 ((s.ctx (ctxNum x)).s a) i)) ∧
  (∀ e ∈ Claims.shiftOps, ∀ (x : CtxId) (d a : Reg5) (n : BitVec 6) (s : State), Issuable (e.1 x d a n) x s →
    Does (e.1 x d a n) s fun t => ∃ c', Retired x c' s t ∧
      Claims.WritesS (s.ctx (ctxNum x)) c' d (e.2 ((s.ctx (ctxNum x)).s a) n.toNat)) ∧
  (∀ (x : CtxId) (d : Reg5) (i : BitVec 16) (s : State), Issuable (.lui x d i) x s →
    Does (.lui x d i) s fun t => ∃ c', Retired x c' s t ∧
      Claims.WritesS (s.ctx (ctxNum x)) c' d (BitVec.ofInt 64 (i.toInt * 65536)))

/-- What an instruction reads from a special register, for those that need no binding (08 R188). -/
def Sys2Proof.Claims.specials : List (BitVec 12 × (State → CtxId → PipCtx → Word)) := [
  (0x000, fun _ x _ => BitVec.ofNat 64 x.core), (0x001, fun _ x _ => BitVec.ofNat 64 x.ctx),
  (0x002, fun _ _ c => BitVec.ofNat 64 c.slot), (0x003, fun _ _ c => BitVec.ofNat 64 c.step),
  (0x018, fun _ _ c => BitVec.ofNat 64 c.resume), (0x019, fun _ _ c => BitVec.ofNat 64 c.resumeW),
  (0x030, fun _ _ c => c.bstat), (0x031, fun _ _ c => c.aflags), (0x032, fun s _ _ => BitVec.ofNat 64 s.rackTime),
  (0x033, fun s _ c => BitVec.ofNat 64 ((s.now - c.placed) * 12 / 5)), (0x034, fun _ _ c => c.intmode)]

/-- Special registers (08 R188): CSRR reads those of the context's identity and of its own writable state, CSRW writes the three that may
be written: BSTAT and AFLAGS clear the bits written with 1, INTMODE takes bit 0; nothing else changes. -/
def Sys2Proof.Claims.SpecialRegistersReadAndWrite : Prop :=
  (∀ e ∈ Claims.specials, ∀ (x : CtxId) (d : Reg5) (s : State), Issuable (.csrr x d e.1) x s →
    Does (.csrr x d e.1) s fun t => ∃ c', Retired x c' s t ∧
      Claims.WritesS (s.ctx (ctxNum x)) c' d (e.2 s x (s.ctx (ctxNum x)))) ∧
  (∀ (x : CtxId) (d : Reg5) (n : BitVec 12) (s : State), Issuable (.csrr x d n) x s →
    Does (.csrr x d n) s fun t => ∃ c', Retired x c' s t ∧
      Claims.WritesS (s.ctx (ctxNum x)) c' d
        (State.special { s with rrCtx := s.rrCtx.setD x.core 0 x.ctx } x (s.ctx (ctxNum x)) n.toNat)) ∧
  (∀ (x : CtxId) (a : Reg5) (n : BitVec 12) (s : State), Issuable (.csrw x a n) x s →
    Does (.csrw x a n) s fun t => ∃ c', Retired x c' s t ∧
      (let c := s.ctx (ctxNum x)
       c' = { c with pc := c.pc + 4, run := .ready, bstat := c'.bstat, aflags := c'.aflags, intmode := c'.intmode } ∧
       (n = 0x030 ∨ n = 0x031 ∨ n = 0x034) ∧
       c'.bstat = (if n = 0x030 then c.bstat &&& ~~~(c.s a) else c.bstat) ∧
       c'.aflags = (if n = 0x031 then c.aflags &&& ~~~(c.s a) else c.aflags) ∧
       c'.intmode = (if n = 0x034 then BitVec.ofNat 64 ((c.s a).toNat % 2) else c.intmode)))

/-! ### Local memory and control flow -/

/-- The byte address that a base register and an offset name. -/
def Sys2Proof.Claims.addr (c : PipCtx) (a : Reg5) (off : Int) : Nat := (BitVec.ofInt 64 ((c.s a).toInt + off)).toNat

/-- An aligned access of `n` bytes inside the 64 KiB window. -/
def Sys2Proof.Claims.InWindow (m n : Nat) : Prop := m + n ≤ 65536 ∧ m % n = 0

/-- The 64-bit word of the window that holds a byte address. -/
def Sys2Proof.Claims.word (c : PipCtx) (m : Nat) : Word := c.mem.getD (m / 8) 0

/-- Loads write their register from the window, stores write the window at the address computed and nowhere else; no other memory
of the machine changes (08 R184, R191). -/
def Sys2Proof.Claims.LocalLoadsAndStores : Prop :=
  (∀ (x : CtxId) (d a : Reg5) (i : BitVec 16) (s : State), Issuable (.ld x d a i .clean) x s →
    Claims.InWindow (Claims.addr (s.ctx (ctxNum x)) a i.toInt) 8 →
    Does (.ld x d a i .clean) s fun t => ∃ c', Retired x c' s t ∧ Claims.WritesS (s.ctx (ctxNum x)) c' d
      (Claims.word (s.ctx (ctxNum x)) (Claims.addr (s.ctx (ctxNum x)) a i.toInt))) ∧
  (∀ (x : CtxId) (d a : Reg5) (i : BitVec 16) (s : State), Issuable (.lw x d a i .clean) x s →
    Claims.InWindow (Claims.addr (s.ctx (ctxNum x)) a i.toInt) 4 →
    Does (.lw x d a i .clean) s fun t => ∃ c', Retired x c' s t ∧
      (let m := Claims.addr (s.ctx (ctxNum x)) a i.toInt
       Claims.WritesS (s.ctx (ctxNum x)) c' d
        (BitVec.ofNat 64 ((Claims.word (s.ctx (ctxNum x)) m).toNat / 2 ^ (8 * (m % 8)) % 2 ^ 32)))) ∧
  (∀ (x : CtxId) (d a : Reg5) (i : BitVec 16) (s : State), Issuable (.st x d a i) x s →
    Claims.InWindow (Claims.addr (s.ctx (ctxNum x)) a i.toInt) 8 →
    Does (.st x d a i) s fun t => ∃ c', Retired x c' s t ∧
      (let c := s.ctx (ctxNum x)
       let m := Claims.addr c a i.toInt
       c' = { c with pc := c.pc + 4, run := .ready, mem := c'.mem } ∧
       ∀ k, c'.mem.getD k 0 = if k = m / 8 then c.s d else c.mem.getD k 0)) ∧
  (∀ (x : CtxId) (d a : Reg5) (i : BitVec 16) (s : State), Issuable (.sw x d a i) x s →
    Claims.InWindow (Claims.addr (s.ctx (ctxNum x)) a i.toInt) 4 →
    Does (.sw x d a i) s fun t => ∃ c', Retired x c' s t ∧
      (let c := s.ctx (ctxNum x)
       let m := Claims.addr c a i.toInt
       c' = { c with pc := c.pc + 4, run := .ready, mem := c'.mem } ∧
       (∀ k, k ≠ m / 8 → c'.mem.getD k 0 = c.mem.getD k 0) ∧
       ∀ b, b < 64 → (Claims.word c' m).getLsbD b =
         if 8 * (m % 8) ≤ b ∧ b < 8 * (m % 8) + 32 then (c.s d).getLsbD (b - 8 * (m % 8)) else (Claims.word c m).getLsbD b)) ∧
  (∀ (x : CtxId) (vd a : Reg5) (i : BitVec 16) (s : State), Issuable (.vld x vd a i .clean) x s →
    Claims.InWindow (Claims.addr (s.ctx (ctxNum x)) a (64 * i.toInt)) 64 →
    Does (.vld x vd a i .clean) s fun t => ∃ c', Retired x c' s t ∧
      (let c := s.ctx (ctxNum x)
       let m := Claims.addr c a (64 * i.toInt)
       c' = { c with pc := c.pc + 4, run := .ready, vregs := c'.vregs } ∧
       (∀ r : Reg5, r ≠ vd → c'.v r = c.v r) ∧
       ∀ k, k < 8 → BitVec.extractLsb' (64 * k) 64 (c'.v vd) = c.mem.getD (m / 8 + k) 0)) ∧
  (∀ (x : CtxId) (vd a : Reg5) (i : BitVec 16) (s : State), Issuable (.vst x vd a i) x s →
    Claims.InWindow (Claims.addr (s.ctx (ctxNum x)) a (64 * i.toInt)) 64 →
    Does (.vst x vd a i) s fun t => ∃ c', Retired x c' s t ∧
      (let c := s.ctx (ctxNum x)
       let m := Claims.addr c a (64 * i.toInt)
       c' = { c with pc := c.pc + 4, run := .ready, mem := c'.mem } ∧
       ∀ k, c'.mem.getD k 0 = if m / 8 ≤ k ∧ k < m / 8 + 8 then BitVec.extractLsb' (64 * (k - m / 8)) 64 (c.v vd)
         else c.mem.getD k 0))

/-- The branches of 08 R191 and their conditions. -/
def Sys2Proof.Claims.branchOps : List ((CtxId → Reg5 → Reg5 → BitVec 16 → Instr) × (Word → Word → Prop)) := [
  (Instr.beq, fun a b => a = b), (Instr.bne, fun a b => a ≠ b),
  (Instr.blt, fun a b => a.toInt < b.toInt), (Instr.bge, fun a b => b.toInt ≤ a.toInt),
  (Instr.bltu, fun a b => a.toNat < b.toNat), (Instr.bgeu, fun a b => b.toNat ≤ a.toNat)]

/-- A branch taken goes 4 · off from its own address, one not taken to the next instruction; JAL links in s31; RET goes to s31.
Nothing but the pc (and s31 for JAL) changes. -/
def Obligations.BranchesAndCallsSetThePc : Prop :=
  (∀ e ∈ Claims.branchOps, ∀ (x : CtxId) (a b : Reg5) (off : BitVec 16) (s : State),
    Issuable (e.1 x a b off) x s →
    (e.2 ((s.ctx (ctxNum x)).s a) ((s.ctx (ctxNum x)).s b) → Does (e.1 x a b off) s fun t =>
      Retired x ((s.ctx (ctxNum x)).goto (((s.ctx (ctxNum x)).pc : Int) + 4 * off.toInt).toNat) s t) ∧
    (¬ e.2 ((s.ctx (ctxNum x)).s a) ((s.ctx (ctxNum x)).s b) → Does (e.1 x a b off) s fun t =>
      Retired x ((s.ctx (ctxNum x)).goto ((s.ctx (ctxNum x)).pc + 4)) s t)) ∧
  (∀ (x : CtxId) (off : BitVec 26) (s : State), Issuable (.jal x off) x s →
    Does (.jal x off) s fun t => ∃ c', Retired x c' s t ∧
      (let c := s.ctx (ctxNum x)
       c'.pc = ((c.pc : Int) + 4 * off.toInt).toNat ∧ c'.run = .ready ∧ c'.s 31 = BitVec.ofNat 64 (c.pc + 4) ∧
       (∀ r : Reg5, r ≠ 31 → c'.s r = c.s r) ∧ c' = { c with pc := c'.pc, run := c'.run, regs := c'.regs })) ∧
  (∀ (x : CtxId) (s : State), Issuable (.ret x) x s →
    ((s.ctx (ctxNum x)).s 31).toNat % 4 = 0 →
    ((s.ctx (ctxNum x)).s 31).toNat / 4 < s.codeLen (s.ctx (ctxNum x)).program →
    Does (.ret x) s fun t => Retired x ((s.ctx (ctxNum x)).goto ((s.ctx (ctxNum x)).s 31).toNat) s t)

/-! ### Vector instructions -/

/-- What a vector instruction may change of its context: the vector register vd, AFLAGS, the pc. -/
def Sys2Proof.Claims.WritesV (c c' : PipCtx) (vd : Reg5) : Prop :=
  c' = { c with pc := c.pc + 4, run := .ready, vregs := c'.vregs, aflags := c'.aflags } ∧ ∀ r : Reg5, r ≠ vd → c'.v r = c.v r

/-- The instructions that compute vd lane by lane: the instruction, the format it works in, and its lane, of the mode, the format,
the context, the operands and the lane's number. -/
def Sys2Proof.Claims.laneOps : List ((CtxId → Reg5 → Reg5 → Reg5 → BitVec 3 → BitVec 4 → Instr) × (BitVec 4 → Nat) ×
    (ArithMode → Nat → PipCtx → Reg5 → Reg5 → Reg5 → Nat → Nat × Flags)) := [
  (Instr.vadd, (·.toNat), fun md f c _ a b i =>
    if f = 7 then int32Of md.sat (sint32 (laneGet f (c.v a) i) + sint32 (laneGet f (c.v b) i))
    else lane1 f md (addNum (laneNum f (c.v a) i) (laneNum f (c.v b) i))),
  (Instr.vsub, (·.toNat), fun md f c _ a b i =>
    if f = 7 then int32Of md.sat (sint32 (laneGet f (c.v a) i) - sint32 (laneGet f (c.v b) i))
    else lane1 f md (addNum (laneNum f (c.v a) i) (negNum (laneNum f (c.v b) i)))),
  (Instr.vmul, (·.toNat), fun md f c _ a b i =>
    if f = 7 then int32Of md.sat (sint32 (laneGet f (c.v a) i) * sint32 (laneGet f (c.v b) i))
    else lane1 f md (mulNum (laneNum f (c.v a) i) (laneNum f (c.v b) i))),
  (Instr.vfma, (·.toNat), fun md f c d a b i =>
    lane1 f md (fmaNum (laneNum f (c.v d) i) (laneNum f (c.v a) i) (laneNum f (c.v b) i))),
  (Instr.vmax, (·.toNat), fun _ f c _ a b i =>
    if laneNum f (c.v a) i = .nan ∨ laneNum f (c.v b) i = .nan then (((fmtOf f).bind (·.nan)).getD 0, Flags.nanIn)
    else (laneGet f (if ltNum (laneNum f (c.v a) i) (laneNum f (c.v b) i) then c.v b else c.v a) i, 0)),
  (Instr.vmin, (·.toNat), fun _ f c _ a b i =>
    if laneNum f (c.v a) i = .nan ∨ laneNum f (c.v b) i = .nan then (((fmtOf f).bind (·.nan)).getD 0, Flags.nanIn)
    else (laneGet f (if ltNum (laneNum f (c.v b) i) (laneNum f (c.v a) i) then c.v b else c.v a) i, 0)),
  (fun x vd va vb pr _ => Instr.vdiv x vd va vb pr, fun _ => 0, fun md f c _ a b i =>
    lane1 f md (divNum (laneNum f (c.v a) i) (laneNum f (c.v b) i))),
  (fun x vd va _ pr _ => Instr.vsqrt x vd va pr, fun _ => 0, fun md f c _ a _ i => lane1 f md (sqrtNum (laneNum f (c.v a) i))),
  (fun x vd va vb pr _ => Instr.vand x vd va vb pr, fun _ => 0, fun _ f c _ a b i =>
    (laneGet f (c.v a) i &&& laneGet f (c.v b) i, 0)),
  (fun x vd va vb pr _ => Instr.vor x vd va vb pr, fun _ => 0, fun _ f c _ a b i =>
    (laneGet f (c.v a) i ||| laneGet f (c.v b) i, 0)),
  (fun x vd va vb pr _ => Instr.vxor x vd va vb pr, fun _ => 0, fun _ f c _ a b i =>
    (laneGet f (c.v a) i ^^^ laneGet f (c.v b) i, 0)),
  (fun x vd va _ pr f => Instr.vmov x vd va pr f, (·.toNat), fun _ f c _ a _ i => (laneGet f (c.v a) i, 0)),
  (fun x vd va _ pr f => Instr.vsplat x vd va pr f, (·.toNat), fun _ _ c _ a _ _ => ((c.s a).toNat, 0))]

/-- In a format that is not MX, each lane that the mask switches on holds its result, cut to the lane; each other lane and every
other register keeps its value; AFLAGS gains the flags of the lanes that are on (08 R187, R191). -/
def Obligations.VectorLanesHoldTheirResult : Prop :=
  ∀ e ∈ Claims.laneOps, ∀ (x : CtxId) (vd va vb : Reg5) (pr : BitVec 3) (fmt : BitVec 4) (s : State),
    isMx (e.2.1 fmt) = false → Issuable (e.1 x vd va vb pr fmt) x s →
    Does (e.1 x vd va vb pr fmt) s fun t => ∃ c', Retired x c' s t ∧
      (let c := s.ctx (ctxNum x)
       let f := e.2.1 fmt
       let r := e.2.2 (State.mode s c) f c vd va vb
       Claims.WritesV c c' vd ∧
       (∀ i, i < lanesOf f → laneGet f (c'.v vd) i =
         if c.on pr i then (r i).1 % 2 ^ (laneAt f i).2 else laneGet f (c.v vd) i) ∧
       (∀ b, b < 16 → (c'.aflags.getLsbD b = true ↔ c.aflags.getLsbD b = true ∨
         ∃ i, i < lanesOf f ∧ c.on pr i = true ∧ (r i).2.getLsbD b = true)))

/-- The instructions that work on MX blocks, and the block each makes of the blocks of va and vb (06 R157; 08 R191). -/
def Sys2Proof.Claims.blockOps : List ((CtxId → Reg5 → Reg5 → Reg5 → BitVec 3 → BitVec 4 → Instr) ×
    (Nat → Block32 → Block32 → Block32 × Flags)) := [
  (Instr.vadd, fun f a b => addBlocks f a b),
  (Instr.vsub, fun f a b => addBlocks f a (b.1, b.2.map fun k => k ^^^ 2 ^ ((mxFmt f).bits - 1))),
  (fun x vd va _ pr f => Instr.vneg x vd va pr f, fun f a _ =>
    if a.1 = 0xFF then ((0xFF, a.2.map fun _ => 0), Flags.nanIn) else ((a.1, a.2.map fun k => k ^^^ 2 ^ ((mxFmt f).bits - 1)), 0)),
  (fun x vd va _ pr f => Instr.vabs x vd va pr f, fun f a _ =>
    if a.1 = 0xFF then ((0xFF, a.2.map fun _ => 0), Flags.nanIn) else ((a.1, a.2.map fun k => k % 2 ^ ((mxFmt f).bits - 1)), 0)),
  (fun x vd va _ pr f => Instr.vmov x vd va pr f, fun _ a _ => (a, 0))]

/-- In an MX format (FMT 5, 6) each block with a lane on takes its new scale, its lanes that are on their new codes; other lanes, blocks
without a lane on and every other register keep their value. -/
def Obligations.VectorBlocksHoldTheirResult : Prop :=
  ∀ e ∈ Claims.blockOps, ∀ (x : CtxId) (vd va vb : Reg5) (pr : BitVec 3) (fmt : BitVec 4) (s : State),
    isMx fmt.toNat = true → Issuable (e.1 x vd va vb pr fmt) x s →
    Does (e.1 x vd va vb pr fmt) s fun t => ∃ c', Retired x c' s t ∧
      (let c := s.ctx (ctxNum x)
       let f := fmt.toNat
       Claims.WritesV c c' vd ∧
       ∀ k, k < 2 →
         (let y := (e.2 f (blockGet f (c.v va) k) (blockGet f (c.v vb) k)).1
          ((∃ i, i < 32 ∧ c.on pr (32 * k + i) = true) → scaleGet (c'.v vd) k = y.1 % 256) ∧
          ((∀ i, i < 32 → c.on pr (32 * k + i) = false) → scaleGet (c'.v vd) k = scaleGet (c.v vd) k) ∧
          ∀ i, i < 32 → laneGet f (c'.v vd) (32 * k + i) =
            if c.on pr (32 * k + i) then y.2.getD i 0 % 2 ^ (laneAt f (32 * k + i)).2 else laneGet f (c.v vd) (32 * k + i)))

/-- The sign instructions outside MX (08 R191): a NaN gives the canonical NaN, INT32 wraps or saturates by INTMODE. -/
def Sys2Proof.Claims.signLane (clear : Bool) (md : ArithMode) (f : Nat) (c : PipCtx) (a : Reg5) (i : Nat) : Nat :=
  if f = 7 then (int32Of md.sat (if clear then ((sint32 (laneGet f (c.v a) i)).natAbs : Int) else -sint32 (laneGet f (c.v a) i))).1
  else if laneNum f (c.v a) i = .nan then ((fmtOf f).bind (·.nan)).getD 0
  else if clear then laneGet f (c.v a) i % 2 ^ ((laneAt f i).2 - 1) else laneGet f (c.v a) i ^^^ 2 ^ ((laneAt f i).2 - 1)

/-- VNEG and VABS, VSEL, VEXTR, VINSR, VCVT and the comparisons: results and frame (08 R191, R192). A block of VSEL that mixes two scales
takes a scale that the spec does not give (a free value, notes/assumptions), so nothing is said of it. -/
def Sys2Proof.Claims.VectorMovesAndComparisons : Prop :=
  (∀ (clear : Bool) (x : CtxId) (vd va : Reg5) (pr : BitVec 3) (fmt : BitVec 4) (s : State), isMx fmt.toNat = false →
    Issuable (if clear then .vabs x vd va pr fmt else .vneg x vd va pr fmt) x s →
    Does (if clear then .vabs x vd va pr fmt else .vneg x vd va pr fmt) s fun t => ∃ c', Retired x c' s t ∧
      (let c := s.ctx (ctxNum x)
       Claims.WritesV c c' vd ∧
       ∀ i, i < lanesOf fmt.toNat → laneGet fmt.toNat (c'.v vd) i =
         if c.on pr i then Claims.signLane clear (State.mode s c) fmt.toNat c va i % 2 ^ (laneAt fmt.toNat i).2
         else laneGet fmt.toNat (c.v vd) i)) ∧
  (∀ (x : CtxId) (vd va vb : Reg5) (pr : BitVec 3) (fmt : BitVec 4) (s : State), Issuable (.vsel x vd va vb pr fmt) x s →
    Does (.vsel x vd va vb pr fmt) s fun t => ∃ c', Retired x c' { s with fresh := s.fresh + 1 } t ∧
      (let c := s.ctx (ctxNum x)
       Claims.WritesV c c' vd ∧ c'.aflags = c.aflags ∧
       ∀ i, i < lanesOf fmt.toNat → laneGet fmt.toNat (c'.v vd) i =
         laneGet fmt.toNat (if (c.p pr).getLsbD i then c.v va else c.v vb) i)) ∧
  (∀ (x : CtxId) (d va b : Reg5) (fmt : BitVec 4) (s : State), Issuable (.vextr x d va b fmt) x s →
    Does (.vextr x d va b fmt) s fun t => ∃ c', Retired x c' s t ∧
      (let c := s.ctx (ctxNum x)
       Claims.WritesS c c' d (BitVec.ofNat 64 (laneGet fmt.toNat (c.v va) ((c.s b).toNat % lanesOf fmt.toNat))))) ∧
  (∀ (x : CtxId) (vd a b : Reg5) (fmt : BitVec 4) (s : State), Issuable (.vinsr x vd a b fmt) x s →
    Does (.vinsr x vd a b fmt) s fun t => ∃ c', Retired x c' s t ∧
      (let c := s.ctx (ctxNum x)
       Claims.WritesV c c' vd ∧ c'.aflags = c.aflags ∧
       ∀ i, i < lanesOf fmt.toNat → laneGet fmt.toNat (c'.v vd) i =
         if i = (c.s b).toNat % lanesOf fmt.toNat then (c.s a).toNat % 2 ^ (laneAt fmt.toNat i).2 else laneGet fmt.toNat (c.v vd) i)) ∧
  (∀ (x : CtxId) (vd va : Reg5) (tf : BitVec 3) (part : BitVec 2) (pr : BitVec 3) (fmt : BitVec 4) (s : State),
    Issuable (.vcvt x vd va tf part pr fmt) x s →
    Does (.vcvt x vd va tf part pr fmt) s fun t => ∃ c', Retired x c' s t ∧
      (let c := s.ctx (ctxNum x)
       Claims.WritesV c c' vd ∧
       (isMx fmt.toNat = false → isMx tf.toNat = false → lanesOf fmt.toNat = lanesOf tf.toNat → fmt.toNat ≠ tf.toNat →
        ∀ i, i < lanesOf tf.toNat → laneGet tf.toNat (c'.v vd) i =
          if c.on pr i then (convertTo tf.toNat (laneNum fmt.toNat (c.v va) i)).1 % 2 ^ (laneAt tf.toNat i).2
          else laneGet tf.toNat (c.v vd) i))) ∧
  (∀ e ∈ ([(Instr.vcmpeq, fun a b => !unordered a b && eqNum a b),
           (Instr.vcmplt, fun a b => !unordered a b && !eqNum a b && ltNum a b),
           (Instr.vcmple, fun a b => !unordered a b && (eqNum a b || ltNum a b)),
           (Instr.vcmpun, fun a b => unordered a b)] :
      List ((CtxId → BitVec 3 → Reg5 → Reg5 → BitVec 3 → BitVec 4 → Instr) × (Machine.Num → Machine.Num → Bool))),
    ∀ (x : CtxId) (pd : BitVec 3) (va vb : Reg5) (pr : BitVec 3) (fmt : BitVec 4) (s : State),
    Issuable (e.1 x pd va vb pr fmt) x s →
    Does (e.1 x pd va vb pr fmt) s fun t => ∃ c', Retired x c' s t ∧
      (let c := s.ctx (ctxNum x)
       c' = { c with pc := c.pc + 4, run := .ready, pregs := c'.pregs } ∧
       (∀ r : BitVec 3, r ≠ pd → c'.p r = c.p r) ∧
       ∀ i, i < 64 → (c'.p pd).getLsbD i =
         if i < lanesOf fmt.toNat ∧ c.on pr i = true then e.2 (laneNum fmt.toNat (c.v va) i) (laneNum fmt.toNat (c.v vb) i)
         else (c.p pd).getLsbD i))

/-- The predicate registers: PMOV, PREAD, PAND, POR, PNOT (08 R191). -/
def Sys2Proof.Claims.PredicateInstructions : Prop :=
  (∀ (x : CtxId) (d : Reg5) (pa : BitVec 3) (s : State), Issuable (.pread x d pa) x s →
    Does (.pread x d pa) s fun t => ∃ c', Retired x c' s t ∧
      Claims.WritesS (s.ctx (ctxNum x)) c' d ((s.ctx (ctxNum x)).p pa)) ∧
  (∀ e ∈ ([(fun x pd _ _ a => Instr.pmov x pd a, fun c _ _ a => PipCtx.s c a),
           (fun x pd pa pb _ => Instr.pand x pd pa pb, fun c pa pb _ => PipCtx.p c pa &&& PipCtx.p c pb),
           (fun x pd pa pb _ => Instr.por x pd pa pb, fun c pa pb _ => PipCtx.p c pa ||| PipCtx.p c pb),
           (fun x pd pa _ _ => Instr.pnot x pd pa, fun c pa _ _ => ~~~(PipCtx.p c pa))] :
      List ((CtxId → BitVec 3 → BitVec 3 → BitVec 3 → Reg5 → Instr) × (PipCtx → BitVec 3 → BitVec 3 → Reg5 → Word))),
    ∀ (x : CtxId) (pd pa pb : BitVec 3) (a : Reg5) (s : State), Issuable (e.1 x pd pa pb a) x s →
    Does (e.1 x pd pa pb a) s fun t => ∃ c', Retired x c' s t ∧
      (let c := s.ctx (ctxNum x)
       c' = { c with pc := c.pc + 4, run := .ready, pregs := c'.pregs } ∧ c'.p pd = e.2 c pa pb a ∧
       ∀ r : BitVec 3, r ≠ pd → c'.p r = c.p r))

/-! ### Bank operations, messages, transfers, reports -/

/-- A bank access that goes through at once (08 R193, R194): the area is the instance's, the address aligned, the queue of 16 not full,
no recarve, and the bank not fenced by a retirement. -/
def Sys2Proof.Claims.BankOk (s : State) (x : CtxId) (m : Nat) (write : Bool) : Prop :=
  s.mayAccess (s.ctx (ctxNum x)) m 64 write = true ∧ m % 64 = 0 ∧ (s.ctx (ctxNum x)).bankOps < 16 ∧ x.core / 32 ∉ s.recarve ∧
  s.bankFenced (x.core / 32) (s.placeOf (x.core / 32) m).bank = false

/-- The context after a bank operation: one queue entry more, the pc moved on; BSTAT, AFLAGS and vd may have changed. -/
def Sys2Proof.Claims.BankCtx (c c' : PipCtx) (vd : Reg5) : Prop :=
  c' = { c with pc := c.pc + 4, run := .ready, bankOps := c.bankOps + 1, bstat := c'.bstat, aflags := c'.aflags, vregs := c'.vregs } ∧
  ∀ r : Reg5, r ≠ vd → c'.v r = c.v r

/-- BLD reads the word, zero where it is EMPTY or poisoned, with BSTAT.EMPTY and BSTAT.POISONED; no store changes. BST writes its whole
word; with a write conflict it writes nothing and sets BSTAT.WRITE_CONFLICT. Every other word of the stores stays (08 R195; 07 R171,
R172). BANK_OP_COMPLETE frees a queue entry of a running context. -/
def Sys2Proof.Claims.BankLoadsAndStores : Prop :=
  (∀ (x : CtxId) (vd a : Reg5) (i : BitVec 16) (s : State), Issuable (.bld x vd a i .clean) x s →
    Claims.BankOk s x (Claims.addr (s.ctx (ctxNum x)) a (64 * i.toInt)) false →
    Settles (.bld x vd a i .clean) s fun t => ∃ c', Retired x c' s t ∧
      (let c := s.ctx (ctxNum x)
       let w := s.bankWord (bankKey (x.core / 32) (Claims.addr c a (64 * i.toInt)))
       Claims.BankCtx c c' vd ∧ c'.v vd = (if w.poison = true ∨ w.empty = true then 0 else w.data) ∧ c'.aflags = c.aflags ∧
       c'.bstat = c.bstat ||| (if w.empty then 2 else 0) ||| (if w.poison then 4 else 0))) ∧
  (∀ (x : CtxId) (vd a : Reg5) (i : BitVec 16) (s : State), Issuable (.bst x vd a i false) x s →
    Claims.BankOk s x (Claims.addr (s.ctx (ctxNum x)) a (64 * i.toInt)) true →
    Does (.bst x vd a i false) s fun t => ∃ c',
      (let c := s.ctx (ctxNum x)
       let k := bankKey (x.core / 32) (Claims.addr c a (64 * i.toInt))
       Retired x c' { s with banks := t.banks } t ∧ c' = { c with pc := c.pc + 4, run := .ready, bankOps := c.bankOps + 1 } ∧
       t.bankWord k = { data := c.v vd, poison := false, empty := false } ∧ ∀ j, j ≠ k → t.bankWord j = s.bankWord j)) ∧
  (∀ (x : CtxId) (vd a : Reg5) (i : BitVec 16) (s : State), Issuable (.bst x vd a i true) x s →
    Claims.BankOk s x (Claims.addr (s.ctx (ctxNum x)) a (64 * i.toInt)) true →
    Does (.bst x vd a i true) s fun t => ∃ c', Retired x c' s t ∧
      (let c := s.ctx (ctxNum x)
       c' = { c with pc := c.pc + 4, run := .ready, bankOps := c.bankOps + 1, bstat := c.bstat ||| 1 })) ∧
  (∀ (x : CtxId) (reads : List Ecc) (s : State), 11 < (s.ctx (ctxNum x)).program → 0 < (s.ctx (ctxNum x)).bankOps →
    (s.ctx (ctxNum x)).run ≠ .stopped →
    SettlesLib (.bankOpComplete x reads) s fun t => t = { s with ctxs := t.ctxs } ∧
      t.ctx (ctxNum x) = { s.ctx (ctxNum x) with bankOps := (s.ctx (ctxNum x)).bankOps - 1 } ∧
      ∀ k, k ≠ ctxNum x → t.ctx k = s.ctx k)

/-- The atomics of 08 R196 and 07 R171: what the word becomes, from the mode, the format, whether it was EMPTY, its data and the
operand vd. -/
def Sys2Proof.Claims.atomics : List ((CtxId → Reg5 → Reg5 → BitVec 4 → Bool → BitVec 8 → Instr) ×
    (ArithMode → Nat → Bool → Flit → Flit → Flit × Flags)) := [
  (fun x vd a f ret i => .batomAdd x vd a f ret i .clean, fun md f e w y => if e then firstWord f y else addWord f md false w y),
  (fun x vd a _ ret i => .batomAddI32w x vd a ret i .clean, fun _ _ e w y =>
    if e then firstWord 7 y else addWord 7 { sat := false } false w y),
  (fun x vd a _ ret i => .batomAddI32s x vd a ret i .clean, fun _ _ e w y =>
    if e then firstWord 7 y else addWord 7 { sat := true } false w y),
  (fun x vd a _ ret i => .batomXacc32 x vd a ret i .clean, fun _ _ e w y => if e then (y, 0) else xaccWord 32 w y),
  (fun x vd a _ ret i => .batomXacc64 x vd a ret i .clean, fun _ _ e w y => if e then (y, 0) else xaccWord 64 w y),
  (fun x vd a f ret i => .batomMax x vd a f ret i .clean, fun _ f e w y => maxMinWord f false (if e then 0 else w) y),
  (fun x vd a f ret i => .batomMin x vd a f ret i .clean, fun _ f e w y => maxMinWord f true (if e then 0 else w) y),
  (fun x vd a _ ret i => .batomSwap x vd a ret i .clean, fun _ _ _ _ y => (y, 0))]

/-- An atomic reads, combines and writes one word: a poisoned word stays as it is and sets BSTAT.POISONED; any other takes the
combination, and its tags are cleared; vd takes the old word only with RET = 1 (zero where it was EMPTY or poisoned); no other word
changes (07 R171, R172; 08 R196). -/
def Sys2Proof.Claims.BankAtomics : Prop :=
  ∀ e ∈ Claims.atomics, ∀ (x : CtxId) (vd a : Reg5) (f : BitVec 4) (ret : Bool) (i : BitVec 8) (s : State),
    Issuable (e.1 x vd a f ret i) x s → Claims.BankOk s x (Claims.addr (s.ctx (ctxNum x)) a (64 * i.toInt)) true →
    Settles (e.1 x vd a f ret i) s fun t => ∃ c',
      (let c := s.ctx (ctxNum x)
       let k := bankKey (x.core / 32) (Claims.addr c a (64 * i.toInt))
       let w := s.bankWord k
       let y := e.2 (State.mode s c) f.toNat w.empty w.data (c.v vd)
       Retired x c' { s with banks := t.banks } t ∧ Claims.BankCtx c c' vd ∧
       c'.v vd = (if ret then (if w.poison = true ∨ w.empty = true then 0 else w.data) else c.v vd) ∧
       (w.poison = true → t.banks = s.banks ∧ c'.bstat = c.bstat ||| 4 ∧ c'.aflags = c.aflags) ∧
       (w.poison = false → t.bankWord k = { data := y.1, poison := false, empty := false } ∧ c'.bstat = c.bstat ∧
         c'.aflags = c.aflags ||| y.2.setWidth 64 ∧ ∀ j, j ≠ k → t.bankWord j = s.bankWord j))

/-- A send that 08 R200 allows, from a bound slot with a live instance. -/
def Sys2Proof.Claims.SendOk (s : State) (c : PipCtx) (a b : Reg5) : Prop :=
  ∃ bd g i, s.bindingOf c.slot = some (bd, g) ∧ s.inst? c.slot c.step = some i ∧
    (let d := c.s b
     let n := 64 * dLen d
     dLen d ≤ 64 ∧ dFoff d + dLen d ≤ bd.sendLimit i.disc (dKind d) (dChunk d) ∧ dType d < 2 ∧
     (dKind d = 0 → dTarget d < g.count) ∧ (dKind d = 2 → c.helper = true) ∧
     (dKind d = 3 → (s.chanTarget bd (dTarget d % 16)).isSome) ∧
     (n ≠ 0 → s.mayAccess c (c.s a).toNat n false = true) ∧ (c.s a).toNat % 64 = 0)

/-- Messages (08 R198 to R200): MSEND queues one send; MWAIT answers when it may and waits otherwise; MRECV takes the oldest descriptor
of its channel and waits otherwise. -/
def Sys2Proof.Claims.MessagesAndWaits : Prop :=
  (∀ (x : CtxId) (a b : Reg5) (s : State), Issuable (.msend x a b) x s → Claims.SendOk s (s.ctx (ctxNum x)) a b →
    Does (.msend x a b) s fun t =>
      (let c := s.ctx (ctxNum x)
       Retired x { c with pc := c.pc + 4, run := .ready,
                          sends := c.sends ++ [{ addr := (c.s a).toNat, len := dLen (c.s b), desc := c.s b }] } s t)) ∧
  (∀ (x : CtxId) (d a b : Reg5) (ch : BitVec 4) (mode : Bool) (s : State) (bd : Binding) (g : Group) (i : Instance) (src r : Nat),
    Issuable (.mwait x d a b ch mode) x s → s.bindingOf (s.ctx (ctxNum x)).slot = some (bd, g) →
    s.inst? (s.ctx (ctxNum x)).slot (s.ctx (ctxNum x)).step = some i →
    s.chanSource (s.ctx (ctxNum x)).program ch.toNat = some src →
    (src = 2 ∨ ((s.ctx (ctxNum x)).s a).toNat < bd.chunks) →
    (s.waitAnswer (s.ctx (ctxNum x)).slot bd g i src ch.toNat ((s.ctx (ctxNum x)).s a).toNat ((s.ctx (ctxNum x)).s b).toNat mode = some r →
      Does (.mwait x d a b ch mode) s fun t => ∃ c', Retired x c' s t ∧
        Claims.WritesS (s.ctx (ctxNum x)) c' d (BitVec.ofNat 64 r)) ∧
    (s.waitAnswer (s.ctx (ctxNum x)).slot bd g i src ch.toNat ((s.ctx (ctxNum x)).s a).toNat ((s.ctx (ctxNum x)).s b).toNat mode = none →
      (s.ctx (ctxNum x)).run = .ready → Does (.mwait x d a b ch mode) s fun t => Waits x (s.ctx (ctxNum x)) s t)) ∧
  (∀ (x : CtxId) (d : Reg5) (ch : BitVec 4) (s : State) (i : Instance) (v : Arrival), Issuable (.mrecv x d ch) x s →
    s.inst? (s.ctx (ctxNum x)).slot (s.ctx (ctxNum x)).step = some i →
    i.descs.find? (fun v => v.chan = ch.toNat) = some v →
    Does (.mrecv x d ch) s fun t => ∃ c',
      (let c := s.ctx (ctxNum x)
       Retired x c' { s with insts := t.insts } t ∧ c'.pc = c.pc + 4 ∧ c'.s d = (if d = 0 then 0 else v.desc) ∧
       c'.inboxUsed = c.inboxUsed - c.lastRecv.getD ch.toNat 0 ∧ c'.lastRecv.getD ch.toNat 0 = v.free ∧
       (∀ r : Reg5, r ≠ d → c'.s r = c.s r) ∧ t.inst? c.slot c.step = some { i with descs := i.descs.erase v }))

/-- A transfer that 08 R201 allows: the descriptor at local a, aligned, at most 1 MiB, the memory range in a region that permits it and
the bank range an area of the instance. -/
def Sys2Proof.Claims.DmaOk (s : State) (c : PipCtx) (m : Nat) : Prop :=
  (let faddr := bitsOf (c.ldw m) 0 48
   let baddr := bitsOf (c.ldw (m + 8)) 0 32
   let bytes := bitsOf (c.ldw (m + 8)) 32 32
   let toMem := (c.ldw (m + 16)).getLsbD 0
   faddr % 64 = 0 ∧ baddr % 64 = 0 ∧ bytes ≠ 0 ∧ bytes ≤ 1048576 ∧ bytes % 64 = 0 ∧ faddr + bytes ≤ s.memTop ∧
   s.regionOk (((s.bindingOf c.slot).map fun p => p.2.dfn.slice).getD 0) faddr bytes toMem = true ∧
   s.mayAccess c baddr bytes (!toMem) = true)

/-- Transfers and fences (08 R197, R201): DMA starts a transfer under a new tag, behind every transfer of its quadrant; the oldest one of the
quadrant completes first, marked 0, or 3 with a poisoned source word; DMAWAIT takes the status of a complete tag and waits otherwise;
FENCE goes on once its classes are quiet. -/
def Sys2Proof.Claims.TransfersAndFences : Prop :=
  (∀ (x : CtxId) (d a : Reg5) (s : State), Issuable (.dma x d a .clean) x s → Claims.InWindow ((s.ctx (ctxNum x)).s a).toNat 32 →
    Claims.DmaOk s (s.ctx (ctxNum x)) ((s.ctx (ctxNum x)).s a).toNat →
    (((s.ctx (ctxNum x)).dmas.filter fun t => t.status.isNone).length < 8) →
    Does (.dma x d a .clean) s fun t => ∃ c', Retired x c' { s with dmaCount := s.dmaCount + 1 } t ∧
      (let c := s.ctx (ctxNum x)
       let m := (c.s a).toNat
       c'.pc = c.pc + 4 ∧ c'.nextTag = c.nextTag + 1 ∧ c'.s d = (if d = 0 then 0 else BitVec.ofNat 64 c.nextTag) ∧
       c'.dmas = c.dmas ++ [{ tag := c.nextTag, faddr := bitsOf (c.ldw m) 0 48, baddr := bitsOf (c.ldw (m + 8)) 0 32,
                              bytes := bitsOf (c.ldw (m + 8)) 32 32, toMem := (c.ldw (m + 16)).getLsbD 0, order := s.dmaCount }])) ∧
  (∀ (x : CtxId) (tag : Nat) (reads : List Ecc) (lost : List Nat) (s : State) (u : DmaTag),
    (s.ctx (ctxNum x)).dmas.find? (fun t => t.status.isNone) = some u → u.tag = tag → u.toCtl = false → x.core / 32 ∉ s.recarve →
    (∀ e ∈ s.ctxs, e.1 / 128 = x.core / 32 → ∀ v ∈ e.2.dmas, v.status = none → u.order ≤ v.order) →
    SettlesLib (.dmaTransferComplete x tag reads lost) s fun t =>
      (let r := s.dmaMove (x.core / 32) u reads lost
       t = (r.1.modCtx (ctxNum x) fun c => { c with dmas := c.dmas.map fun (v : DmaTag) =>
         if v.tag = tag then { v with status := some (if r.2 then 3 else 0) } else v }).freeIfIdle x)) ∧
  (∀ (x : CtxId) (d a : Reg5) (s : State) (u : DmaTag) (st : Nat), Issuable (.dmawait x d a) x s →
    (s.ctx (ctxNum x)).dmas.find? (fun t => t.tag = ((s.ctx (ctxNum x)).s a).toNat && t.status.isSome) = some u →
    u.status = some st →
    Does (.dmawait x d a) s fun t => ∃ c', Retired x c' s t ∧
      (let c := s.ctx (ctxNum x)
       c'.pc = c.pc + 4 ∧ c'.s d = (if d = 0 then 0 else BitVec.ofNat 64 st) ∧ (∀ v ∈ c'.dmas, v.tag ≠ u.tag) ∧
       ∀ r : Reg5, r ≠ d → c'.s r = c.s r)) ∧
  (∀ (x : CtxId) (cls : BitVec 4) (s : State), Issuable (.fence x cls) x s →
    ((cls.getLsbD 0 = true → (s.ctx (ctxNum x)).bankOps = 0) ∧ (cls.getLsbD 1 = true → (s.ctx (ctxNum x)).sends = []) ∧
      (cls.getLsbD 2 = true → ∀ t ∈ (s.ctx (ctxNum x)).dmas, t.status.isSome = true) →
     Does (.fence x cls) s fun t => Retired x ((s.ctx (ctxNum x)).goto ((s.ctx (ctxNum x)).pc + 4)) s t) ∧
    (cls.getLsbD 0 = true ∧ (s.ctx (ctxNum x)).bankOps ≠ 0 → (s.ctx (ctxNum x)).run = .ready →
     Does (.fence x cls) s fun t => Waits x (s.ctx (ctxNum x)) s t))

/-- The end of a program and its reports (08 R202, R213): IDONE frees the context and marks the instance's program done; IABORT ends
the instance with 0x0106, its user value kept; IREPORT keeps the count or the value, or reports a chunk; ICKPT writes the older checkpoint record of
the slot and RESUME. -/
def Sys2Proof.Claims.ReportsAndEnds : Prop :=
  (∀ (x : CtxId) (s : State) (i : Instance), Issuable (.idone x) x s → (s.ctx (ctxNum x)).quiet 0xF = true →
    (s.ctx (ctxNum x)).recoveryOf = none → s.inst? (s.ctx (ctxNum x)).slot (s.ctx (ctxNum x)).step = some i →
    Settles (.idone x) s fun t => t.ctx (ctxNum x) = {} ∧
      ∃ i', t.inst? (s.ctx (ctxNum x)).slot (s.ctx (ctxNum x)).step = some i' ∧ i'.programDone = true ∧
        (i.status = none → i.results = [] → i.recovering = [] → i.recCtx = none →
          (s.slot (s.ctx (ctxNum x)).slot).helper = none → i'.status = some (if i.recovered then 1 else 0))) ∧
  (∀ (x : CtxId) (a : Reg5) (s : State) (i : Instance), Issuable (.iabort x a) x s →
    s.inst? (s.ctx (ctxNum x)).slot (s.ctx (ctxNum x)).step = some i → i.status = none →
    (s.slot (s.ctx (ctxNum x)).slot).helper = none →
    Settles (.iabort x a) s fun t =>
      ∃ i', t.inst? (s.ctx (ctxNum x)).slot (s.ctx (ctxNum x)).step = some i' ∧ i'.status = some 0x0106 ∧ i'.state = .ending ∧
        i'.user = ((s.ctx (ctxNum x)).s a).toNat) ∧
  (∀ (x : CtxId) (a : Reg5) (s : State) (b : Binding) (g : Group) (i : Instance), Issuable (.ireportChunkDone x a) x s →
    (let c := s.ctx (ctxNum x)
     s.bindingOf c.slot = some (b, g) → s.inst? c.slot c.step = some i → (c.s a).toNat ∈ i.opened → (c.s a).toNat ∉ i.done →
     (s.slot c.slot).helper.isSome = true →
     Does (.ireportChunkDone x a) s fun t => ∃ u, Retired x (c.goto (c.pc + 4)) { s with insts := u.insts } u ∧
       u.inst? c.slot c.step = some { i with done := (c.s a).toNat :: i.done } ∧ t = u.openNext c.slot c.step)) ∧
  (∀ (x : CtxId) (a : Reg5) (s : State) (b : Binding) (g : Group) (i : Instance), Issuable (.ireportChunkDone x a) x s →
    (let c := s.ctx (ctxNum x)
     s.bindingOf c.slot = some (b, g) → s.inst? c.slot c.step = some i → (c.s a).toNat ∈ i.opened → (c.s a).toNat ∉ i.done →
     (s.slot c.slot).helper = none →
     Does (.ireportChunkDone x a) s fun t => ∃ u, Retired x (c.goto (c.pc + 4)) { s with insts := u.insts } u ∧
       u.inst? c.slot c.step = some { i with done := (c.s a).toNat :: i.done } ∧
       t = (u.release c.slot c.step (c.s a).toNat b g i).openNext c.slot c.step)) ∧
  (∀ (x : CtxId) (a : Reg5) (s : State) (i : Instance), Issuable (.ireportChunkFault x a) x s →
    s.inst? (s.ctx (ctxNum x)).slot (s.ctx (ctxNum x)).step = some i →
    (let c := s.ctx (ctxNum x)
     Settles (.ireportChunkFault x a) s fun t => ∃ u, Retired x (c.goto (c.pc + 4)) s u ∧
       (let v := u.chunkFault c.slot c.step (c.s a).toNat c.recoveryOf.isNone
        t = v ∨ t = v.stopCtx x))) ∧
  (∀ (x : CtxId) (a : Reg5) (s : State) (i : Instance), Issuable (.ireportDropped x a) x s →
    s.inst? (s.ctx (ctxNum x)).slot (s.ctx (ctxNum x)).step = some i →
    (let c := s.ctx (ctxNum x)
     Does (.ireportDropped x a) s fun t => Retired x (c.goto (c.pc + 4)) { s with insts := t.insts, out := t.out } t ∧
       ((s.slot c.slot).helper = none → t.out = s.out) ∧
       t.inst? c.slot c.step = some { i with dropped := i.dropped + (c.s a).toNat })) ∧
  (∀ (x : CtxId) (a : Reg5) (s : State) (i : Instance), Issuable (.ireportUser x a) x s →
    s.inst? (s.ctx (ctxNum x)).slot (s.ctx (ctxNum x)).step = some i →
    (let c := s.ctx (ctxNum x)
     Does (.ireportUser x a) s fun t => Retired x (c.goto (c.pc + 4)) { s with insts := t.insts } t ∧
       t.inst? c.slot c.step = some { i with user := (c.s a).toNat })) ∧
  (∀ (x : CtxId) (d a : Reg5) (s : State) (i : Instance), Issuable (.ickpt x d a) x s →
    s.inst? (s.ctx (ctxNum x)).slot (s.ctx (ctxNum x)).step = some i →
    (let c := s.ctx (ctxNum x)
     let r := (c.s a).toNat
     let w := (c.s d).toNat
     Does (.ickpt x d a) s fun t =>
       Retired x { c.goto (c.pc + 4) with resume := r, resumeW := w } { s with slots := t.slots, insts := t.insts } t ∧
       t.inst? c.slot c.step = some { i with resume := r, resumeW := w } ∧
       (∃ k ∈ (t.slot c.slot).ckpts, k.resume = r ∧ k.user = w ∧ k.step = c.step ∧ ∀ j ∈ (s.slot c.slot).ckpts, j.seq < k.seq)))

/-- A core's hardware error (08 R186, R206, R212; 17 R424): an uncorrectable memory word or a parity error records the error and fences the
core; a corrected word of either memory is recorded only, and no unit but the error log changes. -/
def Sys2Proof.Claims.CoreHardwareErrors : Prop :=
  (∀ (core code : Nat) (s : State), core < 128 → core ∉ s.coreFenced → code ∈ [E.pipLdmUe, E.pipImemUe, E.pipParity] →
    Does (.coreHwError core code) s fun t => core ∈ t.coreFenced ∧ ∀ k, k ∈ s.coreFenced → k ∈ t.coreFenced) ∧
  (∀ (core code : Nat) (s : State), core < 128 → core ∉ s.coreFenced → code ∈ [E.pipImemCe, E.pipLdmCe] →
    Does (.coreHwError core code) s fun t => t.coreFenced = s.coreFenced ∧ t.mem = s.mem ∧ t.banks = s.banks ∧ t.insts = s.insts)

/-- The dealer (08 R204; 09 R221): with one instance waiting and a context free, the placement puts it there, running, with its
registers zero but s31, at its program's entry. -/
def Sys2Proof.Claims.DealerPlacesTheWaitingInstance : Prop :=
  ∀ (q slot step : Nat) (ckpt : Ecc) (s : State) (b : Binding) (g : Group) (i : Instance) (x : CtxId), q < 4 → s.phys.fatal = false →
    step < 65536 → s.waitingInsts q = [(65536 * slot + step, i)] →
    (s.insts.find? fun e => e.1 / 65536 / 1024 = q && e.2.status.isNone && e.2.recovering ≠ [] && e.2.recCtx.isNone) = none →
    s.bindingOf slot = some (b, g) → s.freeCtx q none = some x →
    SettlesLib (.dealerPlace q ckpt) s fun t =>
      t.inst? slot step = some { i with ctx := some x, state := .running, replace := false } ∧
      (let c := t.ctx (ctxNum x)
       c.run = .ready ∧ c.slot = slot ∧ c.step = step ∧ c.program = b.program ∧ c.vregs = [] ∧ c.pregs = [] ∧
       c.pc = 4 * ((s.program? b.program).map fun p => p.entry).getD 0 ∧ (∀ r : Reg5, r ≠ 31 → c.s r = 0) ∧
       c.s 31 = BitVec.ofNat 64 c.pc)

/-! ### The fabric link (02, 11 R266) -/

/-- A port that may begin or go on with a new window: ACTIVE, no replay asked for or under way, room in the retry buffer (02 R21, R27). -/
def Sys2Proof.Claims.CanSend (s : State) (p : Nat) : Prop :=
  s.active p = true ∧ (s.txOf p).askReplay = false ∧ (s.txOf p).resend = [] ∧ (s.txOf p).cur.length < 32 ∧
  ((s.txOf p).cur = [] → (s.txOf p).buf.length < 64)

/-- The state after a slot is on the line (`State.sendSlot`), but for the transmit record and registers of a port. -/
def Sys2Proof.Claims.Sent (s t : State) (p : Nat) (x : Slot) : Prop := ∃ tx rg, t = { s.sendSlot p x with tx := tx, regs := rg }

/-- The next slot of a port: an idle slot where there is no flit to send, else the next flit of the VC chosen, for one credit; a window of
32 slots goes into the retry buffer under TXSEQ; in a replay the retained slots go again, unchanged; a port that is not ACTIVE sends
nothing (02 R17 to R22, R27, R33); under HOLD a member link returns no credit on VC0, VC1, VC3 and VC5 (04 R96). -/
def Sys2Proof.Claims.SlotsAreSent : Prop :=
  (∀ (p crVc : Nat) (cell : CellRead) (s : State), Claims.CanSend s p → (6 ≤ crVc ∧ crVc < 8 ∨ 10 < crVc) →
    MovesCells (.slotTransmit p none crVc cell) s fun t =>
      (let x : Slot := { side := mkSide 0 0 false false 0 0 (s.ckptField p (s.txOf p).cur.length) 0, flit := 0 }
       let w := (s.txOf p).cur ++ [x]
       let n := s.rd F.portLlstatTxSeq p
       Claims.Sent s t p x ∧ (∀ k, k ≠ p → t.txOf k = s.txOf k) ∧
       (w.length < 32 → t.txOf p = { s.txOf p with cur := w } ∧ t.regs = s.regs) ∧
       (w.length = 32 → t.txOf p = { s.txOf p with cur := [], buf := (s.txOf p).buf ++ [{ seq := n, slots := w }],
                                                   lastCrc := windowCrc w, lastSeq := n } ∧
         t.rd F.portLlstatTxSeq p = (n + 1) % 65536))) ∧
  (∀ (p vc crVc : Nat) (cell : CellRead) (s : State) (o : OutPkt) (rest : List OutPkt), Claims.CanSend s p → s.dice = [] →
    cell.ecc = .clean → s.bankFenced (portQuad p) (384 + cell.bank % 64) = false → s.outqOf (16 * p + vc) = o :: rest → 0 < (s.txOf p).credits.getD vc 0 → o.sent < o.flits.length →
    o.chg.ready (16 * p + vc) ≠ 0 →
    MovesCells (.slotTransmit p (some vc) crVc cell) s fun t =>
      (let last := o.whole && !o.stomp && decide (o.sent + 1 = o.flits.length)
       let ft := if o.sent = 0 then (if last then 3 else 0) else if last then 2 else 1
       (∃ cv n r, n ≤ 15 ∧ t.out = s.out ++ Out.slot p
          { side := mkSide vc ft false true cv n (s.ckptField p (s.txOf p).cur.length) (if last then o.crc else 0),
            flit := (s.hopHeader p o).flits.getD o.sent 0 } :: r ∧ ∀ y ∈ r, ∃ l, y = .codeword p l) ∧
       (t.txOf p).credits.getD vc 0 = (s.txOf p).credits.getD vc 0 - 1 ∧
       (last = true → t.outqOf (16 * p + vc) = rest) ∧
       (last = false → ∃ o', t.outqOf (16 * p + vc) = o' :: rest ∧ o'.sent = o.sent + 1))) ∧
  (∀ (p vc crVc : Nat) (cell : CellRead) (s : State) (o : OutPkt) (rest : List OutPkt), Claims.CanSend s p → s.dice = [] →
    s.outqOf (16 * p + vc) = o :: rest → 0 < (s.txOf p).credits.getD vc 0 → o.stomp = true → o.flits.length ≤ o.sent →
    MovesCells (.slotTransmit p (some vc) crVc cell) s fun t =>
      (∃ cv n r, n ≤ 15 ∧ t.out = s.out ++ Out.slot p
          { side := mkSide vc 2 true true cv n (s.ckptField p (s.txOf p).cur.length) o.crc, flit := 0 } :: r ∧
        ∀ y ∈ r, ∃ l, y = .codeword p l) ∧
      (t.txOf p).credits.getD vc 0 = (s.txOf p).credits.getD vc 0 - 1 ∧ t.outqOf (16 * p + vc) = rest) ∧
  (∀ (p : Nat) (vc : Option Nat) (crVc : Nat) (cell : CellRead) (s : State) (x : Slot) (rest : List Slot), s.active p = true →
    (s.txOf p).askReplay = false → (s.txOf p).resend = x :: rest →
    MovesCells (.slotTransmit p vc crVc cell) s fun t =>
      Claims.Sent s t p x ∧
      t.txOf p = { s.txOf p with resend := rest } ∧ (∀ k, k ≠ p → t.txOf k = s.txOf k) ∧
      (rest = [] → t.rd F.portLlstatTxState p = 1) ∧ (rest ≠ [] → t.regs = s.regs)) ∧
  (∀ (p : Nat) (vc : Option Nat) (crVc : Nat) (cell : CellRead) (s : State), s.active p = false →
    MovesCells (.slotTransmit p vc crVc cell) s fun t => t = s) ∧
  (∀ (p crVc m : Nat) (cell : CellRead) (s : State), Claims.CanSend s p → s.memberOf p = some m → s.flag F.portIngctlHold p = true →
    crVc ∈ [0, 1, 3, 5] → MovesCells (.slotTransmit p none crVc cell) s fun t =>
      ∃ r, t.out = s.out ++ Out.slot p
          { side := mkSide 0 0 false false 0 0 (s.ckptField p (s.txOf p).cur.length) 0, flit := 0 } :: r ∧
        ∀ y ∈ r, ∃ l, y = .codeword p l)

/-- Bits of a stream of numbers below four. -/
def Sys2Proof.Claims.Levels (l : List Nat) : Prop := ∀ v ∈ l, v < 4

/-- The line of a port (11 R266): descrambling undoes scrambling from the same history, whatever the group; precoding and Gray coding are undone
level by level; a codeword's levels on four lanes give its 544 symbols back, and a message its 5,140 bits; the slots of a stream fill
codewords of 5,140 bits in turn. Where the line begins and the codes' polynomials are the model's (notes/assumptions 142). -/
def Obligations.LinesCarryCodewords : Prop :=
  (∀ g n hist bits : Nat, bits < 2 ^ (g * n) →
    descramble g n hist (scramble g n hist bits).2 = ((scramble g n hist bits).1, bits)) ∧
  (∀ (last : Nat) (l : List Nat), Claims.Levels l → unprecode last (precode last l) = l ∧ Claims.Levels (precode last l)) ∧
  (∀ v, v < 1024 → levelsSymbol (symbolLevels v) = v ∧ (symbolLevels v).length = 5 ∧ Claims.Levels (symbolLevels v)) ∧
  (∀ bits, bits < 2 ^ 5140 → symbolsMessage (rsEncode (messageSymbols bits)) = bits ∧
    isCodeword (rsEncode (messageSymbols bits)) = true ∧ ∀ v ∈ messageSymbols bits, v < 1024) ∧
  (∀ (p bits : Nat) (s : State), bits < 2 ^ 5140 → ∃ levels, (s.sendCodeword p bits).out = s.out ++ [.codeword p levels] ∧
    symbolsMessage (receivedWord ((List.range 4).map fun k => (s.lineOf p).levels.getD k 0) levels) = bits ∧
    (∃ l, s.sendCodeword p bits = { s.putLine p l with out := s.out ++ [.codeword p levels] } ∧ l.scrambler = (s.lineOf p).scrambler)) ∧
  (∀ (p : Nat) (x : Slot) (s : State),
    (let l := s.lineOf p
     let r := scramble 36 16 l.scrambler (slotBits x)
     ((s.sendSlot p x).lineOf p).scrambler = r.1 ∧
     (l.length + 576 < 5140 → (s.sendSlot p x).out = s.out ++ [.slot p x] ∧ ((s.sendSlot p x).lineOf p).length = l.length + 576 ∧
       ((s.sendSlot p x).lineOf p).message = l.message + r.2 * 2 ^ l.length) ∧
     (5140 ≤ l.length + 576 → (∃ levels, (s.sendSlot p x).out = s.out ++ [.slot p x, .codeword p levels]) ∧
       ((s.sendSlot p x).lineOf p).length = l.length + 576 - 5140)))

/-- A received slot that neither ends nor tests a window. -/
def Sys2Proof.Claims.PlainSlot (s : State) (p : Nat) : Prop :=
  s.active p = true ∧ (s.rxOf p).cur.length < 31 ∧ ((s.rxOf p).cur.length = 4 → (s.rxOf p).prev = [])

/-- The four CRC fields, WSEQ, WACK and RETRY_REQ of a window's test, in slots 0 to 6 (02 R22). -/
def Sys2Proof.Claims.slotField (w : List Slot) (i : Nat) : Nat := slotCkpt (w.getD i ⟨0, 0⟩)

/-- Slots received (02 R20, R24 to R26, R28, R33): in DISCARD a slot is only kept for its window; an idle slot of a verified window is marked
forwarded; the first flit of a packet is taken for one credit; at slot 4 the window before it is tested: verified, it hands over its
credits and its acknowledgement and the next one is expected; failed, the port discards. -/
def Sys2Proof.Claims.SlotsAreReceived : Prop :=
  (∀ (p : Nat) (x : Slot) (s : State), Claims.PlainSlot s p → s.rd F.portLlstatRxState p = 2 →
    MovesCells (.slotReceive p x) s fun t => (∃ rx, t = { s with rx := rx }) ∧ (∀ k, k ≠ p → t.rxOf k = s.rxOf k) ∧
      t.rxOf p = { s.rxOf p with cur := (s.rxOf p).cur ++ [x] }) ∧
  (∀ (p : Nat) (x : Slot) (s : State), Claims.PlainSlot s p → s.rd F.portLlstatRxState p = 1 → (s.rxOf p).tested = true →
    (s.rxOf p).winIdx ∉ (s.rxOf p).badWins → slotValid x = false →
    MovesCells (.slotReceive p x) s fun t => (∃ rx, t = { s with rx := rx }) ∧ (∀ k, k ≠ p → t.rxOf k = s.rxOf k) ∧
      t.rxOf p = { s.rxOf p with cur := (s.rxOf p).cur ++ [x],
                                 fwdCur := (s.rxOf p).fwdCur ||| ((1 : BitVec 32) <<< (s.rxOf p).cur.length) }) ∧
  (∀ (p : Nat) (x : Slot) (s : State), Claims.PlainSlot s p → s.rd F.portLlstatRxState p = 1 → (s.rxOf p).tested = true →
    (s.rxOf p).winIdx ∉ (s.rxOf p).badWins → slotValid x = true → (slotFtype x = 0 ∨ slotFtype x = 3) →
    (slotVc x < 6 ∨ 8 ≤ slotVc x ∧ slotVc x ≤ 10) → 0 < (s.vcb (16 * p + slotVc x)).credits →
    slotVc x ∉ (s.rxOf p).dropVcs → s.open? (16 * p + slotVc x) = none →
    MovesCells (.slotReceive p x) s fun t =>
      (let k := 16 * p + slotVc x
       t.inqOf k = s.inqOf k ++ [{ flits := [x.flit], ended := decide (slotFtype x = 3),
                                   crc := if slotFtype x = 3 then slotCrc x else 0, win := (s.rxOf p).winIdx }] ∧
       (∀ j, j ≠ k → t.inqOf j = s.inqOf j) ∧ (t.vcb k).credits = (s.vcb k).credits - 1 ∧ (t.vcb k).flits = (s.vcb k).flits + 1 ∧
       ∃ rx iq vb bk, t = { s with rx := rx, inq := iq, vcbuf := vb, buckets := bk })) ∧
  (∀ (p : Nat) (x : Slot) (s : State), s.active p = true → s.rd F.portLlstatRxState p = 1 → (s.rxOf p).cur.length = 4 →
    (s.rxOf p).prev ≠ [] → (s.rxOf p).badWins = [] → (∀ y ∈ (s.rxOf p).cur ++ [x], slotValid y = false) →
    (let w := (s.rxOf p).cur ++ [x]
     (windowCrc (s.rxOf p).prev).toNat = Claims.slotField w 0 + 2 ^ 16 * Claims.slotField w 1 + 2 ^ 32 * Claims.slotField w 2 + 2 ^ 48 * Claims.slotField w 3 ∧
     Claims.slotField w 4 = (s.rxOf p).expect) →
    Claims.slotField (s.rxOf p).prev 6 % 2 = 0 →
    MovesCells (.slotReceive p x) s fun t =>
      (t.rxOf p).lastOk = (s.rxOf p).expect ∧ (t.rxOf p).expect = ((s.rxOf p).expect + 1) % 65536 ∧
      (∀ v, (t.txOf p).credits.getD v 0 = (s.txOf p).credits.getD v 0 +
        (((s.rxOf p).prev.filter fun y => decide (slotCrVc y = v)).map slotCrCount).sum) ∧
      (t.txOf p).buf = (match (s.txOf p).buf.findIdx? fun w => decide (w.seq = Claims.slotField (s.rxOf p).prev 5) with
        | some i => (s.txOf p).buf.drop (i + 1)
        | none => (s.txOf p).buf) ∧ t.rd F.portLlstatRxState p = 1) ∧
  (∀ (p : Nat) (x : Slot) (s : State), s.active p = true → s.rd F.portLlstatRxState p = 1 → (s.rxOf p).cur.length = 4 →
    (s.rxOf p).prev ≠ [] → (∀ vc, vc < 11 → segments (s.rxOf p).prev (s.rxOf p).fwdPrev vc = []) →
    (let w := (s.rxOf p).cur ++ [x]
     (windowCrc (s.rxOf p).prev).toNat ≠ Claims.slotField w 0 + 2 ^ 16 * Claims.slotField w 1 + 2 ^ 32 * Claims.slotField w 2 + 2 ^ 48 * Claims.slotField w 3) →
    MovesCells (.slotReceive p x) s fun t => t.rd F.portLlstatRxState p = 2 ∧ (t.rxOf p).lastOk = (s.rxOf p).lastOk ∧
      (t.rxOf p).expect = (s.rxOf p).expect ∧ t.inq = s.inq ∧ t.tx = s.tx)

/-- Retry and codewords (02 R27, R30; 11 R266, R276, R286): the retry timer starts a replay of every retained window, counted in REPLAYS;
sixteen good codewords in a row end LOCK and a bad one starts the count again; in ACTIVE a codeword is counted in the histogram, its symbols lane by lane. -/
def Sys2Proof.Claims.RetryAndCodewords : Prop :=
  (∀ (p : Nat) (s : State), s.active p = true → s.dice = [] → (s.txOf p).buf ≠ [] → (∀ w ∈ (s.txOf p).buf, w.slots ≠ []) →
    s.rd F.portLlstatTxState p = 1 →
    (let t := s.txOf p
     let n := if t.replayFrom = (t.buf.head?).map (·.seq) then s.rd F.portLlstatReplays p + 1 else 1
     n ≤ s.retryLimit p →
     Does (.retryTimerExpire p) s fun u => u.rd F.portLlstatTxState p = 2 ∧ u.rd F.portLlstatReplays p = Nat.min n 15 ∧
       (u.txOf p).buf = t.buf ∧ (∀ k, k ≠ p → u.txOf k = s.txOf k) ∧
       (t.cur = [] → (u.txOf p).resend = t.buf.flatMap (·.slots)) ∧ (t.cur ≠ [] → (u.txOf p).askReplay = true) ∧
       ∃ tx rg lc, u = { s with tx := tx, regs := rg, linkCnt := lc })) ∧
  (∀ (p a b c d : Nat) (s : State), s.stage p = Stage.lock → a + b + c + d ≤ 15 →
    Does (.codewordReceive p (.corrected a b c d)) s fun t =>
      (t.rxOf p).lockRun = (s.rxOf p).lockRun + 1 ∧
      t.stage p = (if 16 ≤ (s.rxOf p).lockRun + 1 then Stage.caps else Stage.lock) ∧
      ((s.rxOf p).lockRun + 1 < 16 → ∃ rx, t = { s with rx := rx })) ∧
  (∀ (p : Nat) (cw : Codeword) (s : State), s.stage p = Stage.lock →
    (cw = .uncorrectable ∨ ∃ a b c d, cw = .corrected a b c d ∧ 15 < a + b + c + d) →
    Does (.codewordReceive p cw) s fun t => (t.rxOf p).lockRun = 0 ∧ (∃ rx, t = { s with rx := rx }) ∧
      ∀ k, k ≠ p → t.rxOf k = s.rxOf k) ∧
  (∀ (p a b c d : Nat) (s : State), s.active p = true →
    Does (.codewordReceive p (.corrected a b c d)) s fun t =>
      (let n := Nat.min 15 (a + b + c + d)
       let up (f : Fld) (k m : Nat) : Prop := t.rd f m = Nat.min (s.rd f m + k) (2 ^ 48 - 1)
       up F.laneFechistCount 1 (17 * p + n) ∧ up F.laneSymerrCount a (4 * p) ∧ up F.laneSymerrCount b (4 * p + 1) ∧
       up F.laneSymerrCount c (4 * p + 2) ∧ up F.laneSymerrCount d (4 * p + 3) ∧
       (∀ m, m < 17 → m ≠ n → t.rd F.laneFechistCount (17 * p + m) = s.rd F.laneFechistCount (17 * p + m)) ∧
       (t.rxOf p).uncorrRun = 0 ∧ (t.rxOf p).cwIdx = (s.rxOf p).cwIdx + 1 ∧ ∃ rx rg, t = { s with rx := rx, regs := rg })) ∧
  (∀ (p : Nat) (s : State), s.active p = true → s.dice = [] → s.rd F.portLlstatRxState p = 2 → (s.rxOf p).uncorrRun < 3 →
    (s.rxOf p).uncorrAt.length < 15 →
    Does (.codewordReceive p .uncorrectable) s fun t =>
      t.rd F.laneFechistCount (17 * p + 16) = Nat.min (s.rd F.laneFechistCount (17 * p + 16) + 1) (2 ^ 48 - 1) ∧
      (t.rxOf p).uncorrRun = (s.rxOf p).uncorrRun + 1 ∧ ∃ rx rg, t = { s with rx := rx, regs := rg })

/-! ### Serial lanes (11) -/

/-- The outcome of a port is told: the first time under a plan as its roll-call outcome, later as a change of the link (14 R341). -/
def Sys2Proof.Claims.Told (s t : State) (p : Nat) (o : Outcome341) (far : Nat) (up : Bool) : Prop :=
  ∃ n, Out.report (if (s.port p).reported then .linkEvent s.self p up else .rollcall s.self p o far) n ∈ t.out

/-- A port begins TRAIN: no wait, coefficients kept for short training and P3 otherwise (11 R268, R272, R273). -/
def Sys2Proof.Claims.Training (s t : State) (p : Nat) (short : Bool) : Prop :=
  t.stage p = Stage.train ∧ (t.port p).wait = .none ∧ (t.port p).shortNow = short ∧
  ∀ k, k < 4 → (t.lane (4 * p + k)).pre = (if short then (s.lane (4 * p + k)).pre else -4) ∧
    (t.lane (4 * p + k)).post = (if short then (s.lane (4 * p + k)).post else -8) ∧
    (t.lane (4 * p + k)).ownReady = false ∧ (t.lane (4 * p + k)).farReady = 0 ∧ (t.lane (4 * p + k)).seen = false

/-- The commands that only change a port's bring-up: its registers, its port and lane records. -/
def Sys2Proof.Claims.OnlyBringUp (s t : State) : Prop := ∃ rg po la, t = { s with regs := rg, ports := po, lanes := la }

/-- The stages before LOCK (11 R268, R269, R273, R283): far terminations on all four lanes end DETECT, ten milliseconds of it are reported as
no peer; short training that runs out is followed by full training; the wait after a failure ends in TRAIN; a port leaves DEEP for DETECT. -/
def Sys2Proof.Claims.PortsComeUp : Prop :=
  (∀ (p : Nat) (s : State), s.stage p = Stage.detect →
    Does (.receiverDetect p 15) s fun t => Claims.Training s t p (s.port p).shortOk ∧ Claims.OnlyBringUp s t) ∧
  (∀ (p : Nat) (seen : BitVec 4) (s : State), seen ≠ 15 → exec (.receiverDetect p seen) s = .next s) ∧
  (∀ (p : Nat) (s : State), s.stage p = Stage.detect → (s.port p).noPeer = false →
    Does (.noPeer p) s fun t => t.rd F.laneStatFailCode p = 1 ∧ (t.port p).noPeer = true ∧ t.stage p = Stage.detect ∧
      Claims.Told s t p .missing 0 false) ∧
  (∀ (p : Nat) (s : State), s.stage p = Stage.train → (s.port p).wait = .none → (s.port p).shortNow = true →
    Does (.trainTimeout p) s fun t => Claims.Training s t p false ∧ Claims.OnlyBringUp s t) ∧
  (∀ (p : Nat) (s : State), s.stage p = Stage.train → (s.port p).wait ≠ .none →
    Does (.bringupWaitExpire p) s fun t => Claims.Training s t p (s.port p).shortOk ∧ Claims.OnlyBringUp s t) ∧
  (∀ (p : Nat) (s : State), s.stage p = Stage.deep → s.flag F.laneCtlDeep p = false →
    Does (.deepExitRelock p) s fun t => t.stage p = Stage.detect ∧ (t.port p).shortOk = true ∧ Claims.OnlyBringUp s t) ∧
  (∀ (p : Nat) (s : State), s.stage p = Stage.deep → s.portPlan p = none →
    Does (.qUnusedPort p) s fun t => t.rd F.laneStatHoldCode p = 4 ∧ t.stage p = Stage.deep ∧ Claims.Told s t p .unusedPeer 0 false)

/-- A failure in TRAIN, LOCK or CAPS counts in FAILS, leaves its code, and has the port wait at TRAIN, 1 ms, or 1 s from BRINGUP_LIMIT failures
on; the failure that reaches the limit is reported (11 R268, R269, R276). -/
def Sys2Proof.Claims.BringUpFailures : Prop :=
  ∀ e ∈ ([(Instr.trainTimeout, 2, fun s p => s.stage p = Stage.train ∧ (s.port p).wait = .none ∧ (s.port p).shortNow = false),
          (Instr.cwLock, 5, fun s p => s.stage p = Stage.lock),
          (Instr.capsTimeout, 6, fun s p => s.stage p = Stage.caps ∧ (s.port p).capsRun = 0)] :
      List ((Nat → Instr) × Nat × (State → Nat → Prop))),
    ∀ (p : Nat) (s : State), e.2.2 s p →
    (let n := Nat.min (s.rd F.laneStatFails p + 1) 127
     Does (e.1 p) s fun t =>
       t.rd F.laneStatFails p = n ∧ t.rd F.laneStatFailCode p = e.2.1 ∧ t.stage p = Stage.train ∧
       (t.port p).wait = (if s.bringupLimit p ≤ n then .s1 else .ms1) ∧ (t.port p).fails = (s.port p).fails + 1 ∧
       (n = s.bringupLimit p → Claims.Told s t p .failed 0 false) ∧ (n ≠ s.bringupLimit p → Claims.OnlyBringUp s t))

/-- A training word with a good CRC from a lane already seen, in place and without skew. -/
def Sys2Proof.Claims.GoodFrame (s : State) (p k : Nat) (w : BitVec 64) (x : TrainSense) : Prop :=
  k < 4 ∧ s.stage p = Stage.train ∧ (s.port p).wait = .none ∧ (trainCrc w).toNat = bitsOf w 56 8 ∧ bitsOf w 0 2 = k ∧
  x.skewBad = false ∧ ∀ j, j < 4 → (s.lane (4 * p + j)).seen = true ∧ (s.lane (4 * p + j)).farLane = j

/-- Training (11 R267, R271, R272, R274): a word with a wrong CRC only shows a signal; a good one is answered once per SEQ, by a preset's
coefficients or by the step asked for within the range, and the lane's next word goes out; when all four lanes are ready at both ends the port locks. -/
def Sys2Proof.Claims.TrainingFrames : Prop :=
  (∀ (p k : Nat) (w : BitVec 64) (x : TrainSense) (s : State), k < 4 → s.stage p = Stage.train → (s.port p).wait = .none →
    (trainCrc w).toNat ≠ bitsOf w 56 8 →
    Does (.trainingFrameReceive p k w x) s fun t => (∃ la, t = { s with lanes := la }) ∧
      t.lane (4 * p + k) = { s.lane (4 * p + k) with signal := true } ∧ ∀ l, l ≠ 4 * p + k → t.lane l = s.lane l) ∧
  (∀ (p k : Nat) (w : BitVec 64) (x : TrainSense) (s : State), Claims.GoodFrame s p k w x →
    Does (.trainingFrameReceive p k w x) s fun t =>
      (let y := s.lane (4 * p + k)
       let z := t.lane (4 * p + k)
       t.rd F.laneStatPolInv p / 2 ^ k % 2 = (if x.inverted then 1 else 0) ∧
       z.ctle = x.ctle ∧ z.dfe = x.dfe ∧ z.ownReady = (y.ownReady || x.adapted) ∧ z.answered = true ∧ z.ackSeq = bitsOf w 32 8 ∧
       (bitsOf w 10 1 = 0 → z.farReady = 0 ∧ t.stage p = Stage.train) ∧
       (y.answered = true ∧ y.ackSeq = bitsOf w 32 8 → z.pre = y.pre ∧ z.post = y.post) ∧
       (¬(y.answered = true ∧ y.ackSeq = bitsOf w 32 8) →
         (∀ a b, presetOf (bitsOf w 6 3) = some (a, b) → z.pre = a ∧ z.post = b ∧ z.stPre = 1 ∧ z.stPost = 1) ∧
         (bitsOf w 6 3 ≠ 0 → presetOf (bitsOf w 6 3) = none → z.pre = y.pre ∧ z.post = y.post ∧ z.stPre = 3 ∧ z.stPost = 3) ∧
         (bitsOf w 6 3 = 0 → bitsOf w 2 2 = 1 → coeffOk (y.pre + 1) y.post = true → z.pre = y.pre + 1 ∧ z.stPre = 1) ∧
         (bitsOf w 6 3 = 0 → bitsOf w 2 2 = 1 → coeffOk (y.pre + 1) y.post = false → z.pre = y.pre ∧ z.stPre = 2) ∧
         (bitsOf w 6 3 = 0 → bitsOf w 2 2 = 3 → z.pre = y.pre ∧ z.stPre = 3)) ∧
       (∃ v, t.out = s.out ++ [.trainWord p k v]) ∧
       ∀ l, l ≠ 4 * p + k → t.lane l = s.lane l)) ∧
  (∀ (p k : Nat) (w : BitVec 64) (x : TrainSense) (s : State), Claims.GoodFrame s p k w x → bitsOf w 10 1 = 1 →
    (∀ j, j < 4 → (s.lane (4 * p + j)).ownReady = true ∧ (s.lane (4 * p + j)).farReady = 2) →
    Does (.trainingFrameReceive p k w x) s fun t =>
      t.stage p = (if s.rd F.laneCtlTest p = 0 then Stage.lock else Stage.test) ∧ (t.rxOf p).lockRun = 0)

/-- The capability exchange (11 R277 to R280): a block with a wrong magic or CRC counts for nothing; the first two blocks alike are answered
by this module's own; from the third on a block that the plan does not assign holds the port, and one that matches is acknowledged, until
both sides say go and the port is ACTIVE with windows from 0. -/
def Sys2Proof.Claims.CapabilityExchange : Prop :=
  (∀ (p : Nat) (b : Flit) (s : State), s.stage p = Stage.caps → capsValid b = false →
    Does (.capsBlockReceive p b) s fun t => (∃ po, t = { s with ports := po }) ∧ (t.port p).capsRun ≤ 1 ∧ (t.port p).capsLast = 0) ∧
  (∀ (p : Nat) (b : Flit) (s : State), s.stage p = Stage.caps → capsValid b = true →
    (capsCore b ≠ capsCore (s.port p).capsLast ∨ (s.port p).capsRun < 2) →
    Does (.capsBlockReceive p b) s fun t => (∃ po, t = { s.sendCapsBlock p (s.capsBlock p) with ports := po }) ∧
      (∃ l, t.out = s.out ++ [.caps p (s.capsBlock p), .codeword p l]) ∧
      (t.port p).capsLast = b) ∧
  (∀ (p : Nat) (b : Flit) (s : State), s.stage p = Stage.caps → capsValid b = true → capsCore b = capsCore (s.port p).capsLast →
    2 ≤ (s.port p).capsRun → capsField b 6 1 = 4 → s.capsHold p b ≠ 0 → s.rd F.laneStatHoldCode p ≠ s.capsHold p b →
    Does (.capsBlockReceive p b) s fun t => t.rd F.laneStatHoldCode p = s.capsHold p b ∧ t.stage p = Stage.caps ∧
      (t.port p).ack = false ∧ (t.port p).go = false ∧
      Claims.Told s t p (match s.capsHold p b with | 1 => .unexpected | 2 => .wrongPort | 3 => .planMismatch | _ => .unusedPeer)
        (capsFound b) false) ∧
  (∀ (p : Nat) (b : Flit) (s : State), s.stage p = Stage.caps → capsValid b = true → capsCore b = capsCore (s.port p).capsLast →
    2 ≤ (s.port p).capsRun → capsField b 6 1 = 4 → s.capsHold p b = 0 → capsField b 5 1 / 8 % 2 = 0 →
    (let farAck := decide (capsField b 5 1 / 2 % 2 = 1)
     let farGo := decide (capsField b 5 1 / 4 % 2 = 1)
     let go := (s.port p).go || ((s.port p).ack && farAck)
     Does (.capsBlockReceive p b) s fun t => (t.port p).ack = true ∧ (t.port p).go = go ∧ t.rd F.laneStatHoldCode p = 0 ∧
       (go = false ∨ farGo = false → t.stage p = Stage.caps) ∧
       (go = true → farGo = true → t.stage p = Stage.active ∧ t.rd F.laneStatFails p = 0 ∧ t.rd F.portLlstatTxState p = 1 ∧
         t.rd F.portLlstatRxState p = 1 ∧ t.rd F.portLlstatTxSeq p = 0 ∧ t.txOf p = {} ∧ t.rxOf p = {} ∧
         (t.port p).shortOk = true ∧ (t.port p).bringups = (s.port p).bringups + 1 ∧
         Claims.Told s t p .expected (capsField b 8 2) true)))

/-- Loss of signal ends TRAIN (once a signal was seen), LOCK, CAPS and ACTIVE in DETECT, with code 9 (11 R269, R282); three intervals in a
row with too many corrected symbols are recorded, fewer are not (11 R282). -/
def Sys2Proof.Claims.LanesLoseTheirLink : Prop :=
  (∀ (p k : Nat) (s : State), k < 4 → (s.port p).wait = .none →
    (s.stage p = Stage.lock ∨ s.stage p = Stage.caps ∨ (s.stage p = Stage.train ∧ (s.lane (4 * p + k)).signal = true)) →
    Does (.los p k) s fun t => t.stage p = Stage.detect ∧ t.rd F.laneStatFailCode p = 9 ∧ (t.port p).noPeer = false ∧
      Claims.OnlyBringUp s t) ∧
  (∀ (p k : Nat) (s : State), k < 4 → s.stage p = Stage.active → (s.port p).wait = .none →
    Does (.los p k) s fun t => t.stage p = Stage.detect ∧ t.rd F.laneStatFailCode p = 9 ∧ s.rseq ≤ t.rseq ∧
      t.rd F.portLlstatTxState p = 0 ∧ t.rd F.portLlstatRxState p = 0 ∧ (t.txOf p) = {} ∧ Claims.Told s t p .missing 0 false) ∧
  (∀ (p c n : Nat) (s : State), s.stage p = Stage.active → s.dice = [] →
    (c ^ 10 * 10 ^ s.rd F.laneCtlDegrade p ≤ n ^ 10 →
      Does (.fecDegrade p c n) s fun t => (t.rxOf p).degradeRun = 0 ∧ ∃ rx, t = { s with rx := rx }) ∧
    (n ^ 10 < c ^ 10 * 10 ^ s.rd F.laneCtlDegrade p → (s.rxOf p).degradeRun < 2 →
      Does (.fecDegrade p c n) s fun t => (t.rxOf p).degradeRun = (s.rxOf p).degradeRun + 1 ∧ ∃ rx, t = { s with rx := rx }) ∧
    (n ^ 10 < c ^ 10 * 10 ^ s.rd F.laneCtlDegrade p → 2 ≤ (s.rxOf p).degradeRun →
      Does (.fecDegrade p c n) s fun t => (t.rxOf p).degradeRun = 0 ∧
        ∃ rx, t = ({ s with rx := rx } : State).raise E.fecDegrade (4 * p)))

/-- Lane measurement (11 R284, R286, R288): CLR zeroes a port's error and codeword counters and nothing else; a SNAPSHOT falls due after 7,200
tenths of an hour and is asked of the ledger; the PRBS checker counts the bits that differ from its own sequence. -/
def Sys2Proof.Claims.LaneMeasurement : Prop :=
  (∀ (p : Nat) (s : State), p < 144 → Does (.laneCounterClear p) s fun t =>
    (∀ k, k < 4 → t.rd F.lanePrbserrErrors (4 * p + k) = 0 ∧ t.rd F.laneSymerrCount (4 * p + k) = 0) ∧
    (∀ k, k < 17 → t.rd F.laneFechistCount (17 * p + k) = 0) ∧
    (∀ r j, j < 2 ^ 20 → r ∉ [Reg.lanePrbserr, .laneSymerr, .laneFechist] → t.reg r j = s.reg r j) ∧
    (∀ j, j < 2 ^ 20 → j / 4 ≠ p → t.reg .lanePrbserr j = s.reg .lanePrbserr j ∧ t.reg .laneSymerr j = s.reg .laneSymerr j) ∧
    (∀ j, j < 2 ^ 20 → j / 17 ≠ p → t.reg .laneFechist j = s.reg .laneFechist j) ∧ ∃ rg, t = { s with regs := rg }) ∧
  (∀ (l eye : Nat) (s : State), (s.lane l).hours < (s.lane l).snapHours + 7200 → exec (.laneSnapshot l eye) s = .next s) ∧
  (∀ (l eye : Nat) (s : State), (s.lane l).snapHours + 7200 ≤ (s.lane l).hours →
    (s.ledger.laneBase.getD l emptyLaneRec).kind ≠ 1 →
    Does (.laneSnapshot l eye) s fun t => (t.lane l).snapHours = (s.lane l).hours ∧
      t.ledger.queue = s.ledger.queue ++ [{ type := 4, key := l, payload := laneBytes l (s.laneRec l 2 eye) }] ∧
      t.ledger.lanes.getD l emptyLaneRec = s.laneRec l 2 eye) ∧
  (∀ (l : Nat) (bits : List Bool) (s : State), s.stage (l / 4) = Stage.test → s.rd F.laneCtlTest (l / 4) ≠ 0 →
    Does (.prbsCheck l bits) s fun t =>
      (let m := s.rd F.laneCtlTest (l / 4)
       let len := if m = 1 then 7 else if m = 2 then 13 else 31
       let r := prbsRun (prbsTaps m) len (s.lane l).prbs bits
       (t.lane l).prbs = r.1 ∧ t.rd F.lanePrbserrErrors l = Nat.min (s.rd F.lanePrbserrErrors l + r.2) (2 ^ 48 - 1) ∧
       t.rd F.lanePrbserrSync l = (if len ≤ r.1.length then 1 else 0) ∧ ∃ rg la, t = { s with regs := rg, lanes := la }))

/-! ### Packets through the module (02, 03, 04) -/

/-- The front packet of an input queue, its head come and not yet decided. -/
def Sys2Proof.Claims.HeadWaits (s : State) (k : Nat) (p : InPkt) (rest : List InPkt) : Prop :=
  s.inqOf k = p :: rest ∧ p.route = .undecided ∧ p.flits ≠ []

/-- All checks of 02 R51 and 04 R95 that the head meets here hold, and no die is loaded. -/
def Sys2Proof.Claims.HeadGood (s : State) (port : Nat) (h : Flit) : Prop :=
  s.dice = [] ∧ ∀ e ∈ s.checksOf port h, e.2.2 = false

/-- What a packet in a queue is, apart from the cells it holds. -/
def Sys2Proof.Claims.bare (o : OutPkt) : OutPkt := { o with chg := {} }

/-- The packets of an output queue, apart from the cells they hold. -/
def Sys2Proof.Claims.queue (s : State) (k : Nat) : List OutPkt := (s.outqOf k).map Claims.bare

/-- The packets that have come for the module's own units, with the quadrant and the unit. -/
def Sys2Proof.Claims.localPkts (s : State) : List (Packet × Nat × Nat) := s.local_.map fun l => (l.pkt, l.quad, l.core)

/-- No more flits have come than the header's LEN announces, its tail aside. -/
def Sys2Proof.Claims.NotTooLong (p : InPkt) (h : Flit) : Prop := p.ended = false ∧ (p.flits.length = 1 ∨ p.flits.length ≤ hget h H.len)

/-- Heads (02 R51; 03 R55 to R66, R70; 04 R95): a head that fails a check is discarded, recorded, and goes nowhere; one in transit joins
the queue of the output its route names, marked with its input; at its ingress edge it also takes the flow's next FLOW_SEQ and opens a
replay entry; without room in its flow it waits. -/
def Sys2Proof.Claims.PacketHeads : Prop :=
  (∀ (port vc : Nat) (s : State) (p : InPkt) (rest : List InPkt), Claims.HeadWaits s (16 * port + vc) p rest → s.dice = [] →
    (∃ e ∈ s.checksOf port p.hdr, e.2.2 = true) →
    Settles (.headReceive port vc) s fun t => t.inqOf (16 * port + vc) = { p with route := .discard } :: rest ∧ t.outq = s.outq ∧
      t.inFlows = s.inFlows ∧ t.local_ = s.local_ ∧ s.rseq ≤ t.rseq) ∧
  (∀ (port vc po vo : Nat) (s : State) (p : InPkt) (rest : List InPkt), Claims.HeadWaits s (16 * port + vc) p rest →
    Claims.HeadGood s port p.hdr → s.isMemberPort port = false → vc < 16 →
    (s.routeOf p.hdr port (some vc) false).1.route = .forward po vo →
    (let d := (s.routeOf p.hdr port (some vc) false).1
     Claims.NotTooLong p d.hdr →
     Settles (.headReceive port vc) s fun t =>
       t.inqOf (16 * port + vc) = { p with flits := d.hdr :: p.flits.drop 1, route := .forward po vo, flow := none } :: rest ∧
       Claims.queue t (16 * po + vo) = Claims.queue s (16 * po + vo) ++
         [{ flits := d.hdr :: p.flits.drop 1, gen := port, src := some (16 * port + vc) }] ∧
       (∀ j, j ≠ 16 * po + vo → Claims.queue t j = Claims.queue s j) ∧ t.inFlows = s.inFlows)) ∧
  (∀ (port vc po vo : Nat) (s : State) (p : InPkt) (rest : List InPkt), Claims.HeadWaits s (16 * port + vc) p rest →
    Claims.HeadGood s port p.hdr → s.isMemberPort port = true → vc < 16 → hget p.hdr H.ptype ≠ PT.gate →
    (hget p.hdr H.dmod = 0 → hget p.hdr H.mcast = 0 → s.epFenced (hget p.hdr H.dst) = false) →
    (let fk := flowKey (flowOf p.hdr)
     let seq := (s.inFlow fk).givenBack.headD (s.inFlow fk).next
     let h := hset (hsets p.hdr [(H.hops, 0), (H.esc, 0), (H.spray, 0), (H.flowSeq, 0)]) H.flowSeq seq
     let d := (s.routeOf h port none true).1
     s.flowRoom fk (port / 36) (hget p.hdr H.len + 1) = true → d.route = .forward po vo → Claims.NotTooLong p d.hdr →
     Settles (.headReceive port vc) s fun t =>
       (∃ r ∈ (t.inFlow fk).entries, r.seq = seq ∧ r.complete = false ∧ r.gen = port ∧ r.pkt.hdr = h) ∧
       (t.inFlow fk).next = (if (s.inFlow fk).givenBack = [] then ((s.inFlow fk).next + 1) % 65536 else (s.inFlow fk).next) ∧
       t.inqOf (16 * port + vc) = { p with flits := d.hdr :: p.flits.drop 1, route := .forward po vo, flow := some (fk, seq) } :: rest ∧
       Claims.queue t (16 * po + vo) = Claims.queue s (16 * po + vo) ++
         [{ flits := d.hdr :: p.flits.drop 1, gen := port, src := some (16 * port + vc), flow := some (fk, seq) }])) ∧
  (∀ (port vc : Nat) (s : State) (p : InPkt) (rest : List InPkt), Claims.HeadWaits s (16 * port + vc) p rest →
    Claims.HeadGood s port p.hdr → s.isMemberPort port = true → hget p.hdr H.ptype ≠ PT.gate → sequenced p.hdr = true →
    (hget p.hdr H.dmod = 0 → hget p.hdr H.mcast = 0 → s.epFenced (hget p.hdr H.dst) = false) →
    s.flowRoom (flowKey (flowOf p.hdr)) (port / 36) (hget p.hdr H.len + 1) = false →
    exec (.headReceive port vc) s = .next s.settle)

/-- The front packet has its tail and a decided head. -/
def Sys2Proof.Claims.TailCame (s : State) (k : Nat) (p : InPkt) (rest : List InPkt) : Prop :=
  s.inqOf k = p :: rest ∧ p.ended = true ∧ p.route ≠ .undecided

/-- Tails (02 R38 to R43; 03 R71): a discarded packet is gone with its tail; a good one on its way out is whole at its output; one whose
E2E_CRC fails in transit leaves, if its head has left, with a stomped tail of cause 4 in place of its own, and is gone if not; the packet
a flow expects is handed over in its order and the flow expects the next. -/
def Sys2Proof.Claims.PacketTails : Prop :=
  (∀ (port vc : Nat) (held : List (Nat × CellRead)) (s : State) (p : InPkt) (rest : List InPkt),
    Claims.TailCame s (16 * port + vc) p rest →
    p.route = .discard → Settles (.tailReceive port vc held) s fun t =>
      t.inqOf (16 * port + vc) = rest ∧ ∃ iq, t = { s with inq := iq }) ∧
  (∀ (port vc po vo : Nat) (held : List (Nat × CellRead)) (s : State) (p : InPkt) (rest : List InPkt) (o : OutPkt) (os : List OutPkt),
    Claims.TailCame s (16 * port + vc) p rest → p.route = .forward po vo → p.broken = 0 → p.stomp = false → s.dice = [] →
    p.flits.length = hget p.hdr H.len + 1 → p.crc = e2eCrc p.hdr (p.flits.drop 1) →
    s.outqOf (16 * po + vo) = o :: os → o.src = some (16 * port + vc) → o.whole = false →
    Settles (.tailReceive port vc held) s fun t => t.inqOf (16 * port + vc) = rest ∧
      Claims.queue t (16 * po + vo) =
        Claims.bare { o with flits := o.flits ++ [p.flits.getLastD 0], whole := true, crc := p.crc, win := p.win } ::
          os.map Claims.bare) ∧
  (∀ (port vc po vo : Nat) (held : List (Nat × CellRead)) (s : State) (p : InPkt) (rest : List InPkt) (o : OutPkt) (os : List OutPkt),
    Claims.TailCame s (16 * port + vc) p rest → p.route = .forward po vo → p.broken = 0 → p.stomp = false →
    vc < 16 → s.isMemberPort port = false → p.flits.length = hget p.hdr H.len + 1 → p.crc ≠ e2eCrc p.hdr (p.flits.drop 1) →
    s.outqOf (16 * po + vo) = o :: os → o.src = some (16 * port + vc) → o.whole = false →
    Settles (.tailReceive port vc held) s fun t => t.inqOf (16 * port + vc) = rest ∧ s.rseq ≤ t.rseq ∧
      t.outqOf (16 * po + vo) =
        (if 0 < o.sent then [{ o with stomp := true, whole := true, crc := stompRecord 4 port s.self }] else []) ++ os) ∧
  (∀ (port vc : Nat) (held : List (Nat × CellRead)) (s : State) (p : InPkt) (rest : List InPkt),
    Claims.TailCame s (16 * port + vc) p rest → p.route = .local_ → p.flow = none → p.stomp = false → s.dice = [] →
    s.isMemberPort port = false → p.flits.length = hget p.hdr H.len + 1 → p.crc = e2eCrc p.hdr (p.flits.drop 1) →
    sequenced p.hdr = true → hget p.hdr H.mcast = 0 → hget p.hdr H.dmod = 1 →
    (let k := flowKey (flowOf p.hdr)
     let e := s.egFlow k
     hget p.hdr H.flowSeq = e.expect → e.held = [] → e.sinceAck < 31 → (e.expect + 1) % 65536 ∉ e.dropped →
     Settles (.tailReceive port vc held) s fun t => t.inqOf (16 * port + vc) = rest ∧
       Claims.localPkts t = Claims.localPkts s ++ [({ hdr := p.hdr, pay := p.flits.drop 1, crc := p.crc }, s.consumer p.hdr)] ∧
       (t.egFlow k).expect = (e.expect + 1) % 65536 ∧ (t.egFlow k).sinceAck = e.sinceAck + 1 ∧ ∀ j, j ≠ k → t.egFlow j = s.egFlow j))

/-- ESCAPE_MOVE (03 R67, R68): the oldest packet of a class queue whose head has not left, and which has an escape route, is
taken off the queue and waits with ESC set on the escape VC its route names; a packet already on an escape VC stays. -/
def Sys2Proof.Claims.EscapeMoves : Prop :=
  (∀ (port vc po vo : Nat) (s : State) (pre : List OutPkt) (o : OutPkt) (rest : List OutPkt), vc < 8 → vo < 16 →
    s.outqOf (16 * port + vc) = pre ++ o :: rest → (∀ x ∈ pre, x.sent ≠ 0 ∨ x.flits = []) →
    o.sent = 0 → o.flits ≠ [] →
    (let d := (s.escapeRoute (o.flits.headD 0) o.gen (o.src.map fun x => x % 16)).1
     d.route = .forward po vo →
     Settles (.escapeMove port vc) s fun t => Claims.queue t (16 * port + vc) = (pre ++ rest).map Claims.bare ∧
       Claims.queue t (16 * po + vo) = Claims.queue s (16 * po + vo) ++ [Claims.bare { o with flits := d.hdr :: o.flits.drop 1 }] ∧
       hget d.hdr H.esc = 1 ∧ 8 ≤ vo)) ∧
  (∀ (port vc : Nat) (s : State), 8 ≤ vc → exec (.escapeMove port vc) s = .next s.settle)

/-- The packet that a unit's command takes: the first of those it accepts all of whose flits are at the unit and before which no packet of the
same flow waits (03 R461); its cells are free again. -/
def Sys2Proof.Claims.UnitsTakeTheFirst : Prop :=
  (∀ (s : State) (t : Flit → Bool) (pre : List LocalPkt) (l : LocalPkt) (post : List LocalPkt), s.local_ = pre ++ l :: post →
    t l.pkt.hdr = true → l.chg.due = 0 → l.chg.near = 0 →
    (∀ e ∈ pre, (t e.pkt.hdr = false ∨ e.chg.due ≠ 0 ∨ e.chg.near ≠ 0) ∧
      (sequenced e.pkt.hdr = false ∨ hget e.pkt.hdr H.tc ≠ hget l.pkt.hdr H.tc ∨ flowOf e.pkt.hdr ≠ flowOf l.pkt.hdr)) →
    s.takeLocal t = some (l.pkt, l.quad, ({ s with local_ := pre ++ post } : State).freeLocal l)) ∧
  (∀ (s : State) (t : Flit → Bool), (∀ l ∈ s.local_, t l.pkt.hdr = false ∨ l.chg.due ≠ 0 ∨ l.chg.near ≠ 0) → s.takeLocal t = none)

/-- The acknowledgement commands of the edges (03 R71, R78): an ACK that is due carries the last sequence delivered in order; one that is
received frees a unicast flow's entries up to its ASEQ, or merges the leaf statuses of a cast, whose entry is free once no leaf is open. -/
def Sys2Proof.Claims.Acknowledgements : Prop :=
  Claims.UnitsTakeTheFirst ∧
  (∀ (f : FlowId) (s : State), f.cast = 0 → 0 < (s.egFlow (flowKey f)).sinceAck →
    Does (.ackDelayExpire f) s fun t =>
      (let k := flowKey f
       let aseq := ((s.egFlow k).expect + 65535) % 65536
       let p := mkPacketF (s.e2eHdr (keyFlow k) PT.e2eAck (ingressModule (keyFlow k)) true aseq) []
       t.egFlow k = { s.egFlow k with sinceAck := 0, acked := aseq } ∧ (∀ j, j ≠ k → t.egFlow j = s.egFlow j) ∧
       (hget p.hdr H.dst = s.self → Claims.localPkts t = Claims.localPkts s ++ [(p, s.consumer p.hdr)]))) ∧
  (∀ (f : FlowId) (s : State), (s.egFlow (flowKey f)).sinceAck = 0 → exec (.ackDelayExpire f) s = .next s) ∧
  (∀ (s v : State) (p : Packet) (q : Nat), s.takeLocal (isType PT.e2eAck) = some (p, q, v) → hget p.hdr H.kind = 0 →
    Settles .e2eAckReceive s fun t =>
      (let k := flowKey (flowNamed s p.hdr)
       t.local_ = v.local_ ∧
       (t.inFlow k).entries = ((s.inFlow k).entries.filter fun r => !seqLe r.seq (hget p.hdr H.aseq)) ∧
       (∀ j, j ≠ k → t.inFlow j = s.inFlow j) ∧
       t.unitEvents = s.unitEvents ++ (((s.inFlow k).entries.filter fun r => seqLe r.seq (hget p.hdr H.aseq) && decide (r.origin ≠ .endpoint)).map
         fun r => { origin := r.origin, hdr := r.pkt.hdr, ok := true, leaf := 0, ue := false }))) ∧
  (∀ (s v : State) (p : Packet) (q : Nat) (r : Replay), s.takeLocal (isType PT.e2eAck) = some (p, q, v) → hget p.hdr H.kind ≠ 0 →
    (let k := flowKey (flowNamed s p.hdr)
     let aseq := hget p.hdr H.aseq
     s.entry? k aseq = some r →
     Settles .e2eAckReceive s fun t => (∀ j, j ≠ k → t.inFlow j = s.inFlow j) ∧ ∃ merged : Nat,
       (∀ i, i < 32 → merged / 4 ^ i % 4 = if r.leaf / 4 ^ i % 4 = 0 then hget p.hdr H.leafStatus / 4 ^ i % 4 else r.leaf / 4 ^ i % 4) ∧
       (maskLeft (castMask r.pkt.hdr) merged ≠ 0 → t.entry? k aseq = some { r with leaf := merged } ∧ t.unitEvents = s.unitEvents) ∧
       (maskLeft (castMask r.pkt.hdr) merged = 0 → t.entry? k aseq = none ∧
         (r.origin ≠ .endpoint →
           t.unitEvents = s.unitEvents ++ [{ origin := r.origin, hdr := r.pkt.hdr, ok := true, leaf := merged, ue := false }]))))

/-- Gaps, negative acknowledgements and timeouts (03 R72 to R76, R79; 07 R175): a gap asks again for the sequence expected and counts it; a NACK
or a timeout resends a complete entry within REPLAY_LIMIT, as it reads back from the replay store, and ends its flow beyond it; a packet of
an endpoint that reads uncorrectable ends its flow; a FLOW_ERROR resets the flow at its egress edge. -/
def Sys2Proof.Claims.NacksTimeoutsAndFlowErrors : Prop :=
  (∀ (f : FlowId) (s : State), (s.egFlow (flowKey f)).gapOn = true →
    Settles (.gapTimeout f) s fun t => (t.egFlow (flowKey f)).expect = (s.egFlow (flowKey f)).expect ∧
      (t.egFlow (flowKey f)).nacks.getD (s.egFlow (flowKey f)).expect 0 =
        (s.egFlow (flowKey f)).nacks.getD (s.egFlow (flowKey f)).expect 0 + 1) ∧
  (∀ (f : FlowId) (s : State), (s.egFlow (flowKey f)).gapOn = false → exec (.gapTimeout f) s = .next s) ∧
  (∀ (s v : State) (p : Packet) (q : Nat) (r : Replay) (reads : List CellRead),
    s.takeLocal (fun h => isType PT.e2eNack h && hget h H.ncause ≠ 4) = some (p, q, v) →
    (let k := flowKey (flowNamed v p.hdr)
     let seq := hget p.hdr H.aseq
     let r' := { r with nacks := hget p.hdr H.rcount }
     let u := v.modEntry k seq fun x => { x with nacks := hget p.hdr H.rcount }
     let x := u.cellReads r.quad 3 reads (r.pkt.hdr :: r.pkt.pay)
     v.entry? k seq = some r →
     (hget p.hdr H.rcount + r.resends ≤ s.replayLimit r.quad → r.complete = true →
       Settles (.e2eNackReceive reads) s fun t =>
         (x.2.2 = false → t = x.1.resend k { r' with pkt := { r.pkt with hdr := x.2.1.headD r.pkt.hdr, pay := x.2.1.drop 1 } }) ∧
         (x.2.2 = true → r.origin = .endpoint → t.inFlows.find k = none)) ∧
     (s.replayLimit r.quad < hget p.hdr H.rcount + r.resends →
       Settles (.e2eNackReceive reads) s fun t => t.inFlows.find k = none ∧ s.rseq ≤ t.rseq))) ∧
  (∀ (f : FlowId) (reads : List CellRead) (s : State) (r : Replay) (es : List Replay), (s.inFlow (flowKey f)).entries = r :: es →
    (let k := flowKey f
     let r' := { r with resends := r.resends + 1 }
     let x := (s.modEntry k r.seq fun _ => r').cellReads r.quad 3 reads (r.pkt.hdr :: r.pkt.pay)
     (r.nacks + r.resends < s.replayLimit r.quad → r.complete = true → x.2.2 = false →
       Settles (.ackTimeout f reads) s fun t =>
         t = x.1.resend k { r' with pkt := { r.pkt with hdr := x.2.1.headD r.pkt.hdr, pay := x.2.1.drop 1 } }) ∧
     (s.replayLimit r.quad ≤ r.nacks + r.resends →
       Settles (.ackTimeout f reads) s fun t => t.inFlows.find k = none ∧ s.rseq ≤ t.rseq))) ∧
  (∀ (s v : State) (p : Packet) (q : Nat),
    s.takeLocal (fun h => isType PT.e2eNack h && hget h H.ncause = 4) = some (p, q, v) →
    (let f := flowNamed v p.hdr
     ingressModule f ≠ s.self → f.dmod = false → f.cast = 0 →
     Does .flowErrorReceive s fun t => t.egFlows.find (flowKey f) = none ∧ t.inFlows = s.inFlows ∧
       (s.memberLinks (f.dst % 32) = [] → ∃ n, t.notices = s.notices ++ [(f.dst % 32, n)] ∧ n.pay = p.pay)))

/-- A stalled endpoint (03 R83): every link of the endpoint is fenced. -/
def Sys2Proof.Claims.StalledEndpoints : Prop :=
  ∀ (ep vc : Nat) (s : State), ep / 32 % 16 = s.group → (∀ p ∈ s.memberPortsOf (ep % 32), p < 144) →
    (∃ p ∈ s.memberPortsOf (ep % 32), s.active p = true ∧ s.outqOf (16 * p + vc) ≠ []) →
    Settles (.endpointStall ep vc) s fun t => ∀ p ∈ s.memberPortsOf (ep % 32), t.stage p = Stage.fenced

/-- The table-generation switch (03 R57; 13 R327): at its time the shadow tables become the active ones under the new GEN, in every
quadrant and PORT_SLICE at once; before it nothing changes. -/
def Sys2Proof.Claims.TableGenerations : Prop :=
  (∀ (s : State) (gen t0 : Nat), s.agent.pendingSwitch = some (gen, t0) → t0 ≤ s.rackTime → s.flag F.hubIdStatMainOn = true →
    s.waitCmds = [] → gen < 65536 →
    Settles .tableGenerationSwitch s fun t => t.tables = { s.shadow with gen := gen } ∧ t.shadow = t.tables ∧
      t.agent.pendingSwitch = none ∧ (∀ q, q < 4 → t.rd F.qswTgenGen q = gen ∧ t.rd F.qswTgenPending q = 0) ∧
      (∀ e ∈ s.agent.switchTold, ∃ n, Out.report (.result s.self e.1 (if gen = e.2 then St.ok else St.field)) n ∈ t.out) ∧
      (∀ p, p < 144 → t.rd F.portSliceSlice p = s.shadow.portSlice.getD p 0 % 256 ∧
        t.rd F.portSliceValid p = s.shadow.portSlice.getD p 0 / 256 % 2) ∧ t.mem = s.mem ∧ t.inq = s.inq ∧ t.outq = s.outq) ∧
  (∀ (s : State) (gen t0 : Nat), s.agent.pendingSwitch = some (gen, t0) → s.rackTime < t0 →
    exec .tableGenerationSwitch s = .next s.settle) ∧
  (∀ s : State, s.agent.pendingSwitch = none → exec .tableGenerationSwitch s = .next s.settle)

/-- The packet buffer (04 R90, R97): every main VC of a quadrant's ports takes the allowance IRES plus its share of the free pool, up to CAP;
every token bucket fills by its rate, up to its burst. -/
def Sys2Proof.Claims.AllowancesAndTokenBuckets : Prop :=
  (∀ (q : Nat) (s : State), q < 4 → MovesCells (.allowanceRecompute q) s fun t =>
    (∀ p tc, (36 * q ≤ p ∧ p < 36 * q + 36 ∨ 144 + 7 * q ≤ p ∧ p < 144 + 7 * q + 7) → tc < 6 →
      (t.vcb (16 * p + tc)).allow =
        Nat.min (Nat.max 65 (s.rd F.qswBufrsvIres q) + 2 ^ bitsOf (s.reg .qswBufcfg q) (3 * tc) 3 * s.sharedFree q / 16)
          (256 * (if s.rd F.qswBufcfgCap q = 0 then 128 else s.rd F.qswBufcfgCap q))) ∧
    t.regs = s.regs ∧ t.inq = s.inq ∧ t.outq = s.outq) ∧
  (∀ (s : State), Does .tokenBucketRefill s fun t => (∃ b, t = { s with buckets := b }) ∧
    ∀ m, m < 32 →
      (let q := s.memberQuad m
       let up (v : Int) (rate burst : Nat) : Int :=
         if v + rate < 16 * (Nat.max 65 burst : Nat) then (if v + rate < -524288 then -524288 else v + rate) else 16 * (Nat.max 65 burst : Nat)
       (t.bucket m).tc3 = up (s.bucket m).tc3 (s.rd F.qswRateRateTc3 (32 * q + m)) (s.rd F.qswRateBurstTc3 (32 * q + m)) ∧
       (t.bucket m).tc5 = up (s.bucket m).tc5 (s.rd F.qswRateRateTc5 (32 * q + m)) (s.rd F.qswRateBurstTc5 (32 * q + m)))) ∧
  (∀ (m l p : Nat) (s : State), l < 8 → (∀ j, j < l → s.tables.memberPorts.getD (8 * m + j) 0 = 0) →
    s.tables.memberPorts.getD (8 * m + l) 0 = p + 1 → s.memberQuad m = p / 36 % 4)

/-- An age past a promotion threshold, which acts as 100 below 100; ages saturate at 65,535 (04 R98). -/
def Sys2Proof.Claims.Past (age lim : Nat) : Prop := Nat.max 100 lim < Nat.min age 65535

/-- Promotion (04 R98 to R100): the oldest requester that has waited past the threshold (at least 100 TICK) is granted once, as its own command
grants it, and waits anew; one that has not stays as it is. -/
def Sys2Proof.Claims.Promotions : Prop :=
  (∀ (ch : Nat) (e : Ecc) (s : State), ch < 64 → s.memReady = true → s.flag F.memcScrubEn (ch / 16) = true →
    (Claims.Past (s.scrubAge ch) (s.rd F.memcScrubPromo (ch / 16)) → ∃ u, exec (.scrubRead ch e) s = .next u ∧
      Does (.promotion (.memScrub ch e)) s fun t => Counted u t ∧ t.scrubAge ch = 0) ∧
    (¬Claims.Past (s.scrubAge ch) (s.rd F.memcScrubPromo (ch / 16)) → exec (.promotion (.memScrub ch e)) s = .next s)) ∧
  (∀ (ok0 ok1 : Bool) (s : State) (c : CommitReq) (r : List CommitReq), s.ledger.queue = c :: r →
    (Claims.Past c.age (s.rd F.ledgArbPromo) → exec (.promotion (.mramPort ok0 ok1)) s = exec (.ledgerCommit ok0 ok1) s) ∧
    (¬Claims.Past c.age (s.rd F.ledgArbPromo) → exec (.promotion (.mramPort ok0 ok1)) s = .next s)) ∧
  (∀ (pass : Bool) (s : State),
    (Claims.Past s.pair.selftestAge (s.rd F.condSelftestPromo) → exec (.promotion (.selftest pass)) s = exec (.selftest pass) s) ∧
    (¬Claims.Past s.pair.selftestAge (s.rd F.condSelftestPromo) → exec (.promotion (.selftest pass)) s = .next s)) ∧
  (∀ (q a : Nat) (s : State), q < 4 → s.waiters q = [a] → 0 < s.sharedFree q → a % 16 < 6 → a / 16 < 144 →
    s.ires q ≤ (s.vcb a).resCells → Claims.Past (s.vcb a).age (s.rd F.qswBufarbPromo q) →
    MovesCells (.promotion (.sharedCell q)) s fun t => (t.vcb a).age = 0 ∧ (t.vcb a).shCells = (s.vcb a).shCells + 1 ∧
      t.dueOf a = s.dueOf a + 1 ∧ t.arb.getD q 0 = a / 16) ∧
  (∀ (q : Nat) (s : State), q < 4 → (∀ a ∈ s.waiters q, ¬Claims.Past (s.vcb a).age (s.rd F.qswBufarbPromo q)) →
    exec (.promotion (.sharedCell q)) s = .next s) ∧
  (∀ (q : Nat) (s : State), q < 4 →
    ((∃ e ∈ s.waitingInsts q, Claims.Past (s.waitAge e.2) (s.rd F.pipDealcfgPromo q)) →
      exec (.promotion (.dealer q)) s = exec (.dealerPlace q .clean) s) ∧
    ((∀ e ∈ s.waitingInsts q, ¬Claims.Past (s.waitAge e.2) (s.rd F.pipDealcfgPromo q)) → exec (.promotion (.dealer q)) s = .next s)) ∧
  (∀ (ok0 ok1 : Bool) (s : State), s.ledger.queue = [] → exec (.promotion (.mramPort ok0 ok1)) s = .next s)

/-! ### Fabric memory and its requests (02 R53; 10) -/

/-- Words that are neither poisoned nor hit by a loaded die. -/
def Sys2Proof.Claims.CleanWords (s : State) (a n : Nat) : Prop := s.dice = [] ∧ ∀ w ∈ wordsOf a n, w ∉ s.memPoison

/-- The bytes are in memory from `a` on, and every other byte is as it was. -/
def Sys2Proof.Claims.Written (s t : State) (a : Nat) (bs : List Byte) : Prop :=
  (∀ i, i < bs.length → Memory.read t.mem (a + i) = bs.getD i 0) ∧
  (∀ b, b < a ∨ a + bs.length ≤ b → Memory.read t.mem b = Memory.read s.mem b) ∧ t.memPoison = s.memPoison

/-- Which memory request is served: the first of its type whose flits are all at the unit, before which no packet of its flow waits and whose
BYTES fit in its half of the staging area (03 R64, R461; 10 R238); its cells are free again. -/
def Sys2Proof.Claims.RequestsInOrder : Prop :=
  ∀ (s : State) (t : Nat) (pre : List LocalPkt) (l : LocalPkt) (post : List LocalPkt), s.local_ = pre ++ l :: post →
    isType t l.pkt.hdr = true → l.chg.due = 0 → l.chg.near = 0 → s.stagingUsed l.quad false + hget l.pkt.hdr H.bytes ≤ 2097152 →
    (∀ e ∈ pre, isType t e.pkt.hdr = false ∧
      (sequenced e.pkt.hdr = false ∨ hget e.pkt.hdr H.tc ≠ hget l.pkt.hdr H.tc ∨ flowOf e.pkt.hdr ≠ flowOf l.pkt.hdr)) →
    s.takeRequest t = some (l.pkt, l.quad, ({ s with local_ := pre ++ post } : State).freeLocal l)

/-- Requests of the fabric (02 R53; 10 R246, R248): a write that is allowed stores its BYTES bytes and no others, and one that is not
stores nothing; with CPL it is answered with its MSTATUS; a read takes its words as they stand, and its completion answers with
them, POISONED where a word is; a response that the module awaits is kept. -/
def Sys2Proof.Claims.MemoryRequests : Prop :=
  Claims.RequestsInOrder ∧
  (∀ (s v : State) (p : Packet) (q : Nat), s.takeRequest PT.memWr = some (p, q, v) →
    s.mstatusOf p.hdr true = 0 → hget p.hdr H.poison = 0 → hget p.hdr H.bytes ≤ (payBytes p).length →
    Claims.CleanWords s (hget p.hdr H.faddr % 2 ^ 48) (hget p.hdr H.bytes) →
    Does (.memWrReceive []) s fun t => ∃ u, u.local_ = v.local_ ∧
      Claims.Written s u (hget p.hdr H.faddr % 2 ^ 48) ((payBytes p).take (hget p.hdr H.bytes)) ∧
      Counted { v with mem := u.mem, memPoison := u.memPoison } u ∧
      t = if hget p.hdr H.cpl = 1 then u.answerMem p.hdr q 0 [] else u) ∧
  (∀ (reads : List Ecc) (s v : State) (p : Packet) (q : Nat), s.takeRequest PT.memWr = some (p, q, v) →
    s.mstatusOf p.hdr true ≠ 0 →
    Does (.memWrReceive reads) s fun t => t = if hget p.hdr H.cpl = 1 then v.answerMem p.hdr q (s.mstatusOf p.hdr true) [] else v) ∧
  (∀ (s v : State) (p : Packet) (q : Nat), s.takeRequest PT.memRdReq = some (p, q, v) →
    (s.mstatusOf p.hdr false = 0 → Does .memRdReqReceive s fun t => ∃ r : MemRead, r.tag = s.nextMemTag ∧ r.req = p.hdr ∧ r.quad = q ∧
      r.words = (wordsOf (hget p.hdr H.faddr % 2 ^ 48) (hget p.hdr H.bytes)).map (fun w => (Memory.word s.mem w, s.memPoison.contains w)) ∧
      t = { v with memReads := s.memReads ++ [r], nextMemTag := s.nextMemTag + 1 }) ∧
    (s.mstatusOf p.hdr false ≠ 0 → Does .memRdReqReceive s fun t =>
      t = v.answerMem p.hdr q (s.mstatusOf p.hdr false) [])) ∧
  (∀ s : State, s.local_ = [] → exec .memRdReqReceive s = .next s ∧ exec .memRdRspReceive s = .next s ∧
    ∀ reads, exec (.memWrReceive reads) s = .next s) ∧
  (∀ (tag : Nat) (s : State) (r : MemRead), s.memReads.find? (fun r => decide (r.tag = tag)) = some r → s.dice = [] →
    ((∀ w ∈ r.words, w.2 = false) → Does (.memReadComplete tag []) s fun t => ∃ u,
      Counted { s with memReads := s.memReads.filter fun x => decide (x.tag ≠ tag) } u ∧
      t = u.answerMem r.req r.quad 0 (((r.words.flatMap fun w => flitBytes w.1).drop (hget r.req H.faddr % 64)).take (hget r.req H.bytes))) ∧
    ((∃ w ∈ r.words, w.2 = true) → Does (.memReadComplete tag []) s fun t => ∃ (u : State) (bytes : List Byte),
      u.memReads = (s.memReads.filter fun x => decide (x.tag ≠ tag)) ∧ u.mem = s.mem ∧ s.rseq ≤ u.rseq ∧ t = u.answerMem r.req r.quad 3 bytes)) ∧
  (∀ (s v : State) (p : Packet) (q : Nat), s.takeLocal (isType PT.memRdRsp) = some (p, q, v) →
    (hget p.hdr H.tag ∈ s.ownReqs → Does .memRdRspReceive s fun t =>
      t = { v with ownReqs := s.ownReqs.filter (fun x => decide (x ≠ hget p.hdr H.tag)),
                   ownRsps := s.ownRsps ++ [(hget p.hdr H.tag, hget p.hdr H.mstatus, payBytes p)] }) ∧
    (hget p.hdr H.tag ∉ s.ownReqs → Does .memRdRspReceive s fun t => t = v))

/-- Start, refresh, scrub and failure of fabric memory (10 R242 to R245): with every channel trained memory is zero and READY below TOP; with
one failed it is FAILED, and so when one fails later, with TOP 0 and no read left; a refresh is counted; a scrub read of a good word
changes no data and moves the pass on, one that finds an uncorrectable word leaves it poisoned. -/
def Sys2Proof.Claims.MemoryChannels : Prop :=
  (∀ (s : State), s.flag F.hubIdStatMainOn = true → s.rd F.memcStatState = 0 →
    Settles (.memoryInitComplete []) s fun t => t.mem = [] ∧ t.memPoison = [] ∧ t.memReads = [] ∧
      (∀ q, q < 4 → t.rd F.memcStatState q = 1 ∧ t.rd F.memcStatInitBusy q = 0 ∧ t.rd F.memcTopTop q = 1024000000000) ∧
      ∃ rg, t = { s with regs := rg, mem := [], memPoison := [], memReads := [] }) ∧
  (∀ (failed : List Nat) (s : State), s.flag F.hubIdStatMainOn = true → s.rd F.memcStatState = 0 → (∃ c ∈ failed, c < 64) →
    Settles (.memoryInitComplete failed) s fun t => (∀ q, q < 4 → t.rd F.memcStatState q = 2) ∧
      (∀ c ∈ failed, c < 64 → (t.rd F.memcStatChFailed (c / 16)).testBit (c % 16) = true)) ∧
  (∀ (ch : Nat) (s : State), ch < 64 → s.phys.resetKind ≠ some true → s.rd F.memcStatState = 1 →
    Settles (.memChannelFailed ch) s fun t => (∀ q, q < 4 → t.rd F.memcStatState q = 2 ∧ t.rd F.memcTopTop q = 0) ∧
      (t.rd F.memcStatChFailed (ch / 16)).testBit (ch % 16) = true ∧ t.memReads = [] ∧ t.mem = s.mem ∧ s.rseq ≤ t.rseq) ∧
  (∀ (ch : Nat) (s : State), ch < 64 → s.phys.resetKind ≠ some true → s.rd F.memcStatState ≠ 1 →
    Settles (.memChannelFailed ch) s fun t => (t.rd F.memcStatChFailed (ch / 16)).testBit (ch % 16) = true ∧ t.mem = s.mem ∧
      s.rseq ≤ t.rseq) ∧
  (∀ (ch : Nat) (s : State), ch < 64 → s.flag F.hubIdStatMainOn = true →
    Does (.refresh ch) s fun t => t.refreshes.getD ch 0 = s.refreshes.getD ch 0 + 1 ∧ Counted { s with refreshes := t.refreshes } t) ∧
  (∀ (ch : Nat) (s : State), ch < 64 → s.memReady = true → s.flag F.memcScrubEn (ch / 16) = true → s.dice = [] →
    (let w := memAddr ch (64 * s.scrubPos.getD ch 0) / 64
     (w ∉ s.memPoison → Does (.scrubRead ch .clean) s fun t =>
       t.scrubPos.getD ch 0 = (s.scrubPos.getD ch 0 + 1) % 250000000 ∧ t.scrubMark.getD ch 0 = s.scrubClock.getD (ch / 16) 0 ∧
       Counted { s with scrubPos := t.scrubPos, scrubMark := t.scrubMark } t) ∧
     Does (.scrubRead ch .ue) s fun t => w ∈ t.memPoison ∧ t.mem = s.mem ∧ s.rseq ≤ t.rseq ∧
       t.scrubPos.getD ch 0 = (s.scrubPos.getD ch 0 + 1) % 250000000))

/-! ### PCIe (12 R298 to R300) -/

/-- BAR2 (12 R299): a read inside fabric memory answers its bytes and changes none; a write stores its bytes and no others; an access that
does not reach memory in service is an unsupported request. -/
def Obligations.PcieWindow : Prop :=
  (∀ (off len : Nat) (s : State), off + len ≤ 2 ^ 36 → s.bar2Ok (s.winBase + off) len = true → Claims.CleanWords s (s.winBase + off) len →
    Does (.bar2Read off len []) s fun t => t.out = s.out ++ [.pcieData (Memory.slice s.mem (s.winBase + off) len) false] ∧
      Counted { s with out := t.out } t) ∧
  (∀ (off : Nat) (bs : List Byte) (s : State), off + bs.length ≤ 2 ^ 36 → s.bar2Ok (s.winBase + off) bs.length = true →
    Claims.CleanWords s (s.winBase + off) bs.length →
    Does (.bar2Write off bs false []) s fun t => Claims.Written s t (s.winBase + off) bs ∧
      Counted { s with mem := t.mem, memPoison := t.memPoison } t) ∧
  (∀ (off len : Nat) (reads : List Ecc) (s : State), (2 ^ 36 < off + len ∨ s.bar2Ok (s.winBase + off) len = false) →
    Does (.bar2Read off len reads) s fun t => t.out = s.out ++ [.pcieUr] ∧ Counted { s with out := t.out } t) ∧
  (∀ (off : Nat) (bs : List Byte) (ep : Bool) (reads : List Ecc) (s : State),
    (2 ^ 36 < off + bs.length ∨ s.bar2Ok (s.winBase + off) bs.length = false) →
    Does (.bar2Write off bs ep reads) s fun t => t.out = s.out ++ [.pcieUr] ∧ Counted { s with out := t.out } t)

/-- A channel of the DMA engine that runs. -/
def Sys2Proof.Claims.DmaRuns (s : State) (ch : Nat) : Prop :=
  ch < 8 ∧ s.flag F.hubPcieDmactlRun ch = true ∧ s.rd F.hubPcieDmactlRingSize ch ≠ 0

/-- The DMA engine (12 R300): RUN starts a channel; a descriptor in its range moves its bytes, to memory or to the host, writes STATUS 0
and moves the channel to the next one of its ring; one out of range has STATUS 1; one that is not owned stops the channel. The PCIe link comes up at its
speed and width, and is recorded when degraded (12 R298). -/
def Obligations.PcieDma : Prop :=
  (∀ (ch : Nat) (s : State), ch < 8 → s.flag F.hubPcieDmactlRun ch = false →
    Does (.dmaRun ch) s fun t => t.flag F.hubPcieDmactlRun ch = true ∧ (∀ r j, j < 2 ^ 20 → (r, j) ≠ (Reg.hubPcieDmactl, ch) → t.reg r j = s.reg r j) ∧
      ∃ rg, t = { s with regs := rg }) ∧
  (∀ (ch : Nat) (s : State), ch < 8 → s.flag F.hubPcieDmactlRun ch = true →
    Does (.dmaRun ch) s fun t => ch ∈ t.dmaRecheck ∧ ∃ l, t = { s with dmaRecheck := l }) ∧
  (∀ (ch : Nat) (d : HostDesc) (data : List Byte) (s : State), Claims.DmaRuns s ch → d.own = true → d.irq = false → d.bytes ≠ 0 →
    d.bytes ≤ 16777216 → s.bar2Ok (d.faddr % 2 ^ 48) d.bytes = true → Claims.CleanWords s (d.faddr % 2 ^ 48) d.bytes →
    (d.dir = false → data.length = d.bytes →
      Does (.dmaDescriptorComplete ch d data false false []) s fun t => Claims.Written s t (d.faddr % 2 ^ 48) data ∧
        t.out = s.out ++ [.hostStatus (s.dmaAddr ch) 0] ∧
        t.dmaIdx.getD ch 0 = (s.dmaIdx.getD ch 0 + 1) % s.rd F.hubPcieDmactlRingSize ch ∧
        Counted { s with mem := t.mem, memPoison := t.memPoison, out := t.out, dmaIdx := t.dmaIdx } t) ∧
    (d.dir = true → Does (.dmaDescriptorComplete ch d data false false []) s fun t =>
      t.out = s.out ++ [.hostWrite d.haddr (Memory.slice s.mem (d.faddr % 2 ^ 48) d.bytes) false, .hostStatus (s.dmaAddr ch) 0] ∧
      t.dmaIdx.getD ch 0 = (s.dmaIdx.getD ch 0 + 1) % s.rd F.hubPcieDmactlRingSize ch ∧
      Counted { s with out := t.out, dmaIdx := t.dmaIdx } t)) ∧
  (∀ (ch : Nat) (d : HostDesc) (data : List Byte) (he hp : Bool) (reads : List Ecc) (s : State), Claims.DmaRuns s ch → d.own = true →
    d.irq = false → (d.bytes = 0 ∨ 16777216 < d.bytes ∨ s.bar2Ok (d.faddr % 2 ^ 48) d.bytes = false) →
    Does (.dmaDescriptorComplete ch d data he hp reads) s fun t => t.out = s.out ++ [.hostStatus (s.dmaAddr ch) 1] ∧
      Counted { s with out := t.out, dmaIdx := t.dmaIdx } t) ∧
  (∀ (ch : Nat) (d : HostDesc) (data : List Byte) (he hp : Bool) (reads : List Ecc) (s : State), Claims.DmaRuns s ch → d.own = false →
    Does (.dmaDescriptorComplete ch d data he hp reads) s fun t =>
      (ch ∉ s.dmaRecheck → t.flag F.hubPcieDmactlRun ch = false ∧ ∃ rg, t = { s with regs := rg }) ∧
      (ch ∈ s.dmaRecheck → t = { s with dmaRecheck := s.dmaRecheck.filter fun x => decide (x ≠ ch) })) ∧
  (∀ (g w : Nat) (s : State),
    (let u := { s with phys := { s.phys with pcieUp := true, pcieGtps := g, pcieWidth := w } }
     (64 ≤ g → 16 ≤ w → exec (.pcieLinkUp g w) s = .next u) ∧
     (g < 64 ∨ w < 16 → Does (.pcieLinkUp g w) s fun t => t.phys.pcieUp = true ∧ t.phys.pcieGtps = g ∧ t.phys.pcieWidth = w ∧ s.rseq ≤ t.rseq)))

/-! ### Ethernet and the gateway (12 R289 to R296) -/

/-- Frames received (12 R290, R294 to R296): a port that is down takes in nothing; a request to one of its addresses is answered; a frame that no
service takes is discarded and counted; a tunnel frame without a tunnel is rejected and counted, and a good one becomes a GATE
packet to its endpoint; a pause frame sets the priorities that are paused. -/
def Sys2Proof.Claims.EthernetFramesReceived : Prop :=
  (∀ (p sub : Nat) (f : Frame) (s : State), s.ethUp p sub = false → exec (.ethFrameReceive p sub f) s = .next s.settle.pfcTurns) ∧
  (∀ (p sub : Nat) (f : Frame) (s : State), s.ethUp p sub = true → f.kind = .arp ∨ f.kind = .neighbour ∨ f.kind = .icmp ∨ f.kind = .icmp6 →
    f.dstIp ∈ s.ownAddrs p → ∃ u, exec (.ethFrameReceive p sub f) s = .next u.settle.pfcTurns ∧
      u.out = s.out ++ [.pingReply p sub f] ∧ Counted { s with out := u.out } u) ∧
  (∀ (p sub : Nat) (f : Frame) (s : State), s.ethUp p sub = true →
    (f.kind = .other ∨ f.kind = .ptp ∧ s.plan.ptp = false ∨ f.kind = .arp ∧ f.dstIp ∉ s.ownAddrs p ∨
      f.kind = .udp ∧ f.dstPort ≠ s.rd F.ethGatecfgUdpPort p) →
    ∃ u, exec (.ethFrameReceive p sub f) s = .next u.settle.pfcTurns ∧
      u.rd F.ethStatDiscards p = Nat.min (s.rd F.ethStatDiscards p + 1) 65535 ∧ ∃ rg c, u = { s with regs := rg, cnt := c }) ∧
  (∀ (p sub : Nat) (f : Frame) (s : State), s.ethUp p sub = true → f.kind = .udp → f.dstPort = s.rd F.ethGatecfgUdpPort p →
    s.tunnelOf p sub (fieldAt f.bytes 8 4) f.srcIp = none →
    ∃ u, exec (.ethFrameReceive p sub f) s = .next u.settle.pfcTurns ∧
      u.rd F.ethStatGateReject p = Nat.min (s.rd F.ethStatGateReject p + 1) 65535 ∧ ∃ rg c, u = { s with regs := rg, cnt := c }) ∧
  (∀ (p sub i : Nat) (f : Frame) (s : State) (tn : Tunnel), s.ethUp p sub = true → f.kind = .udp → f.dstPort = s.rd F.ethGatecfgUdpPort p →
    s.tunnelOf p sub (fieldAt f.bytes 8 4) f.srcIp = some (i, tn) → f.dstIp ∈ s.ownAddrs p → (f.csum ≠ 0 → f.csumOk = true) →
    fieldAt f.bytes 0 1 = 1 → f.bytes.length = 32 + fieldAt f.bytes 2 2 → fieldAt f.bytes 2 2 ≤ 4096 →
    s.epInSlice tn.slice (fieldAt f.bytes 6 2 % 512) = true →
    ∃ u h, exec (.ethFrameReceive p sub f) s =
        .next (((u.originate h (f.bytes.drop 32) (p / 2) 5 (.gate p f.prio (frameSize f))).pfcTurn p sub).settle.pfcTurns) ∧ Counted s u ∧
      hget h H.ptype = PT.gate ∧ hget h H.tc = 5 ∧ hget h H.dst = fieldAt f.bytes 6 2 % 512 ∧ hget h H.slice = tn.slice % 256 ∧
      hget h H.tunnel = i % 256 ∧ hget h H.poison = fieldAt f.bytes 1 1 % 2) ∧
  (∀ (p sub : Nat) (f : Frame) (s : State), s.ethUp p sub = true → f.kind = .pfc →
    ∃ u, exec (.ethFrameReceive p sub f) s = .next u.settle.pfcTurns ∧ Counted { s with eth := u.eth } u ∧
      ∀ i, i < 8 → (u.ethOf (2 * p + sub)).paused.testBit i =
        ((s.rd F.ethCfgPfcEn p).testBit i && (if (fieldAt f.bytes 0 2).testBit i then decide (fieldAt f.bytes (2 + 2 * i) 2 ≠ 0)
          else (s.ethOf (2 * p + sub)).paused.testBit i)))

/-- Frames sent, links, and the gateway's way out (12 R289, R292, R293, R295): the oldest frame of a priority that is not paused leaves; a link that
goes down loses its queue; a GATE packet through a valid tunnel of its slice waits as a frame on the tunnel's port, one that is denied
is recorded and dropped, and one that finds the queue full is dropped and counted. -/
def Sys2Proof.Claims.EthernetFramesSent : Prop :=
  (∀ (p sub : Nat) (s : State) (f : Frame) (rest : List Frame), s.ethUp p sub = true → (s.ethOf (2 * p + sub)).outq = f :: rest →
    (s.ethOf (2 * p + sub)).paused.testBit f.prio = false →
    ∃ u, exec (.ethFrameSend p sub) s = .next u.pfcTurns ∧ u.out = s.out ++ [.eth p sub f] ∧ (u.ethOf (2 * p + sub)).outq = rest ∧
      (u.ethOf (2 * p + sub)).outBytes = (s.ethOf (2 * p + sub)).outBytes - frameSize f ∧ Counted { s with out := u.out, eth := u.eth } u) ∧
  (∀ (p sub : Nat) (s : State), (∀ f ∈ (s.ethOf (2 * p + sub)).outq, (s.ethOf (2 * p + sub)).paused.testBit f.prio = true) →
    exec (.ethFrameSend p sub) s = .next s) ∧
  (∀ (p sub : Nat) (s : State), s.ethUp p sub = true → sub < 2 →
    Does (.ethLinkDown p sub) s fun t => t.ethUp p sub = false ∧ t.ethOf (2 * p + sub) = {} ∧ t.ethUp p (1 - sub) = s.ethUp p (1 - sub) ∧
      ∃ rg e, t = { s with regs := rg, eth := e }) ∧
  (∀ (p sub : Nat) (s : State), p < 8 → s.flag F.hubIdStatMainOn = true → s.phys.fatal = false →
    (s.rd F.ethCfgMode p = 1 ∧ sub = 0 ∨ s.rd F.ethCfgMode p = 2 ∧ sub < 2) → s.ethUp p sub = false →
    Does (.ethLinkUp p sub) s fun t => t.ethUp p sub = true ∧ t.ethOf (2 * p + sub) = {} ∧ t.ethUp p (1 - sub) = s.ethUp p (1 - sub) ∧
      ∃ rg e, t = { s with regs := rg, eth := e }) ∧
  (∀ (s v : State) (p : Packet) (q : Nat), s.takeLocal (isType PT.gate) = some (p, q, v) →
    (let tn := s.tables.tunnels.getD (hget p.hdr H.tunnel) {}
     let k := 2 * tn.port + tn.sub
     let f := s.gateFrame tn p
     (tn.valid = true → tn.slice = hget p.hdr H.slice → s.ethUp tn.port tn.sub = true → s.dice = [] →
       ((s.ethOf k).outBytes + frameSize f ≤ 1048576 → Does .gatePacketReceive s fun t => t.local_ = v.local_ ∧
         t.ethOf k = { s.ethOf k with outq := (s.ethOf k).outq ++ [f], outBytes := (s.ethOf k).outBytes + frameSize f } ∧
         ∃ e, t = { v with eth := e }) ∧
       (1048576 < (s.ethOf k).outBytes + frameSize f → Does .gatePacketReceive s fun t => t.local_ = v.local_ ∧ t.eth = s.eth ∧
         t.rd F.ethStatTxDrop tn.port = Nat.min (s.rd F.ethStatTxDrop tn.port + 1) 65535)) ∧
     (tn.valid = false ∨ tn.slice ≠ hget p.hdr H.slice ∨ s.ethUp tn.port tn.sub = false →
       Does .gatePacketReceive s fun t => t.local_ = v.local_ ∧ t.eth = s.eth ∧ s.rseq ≤ t.rseq)))

/-! ### Commands of the Rospex Command Set that the module answers itself (13 R313, R317, R320 and the chapters it names) -/

/-- The commands that read: each with its opcode and the response it gives to a request, none where the request names nothing there is. The
response is what 13 R320 lists for the opcode, in its order. -/
def Sys2Proof.Claims.queries : List ((MbxRef → Instr) × Nat × (State → MbxSt → Option (List Byte))) := [
  (.identity, 0x0001, fun s _ => some (orderingNumber ++ leBytes 8 s.trust.devId ++ leBytes 2 s.self ++ leBytes 1 s.tray ++
    leBytes 1 ((if s.planLive = true ∧ s.plan.primary = s.self then 1 else 0) + (if s.planLive = true ∧ s.plan.secondary = s.self then 2 else 0) +
      (if s.plane then 0 else 4)) ++ leBytes 4 s.trust.libVer ++ leBytes 48 s.planHash.toNat)),
  (.regRead, 0x0010, fun s x =>
    let n := fieldAt x.req.payload 0 2
    if 1 ≤ n ∧ n ≤ 256 ∧ x.reqLen = 8 + 8 * n then
      match s.regReads x.req.payload n n 0 with
      | .ok v => some (leBytes 2 n ++ leBytes 6 0 ++ v)
      | .error _ => none
    else none),
  (.ledgerRead, 0x0100, fun s x =>
    let t := fieldAt x.req.payload 0 2
    if 1 ≤ t ∧ t ≤ 17 then
      some ((((keysOf (s.ledger.mr0 ++ s.ledger.mr1 ++ s.ledger.nor) t).filter fun k => decide (fieldAt x.req.payload 2 4 ≤ k)).take
        (fieldAt x.req.payload 6 2)).flatMap fun k => match s.live t k with
          | some g => (s.groupBytes g).flatMap fun r => r ++ leBytes 1 (s.trustOf t k)
          | none => [])
    else none),
  (.hours, 0x0101, fun s _ =>
    some (leBytes 4 (s.rd F.ledgHoursHoursMain) ++ leBytes 4 (s.rd F.ledgHoursUnclean) ++ leBytes 4 (s.rd F.ledgHoursCycles))),
  (.inventory, 0x0102, fun s x =>
    let c := fieldAt x.req.payload 0 1
    some ((s.ledger.inventory.filter fun r => decide (c = 0) || decide (r.cls = c)).flatMap invBytes)),
  (.repairMap, 0x0103, fun s x =>
    some (((s.ledger.repairs ++ s.spares.filter fun r => decide (r.kind = 3)).drop (fieldAt x.req.payload 0 2)).flatMap repairBytes)),
  (.slotQuery, 0x0405, fun s x =>
    let slot := fieldAt x.req.payload 0 2 % 4096
    some (match (if (s.slot slot).closing then none else s.bindingOf slot) with
      | some (b, _) => bindBytes slot b ++ s.bindAnswer slot ++ leBytes 2 (s.slot slot).base
      | none => leBytes 112 0 ++ s.bindAnswer slot ++ leBytes 2 0)),
  (.instanceQuery, 0x0406, fun s x =>
    let slot := fieldAt x.req.payload 0 2 % 4096
    let step := fieldAt x.req.payload 2 2
    if (s.slot slot).bound.isNone then some (leBytes 25 0)
    else match s.inst? slot step with
      | some i => some (leBytes 1 (instCode i.state) ++ leBytes 2 (i.status.getD 0) ++ leBytes 2 i.flags.toNat ++ leBytes 8 i.resume ++
          leBytes 8 i.user ++ leBytes 4 i.dropped)
      | none => some (match (s.slot slot).ended.find? fun e => decide (e.step = step) with
        | some e => leBytes 1 5 ++ leBytes 2 e.status ++ leBytes 2 e.flags.toNat ++ leBytes 8 e.resume ++ leBytes 8 e.user ++ leBytes 4 e.dropped
        | none => leBytes 25 0)),
  (.programList, 0x040A, fun s _ =>
    some ((List.range 11).flatMap (fun i => leBytes 2 (i + 1) ++ leBytes 2 (i + 1) ++ leBytes 4 s.trust.libVer ++ leBytes 1 1) ++
      s.programs.flatMap fun p => leBytes 2 p.cls ++ leBytes 2 p.cls ++ leBytes 4 p.version ++ leBytes 1 p.flags)),
  (.regionRead, 0x0501, fun s x =>
    let a := fieldAt x.req.payload 0 1
    let n := fieldAt x.req.payload 1 1
    if a + n ≤ 256 then some ((List.range n).flatMap fun k => regionBytes (s.tables.regions.getD (a + k) {})) else none),
  (.streamQuery, 0x0504, fun s x =>
    let id := fieldAt x.req.payload 0 2
    let r := s.run (1024 * s.sepoch + id)
    if id < 1024 then some (leBytes 1 r.status ++ leBytes 2 s.sepoch ++ leBytes 4 r.sent ++ leBytes 4 r.acked ++ leBytes 8 r.leaf ++
      leBytes 1 ((if r.late then 1 else 0) + (if r.poisonSent then 2 else 0))) else none),
  (.memStatus, 0x0507, fun s _ => some (leBytes 1 (s.rd F.memcStatState) ++ [0, 1, 2, 3].flatMap (fun q => leBytes 2 (s.rd F.memcStatChFailed q)) ++
     (List.range 64).flatMap fun ch => leBytes 4 (s.scrubPos.getD ch 0))),
  (.brakeStatus, 0x0603, fun s _ =>
    some (leBytes 1 (s.rd F.pwrStatBrakeIn + 2 * s.rd F.pwrStatBrakeOut + (if s.power.uv then 4 else 0)) ++ leBytes 3 0 ++
      leBytes 4 (s.rd F.pwrBrakeCount) ++ leBytes 8 s.power.brakeTime ++ leBytes 2 (s.rd F.pwrBrakeRespNs))),
  (.cntRead, 0x0701, fun s x =>
    let u := fieldAt x.req.payload 0 2
    if u < 274 then some (leBytes 8 (s.cycles u) ++ s.topDownBytes u ++
        (List.range 8).flatMap (fun k => if k < unitCounters u then s.cntEntry u k else leBytes 8 0) ++ leBytes 8 s.rackTime)
    else if 0x1000 ≤ u ∧ u < 0x1090 then some (leBytes 40 0 ++
        (List.range 8).flatMap (fun k => leBytes 8 (if k < 4 then s.linkCnt.getD (4 * (u - 0x1000) + k) 0 else 0)) ++ leBytes 8 s.rackTime)
    else none),
  (.errRead, 0x0800, fun s x =>
    let i := fieldAt x.req.payload 0 2
    if i < 512 then
      some (((((List.range ((s.rd F.errStatWriteIdx + 511 - i) % 512 + 1)).map fun k => (i + k) % 512).filter fun k =>
        (s.errs.find k).isSome).take 63).flatMap s.ringEntry)
    else none),
  (.laneRead, 0x0901, fun s x =>
    let l := fieldAt x.req.payload 0 2
    if l < 576 then some (((if s.macroUp 0 then s.ledger.mr0 else s.ledger.mr1).filter fun g => decide (g.type = 4) && decide (g.key = l)).flatMap
      fun g => g.payload.take 48) else none),
  (.tunnelRead, 0x0903, fun s x => some (tunnelBytes (s.tables.tunnels.getD (fieldAt x.req.payload 0 1) {})))]

/-- A command that reads completes OK with its response and changes nothing but its mailbox and what tells of its end; one that names nothing is
refused likewise. POWER_STATUS answers the limit in force, and the rack cap where the machine runs; elsewhere the cap it answers is
free (notes/assumptions 38). -/
def Obligations.QueriesAnswer : Prop :=
  (∀ q ∈ Claims.queries, ∀ (mb : MbxRef) (s : State) (x : MbxSt), s.ready? mb q.2.1 = some x →
    (∀ rsp, q.2.2 s x = some rsp → Does (q.1 mb) s fun t => Answered mb St.ok 0 rsp s t) ∧
    (q.2.2 s x = none → Does (q.1 mb) s fun t => ∃ status detail, status ≠ St.ok ∧ Answered mb status detail [] s t)) ∧
  (∀ (mb : MbxRef) (s : State) (x : MbxSt), s.ready? mb 0x0602 = some x →
    Does (.powerStatus mb) s fun t => ∃ cap, Answered mb St.ok 0 (leBytes 4 cap ++ leBytes 1 s.power.capSource ++ leBytes 3 0 ++
      leBytes 8 (if s.runsMachine then s.cond.leaseExpiry else s.power.capExpiry) ++ leBytes 2 (s.rd F.pwrStatLimitW) ++
      leBytes 1 (s.rd F.pwrStatSource) ++ leBytes 1 0 ++ leBytes 2 (s.rd F.pwrStatPowerW) ++
      leBytes 1 ((if s.power.orphan.isSome = true ∨ s.cond.orphan = true then 1 else 0) + (if s.cond.flowLow then 2 else 0) +
        (if s.cond.noRedundancy then 4 else 0))) { s with fresh := s.fresh + 1 } t ∧
      (s.runsMachine = true → cap = if s.cond.orphan then s.plan.orphanCap else s.cond.rmCap.getD 0))

/-- The commands that set: each with its opcode and, for a request that is in order, what it makes of the module's state apart from
mailboxes, and its response. -/
def Sys2Proof.Claims.settings : List ((MbxRef → Instr) × Nat × (MbxRef → State → MbxSt → Option (State × List Byte))) := [
  (.hello, 0x0000, fun mb s x =>
    let r := requester mb x.session
    if fieldAt x.req.payload 0 1 = 1 then
      some ({ s with hello := (r, 256) :: s.hello.filter fun e => decide (e.1 ≠ r) },
        leBytes 1 1 ++ leBytes 1 0 ++ leBytes 2 s.self ++ leBytes 8 s.trust.devId ++ leBytes 4 s.trust.version ++ leBytes 1 0)
    else none),
  (.sessionGrant, 0x0304, fun _ s x =>
    some ({ s with grants := s.grants.setD (fieldAt x.req.payload 0 8) 0 (fieldAt x.req.payload 8 32) }, [])),
  (.tableWrite, 0x0310, fun _ s x =>
    let p := x.req.payload
    let t := fieldAt p 0 1
    let n := fieldAt p 4 2
    let w := (tableShape t).2
    if t ≤ 6 ∧ x.reqLen = 8 + n * w then
      (s.writeTable t (fieldAt p 2 2) ((List.range n).map fun k => ofLe (sliceAt p (8 + k * w) w))).map fun u => (u, [])
    else none),
  (.ingressHoldSet, 0x0312, fun _ s x =>
    if fieldAt x.req.payload 18 1 % 4 = 1 then some (s.holdPorts (fieldAt x.req.payload 0 18) true, []) else none),
  (.ingressHoldClear, 0x0312, fun _ s x =>
    if fieldAt x.req.payload 18 1 % 4 = 2 then some (s.holdPorts (fieldAt x.req.payload 0 18) false, []) else none),
  (.slotBind, 0x0403, fun _ s x =>
    let r := bindReq x.req.payload
    let home : Option Nat := if x.role = .peer then some x.session else none
    match s.bindCheck r home with
    | (_, some (b, g, rb, tb)) =>
      match home with
      | some h =>
        let u := s.install r.slot home b g rb tb
        some (u.emit (.helper h { module := s.self, slot := r.slot, step := 0, msg := .bound St.ok }), u.bindAnswer r.slot)
      | none =>
        let u := (s.unbindAt r.slot (s.slotHelpers r.slot)).install r.slot none b g rb tb
        if s.bindWaits.find r.slot = none ∧ s.bindAsks b g = [] then some (u, u.bindAnswer r.slot) else none
    | _ => none),
  (.slotUnbind, 0x0404, fun _ s x =>
    let slot := fieldAt x.req.payload 0 2 % 4096
    match s.bindingOf slot with
    | none => some (s, [])
    | some (b, _) =>
      let mine : Bool := match (s.slot slot).helper with
        | some h => decide (x.role = .peer) && decide (x.session = h)
        | none => true
      let v := (s.unbindAt slot (s.slotHelpers slot)).putSlot slot {}
      if mine = false then some (s, [])
      else if ∀ e ∈ s.insts, e.1 / 65536 ≠ slot then
        some (if s.isHelper slot then v else v.report (.binding s.self slot b.group false), [])
      else none),
  (.programUnload, 0x0409, fun _ s x =>
    let h := fieldAt x.req.payload 0 2
    match s.program? h with
    | some p => if 11 < h ∧ (∀ e ∈ s.slots, ∀ b ∈ e.2.bound, b.program ≠ h) then
        some ((({ s with programs := s.programs.filter fun q => decide (q.cls ≠ h) }).measureProgram p 0xFFFFFFFF), []) else none
    | none => none),
  (.regionWrite, 0x0500, fun _ s x =>
    let i := fieldAt x.req.payload 0 1
    let r := regionAt (x.req.payload.drop 8)
    if s.regionFits i r = true then some (s.putRegion i r, []) else none),
  (.streamWrite, 0x0502, fun _ s x =>
    let id := fieldAt x.req.payload 0 2
    let e := streamAt (x.req.payload.drop 8)
    if id < 1024 ∧ (e.valid = true → s.streamOk e = true ∧ s.sourceOk e = true) then
      some (s.putStreamShadowOf id { e with gateBind := if e.gateEn then (s.slot e.gateSlot).bindIdx else 0 }, [])
    else none),
  (.streamEpoch, 0x0503, fun _ s x =>
    let t := fieldAt x.req.payload 0 8
    if s.streamSwitch = none then
      some ({ (s.each [0, 1, 2, 3] fun s q => (s.wr F.strmEpochPending 1 q).wr F.strmEpochTsLow (t % 2 ^ 32) q) with streamSwitch := some t },
        leBytes 2 ((s.sepoch + 1) % 65536))
    else none),
  (.cntConfig, 0x0700, fun _ s x =>
    let p := x.req.payload
    let u := fieldAt p 0 2
    let k := fieldAt p 2 1
    let f := fieldAt p 3 1
    let i := 8 * u + k
    if u < 274 ∧ k < unitCounters u ∧ eventOk u (fieldAt p 5 1) (fieldAt p 4 1) = true ∧ ¬(f / 4 % 2 = 1 ∧ k = 0) ∧ fieldAt p 8 4 ≤ 65535 ∧
        s.flag F.cntSelEn i = false then
      let c := if f / 2 % 2 = 1 then { s with cnt := s.cnt.setD (16 * u + k) 0 0 } else s
      some (((((c.wr F.cntSelEvent (fieldAt p 4 1) i).wr F.cntSelMode (fieldAt p 5 1) i).wr F.cntSelChain (f / 4 % 2) i).wr F.cntSelThresh
        (fieldAt p 8 4) i).wr F.cntSelEn (f % 2) i, [])
    else none),
  (.errAck, 0x0801, fun _ s x =>
    let i := fieldAt x.req.payload 0 2
    let a := s.rd F.errStatAckIdx
    let n := (i + 512 - a) % 512
    if i < 512 ∧ n ≠ 0 ∧ n ≤ (s.rd F.errStatWriteIdx + 1023 - a) % 512 then
      some ((s.each ((List.range n).map fun k => (a + 1 + k) % 512) fun s k => s.modErr k fun r => { r with acked := true }).wr F.errStatAckIdx i, [])
    else none),
  (.injectArm, 0x0802, fun _ s x =>
    let p := x.req.payload
    let code := fieldAt p 0 2
    let mode := fieldAt p 2 1
    let rest := s.dice.filter fun d => decide (d.code ≠ code)
    match detector? code with
    | some (_, modes) => if s.injectionOpen x.session = true ∧ mode ≠ 0 ∧ modes.testBit mode = true ∧ rest.length < 16 then
        let dice := rest ++ [({ code := code, mode := mode, n := fieldAt p 4 4, count := 0, filter := s.flag F.errInjselFilter,
                                inst := s.rd F.errInjselInstance } : Die)]
        some ((({ s with dice := dice }).wr F.errInjstatArmed dice.length).security 5 (p.take 8), [])
      else none
    | none => none),
  (.injectDisarm, 0x0803, fun _ s x =>
    let code := fieldAt x.req.payload 0 2
    if code = 0xFFFF then some (s.disarmAll, [])
    else if (detector? code).isSome = true ∧ (∃ d ∈ s.dice, d.code = code) then
      let dice := s.dice.filter fun d => decide (d.code ≠ code)
      some ((({ s with dice := dice }).wr F.errInjstatArmed dice.length).security 6 (x.req.payload.take 2), [])
    else none),
  (.tunnelWrite, 0x0902, fun _ s x =>
    let i := fieldAt x.req.payload 0 1
    let t := tunnelAt (x.req.payload.drop 8)
    if t.valid = true → s.tunnelOk i t = true then
      some (({ s with shadow := { s.shadow with tunnels := s.shadow.tunnels.setD i {} t } }).showPending, [])
    else none),
  (.ethAddr, 0x0904, fun _ s x =>
    let p := x.req.payload
    let v := fieldAt p 2 1
    if fieldAt p 0 1 < 8 ∧ fieldAt p 1 1 < 4 ∧ (v = 4 ∨ v = 6) then
      some ({ s with ethAddr := s.ethAddr.setD (4 * fieldAt p 0 1 + fieldAt p 1 1) 0 (fieldAt p 16 (if v = 4 then 4 else 16)) }, [])
    else none)]

/-- A command that sets, given a request in order, completes OK: the state it leaves is the one its row gives, but for its mailbox and what
tells of its end. -/
def Obligations.SettingsTakeEffect : Prop :=
  ∀ q ∈ Claims.settings, ∀ (mb : MbxRef) (s u : State) (x : MbxSt) (rsp : List Byte), s.ready? mb q.2.1 = some x → q.2.2 mb s x = some (u, rsp) →
    Does (q.1 mb) s fun t => Answered mb St.ok 0 rsp u t

/-- The entries of a REG_WRITE, applied in order, each with its status. -/
def Sys2Proof.Claims.entriesOf (s : State) (x : MbxSt) (allowed : Bool) (n : Nat) : State × List Nat :=
  (List.range n).foldl (fun (acc : State × List Nat) k =>
    let w := acc.1.writeEntry allowed (sliceAt x.req.payload (8 + 24 * k) 24)
    (w.1, acc.2 ++ [w.2])) (s, [])

/-- REG_WRITE (13 R324): the entries apply in order; the response lists the status of each, STATUS is that of the first that failed and DETAIL its
index. SCORESHEET_CONFIG (18 R438) sets up the snapshots, or with EN = 0 ends them. -/
def Obligations.RegisterAndScoresheetWrites : Prop :=
  (∀ (mb : MbxRef) (s : State) (x : MbxSt), s.ready? mb 0x0011 = some x →
    (let n := fieldAt x.req.payload 0 2
     let allowed := decide (x.role = .rm) || (decide (x.role = .peer) && decide (x.session = s.agent.acting))
     let r := Claims.entriesOf s x allowed n
     let rsp := leBytes 2 n ++ leBytes 2 0 ++ r.2.flatMap (leBytes 2)
     1 ≤ n → n ≤ 160 → x.reqLen = 8 + 24 * n →
       ((∀ st ∈ r.2, st = 0) → Does (.regWrite mb) s fun t => Answered mb St.ok 0 rsp r.1 t) ∧
       (∀ (i : Nat) (st : Nat), r.2[i]? = some st → st ≠ 0 → (∀ (j v : Nat), j < i → r.2[j]? = some v → v = 0) →
         Does (.regWrite mb) s fun t => Answered mb st i rsp r.1 t))) ∧
  (∀ (mb : MbxRef) (s : State) (x : MbxSt), s.ready? mb 0x0702 = some x → s.flag F.cntSscfgEn = false → s.ssBusy = none →
    (let p := x.req.payload
     fieldAt p 0 1 % 2 = 1 → fieldAt p 0 1 / 2 % 2 = 0 → fieldAt p 8 8 % 65536 = 0 → 10 ≤ fieldAt p 4 4 → fieldAt p 4 4 ≤ 360000000 → 2 ≤ fieldAt p 16 2 →
     Does (.scoresheetConfig mb) s fun t => ∃ u : State,
       Answered mb St.ok 0 (leBytes 8 1 ++ leBytes 8 ((s.rackTime / u.ssPeriod + 1) * u.ssPeriod)) u t ∧ u.flag F.cntSscfgEn = true ∧
       u.flag F.cntSscfgDest = false ∧ u.rd F.cntSscfgSections = fieldAt p 2 2 % 1024 ∧ u.rd F.cntSscfgPeriod = fieldAt p 4 4 ∧
       u.rd F.cntSscfgSlots = fieldAt p 16 2 ∧ u.rd F.cntSsbaseBase = fieldAt p 8 8 ∧ u.ssSeq = 0 ∧
       ∃ rg, u = { s with regs := rg, ssPending := none, ssSeq := 0 })) ∧
  (∀ (mb : MbxRef) (s : State) (x : MbxSt), s.ready? mb 0x0702 = some x → fieldAt x.req.payload 0 1 % 2 = 0 → s.ssBusy = none →
    Does (.scoresheetConfig mb) s fun t => ∃ (u : State) (rsp : List Byte), Answered mb St.ok 0 rsp u t ∧ u.flag F.cntSscfgEn = false ∧ u.ssSeq = 0 ∧
      ∃ rg, u = { s with regs := rg, ssPending := none, ssSeq := 0, fresh := s.fresh + 1 })

/-- Units taken out by command (07 R178, R179; 08 R212; 11 R283; 14 R352): a core is fenced, a bank's retirement is asked for with cause 4, a port
enters or leaves DEEP, a port is fenced or its fence released, the release by the rack manager alone; an abort ends its live instance
with ABORTED and waits for it, a table switch waits for its time. -/
def Obligations.UnitCommands : Prop :=
  (∀ (mb : MbxRef) (s : State) (x : MbxSt), s.ready? mb 0x0804 = some x → fieldAt x.req.payload 0 1 < 128 →
    Settles (.coreFence mb) s fun t => ∃ u, u = s.fenceCore (fieldAt x.req.payload 0 1) 2 ∧ Answered mb St.ok 0 [] u t ∧
      fieldAt x.req.payload 0 1 ∈ t.coreFenced) ∧
  (∀ (mb : MbxRef) (s : State) (x : MbxSt), s.ready? mb 0x0805 = some x → fieldAt x.req.payload 0 1 < 4 → fieldAt x.req.payload 2 2 < 512 →
    Settles (.bankRetire mb) s fun t => Answered mb St.ok 0 [] (s.askRetire (fieldAt x.req.payload 0 1) (fieldAt x.req.payload 2 2) 4) t) ∧
  (∀ (mb : MbxRef) (s : State) (x : MbxSt), s.ready? mb 0x0900 = some x → fieldAt x.req.payload 0 1 < 144 →
    (fieldAt x.req.payload 1 1 % 4 = 1 → Settles (.portSetDeep mb) s fun t =>
      Answered mb St.ok 0 [] (s.setDeep (fieldAt x.req.payload 0 1) true) t) ∧
    (fieldAt x.req.payload 1 1 % 4 = 2 → Settles (.portSetClearDeep mb) s fun t =>
      Answered mb St.ok 0 [] (s.setDeep (fieldAt x.req.payload 0 1) false) t)) ∧
  (∀ (mb : MbxRef) (s : State) (x : MbxSt), s.ready? mb 0x0806 = some x → fieldAt x.req.payload 0 1 = 1 → fieldAt x.req.payload 2 2 < 152 →
    (fieldAt x.req.payload 4 1 % 2 = 0 → Settles (.unitFence mb) s fun t =>
      Answered mb St.ok 0 [] (s.applyFence (.port (fieldAt x.req.payload 2 2)) 2) t) ∧
    (fieldAt x.req.payload 4 1 % 2 = 1 → x.role = .rm → Settles (.unitFenceRelease mb) s fun t =>
      Answered mb St.ok 0 [] (s.applyRelease (.port (fieldAt x.req.payload 2 2))) t) ∧
    (fieldAt x.req.payload 4 1 % 2 = 1 → x.role ≠ .rm → Settles (.unitFenceRelease mb) s fun t => Answered mb St.notPermitted 0 [] s t)) ∧
  (∀ (mb : MbxRef) (s : State) (x : MbxSt) (b : Binding) (i : Instance), s.ready? mb 0x0407 = some x →
    (let slot := fieldAt x.req.payload 0 2 % 4096
     let step := fieldAt x.req.payload 2 2
     (s.slot slot).bound = some b → (s.slot slot).helper = none → s.inst? slot step = some i → i.status = none →
       Settles (.instanceAbort mb) s fun t => ((t.inst? slot step).bind fun j => j.status) = some 0x0107 ∧
         t.waitCmds = s.waitCmds ++ [(mb, 0, 65536 * slot + step)] ∧ t.mbx = s.mbx)) ∧
  (∀ (mb : MbxRef) (s : State) (x : MbxSt), s.ready? mb 0x0311 = some x → Does (.tableSwitch mb) s fun t =>
    t = { s with agent := { s.agent with pendingSwitch := some (fieldAt x.req.payload 0 2, fieldAt x.req.payload 8 8) },
                 waitCmds := s.waitCmds ++ [(mb, 1, fieldAt x.req.payload 0 2)] })

/-- Images, keys and sessions (13 R321; 16 R400, R406, R408, R410, R411): a program or firmware piece is kept, and the last one of a
good program loads it; firmware that is staged, is named by its hash, passes the checks and the FLOOR becomes the image; a session's
measurements attest it and its end ends what it held; a nonce and the token made for it unlock the module; an owner key takes the next
free slot; an UNTRUSTED record that is supplied is committed and used; a staged transfer left alone is dropped. -/
def Obligations.ImagesKeysAndSessions : Prop :=
  (∀ (mb : MbxRef) (s u : State) (x : MbxSt), s.ready? mb 0x0408 = some x → (fieldAt x.req.payload 8 1).testBit 1 = false →
    (s.stagePiece 1 mb x = (u, .taken) → Does (.programLoad mb) s fun t => Answered mb St.ok 0 [] u t) ∧
    (∀ (im : List Byte) (p : Program), s.stagePiece 1 mb x = (u, .whole im) → fieldAt im 0 4 = 0x4F534F58 → fieldAt im 4 1 = 0 →
      programOf im = some p → s.loaderDetail im p false = none → s.codeUsed + p.codeLen ≤ 16384 →
      Does (.programLoad mb) s fun t => ∃ v : State, Answered mb St.ok 0 (leBytes 2 p.cls) v t ∧ p ∈ v.programs ∧ v.stages.find 1 = none ∧
        ∃ m, v = { u with stages := v.stages, programs := u.programs ++ [p], trust := { u.trust with measurement := m } })) ∧
  (∀ (mb : MbxRef) (s u : State) (x : MbxSt) (im : List Byte), s.ready? mb 0x0A00 = some x → s.trust.activating = false →
    s.stagePiece 2 mb x = (u, .whole im) →
    Does (.fwStage mb) s fun t => Answered mb St.ok 0 (leBytes 48 (sha384 im).toNat) { u with trust := { u.trust with staged := im } } t) ∧
  (∀ (mb : MbxRef) (s : State) (x : MbxSt), s.ready? mb 0x0A01 = some x → s.trust.activating = false →
    fieldAt x.req.payload 0 48 = (sha384 s.trust.staged).toNat → s.imageFails s.trust.staged = none →
    (s.trust.floorVersion ≤ fieldAt s.trust.staged 8 4 → Does (.fwActivate mb) s fun t => Answered mb St.ok 0 []
      (({ s with trust := { s.trust with image := s.trust.staged, activating := true } } : State).security 3) t) ∧
    (fieldAt s.trust.staged 8 4 < s.trust.floorVersion → Does (.fwActivate mb) s fun t => Answered mb St.rollback 0 [] s t)) ∧
  (∀ (mb : MbxRef) (s : State) (x : MbxSt), s.ready? mb 0x0A02 = some x →
    Does (.spdm mb) s fun t => (t.mbxOf (mbxKey mb)).state = 4 ∧
      (fieldAt x.req.payload 1 1 = 0xE0 → x.session ∈ t.trust.attested ∧ (t.mbxOf (mbxKey mb)).status = St.ok ∧
        (t.mbxOf (mbxKey mb)).rsp =
          (s.measurementsMessage (fieldAt x.req.payload 3 1) ++ Config.spdmAnswer s.fresh x.req.payload).take 4032) ∧
      (fieldAt x.req.payload 1 1 = 0xEC → x.session ∉ t.trust.attested ∧ ∀ e ∈ t.hello, e.1 ≠ requester mb x.session) ∧
      (fieldAt x.req.payload 1 1 ≠ 0xE0 → fieldAt x.req.payload 1 1 ≠ 0xEC →
        Answered mb St.ok 0 (Config.spdmAnswer s.fresh x.req.payload) { s with fresh := s.fresh + 1 } t)) ∧
  (∀ (mb : MbxRef) (s : State) (x : MbxSt), s.ready? mb 0x0A03 = some x → x.reqLen = 0 →
    Does (.testUnlockNonce mb) s fun t => ∃ n : BitVec 256, Answered mb St.ok 0 (leBytes 8 0 ++ leBytes 32 n.toNat)
      { s with fresh := s.fresh + 1, trust := { s.trust with nonce := some (x.session, n) } } t) ∧
  (∀ (mb : MbxRef) (s : State) (x : MbxSt), s.ready? mb 0x0A03 = some x → x.reqLen ≠ 0 →
    (let p := x.req.payload
     (s.trust.nonce = some (x.session, BitVec.ofNat 256 (fieldAt p 8 32)) → fieldAt p 0 8 = s.trust.devId →
       ecdsaOk (if s.ownerSlot.isSome then s.trust.ownerKey else Config.testKey s.trust.testHash) (p.take 44) (sliceAt p 48 96) = true →
       Does (.testUnlock mb) s fun t => (t.mbxOf (mbxKey mb)).status = St.ok ∧ t.trust.nonce = none ∧
         t.trust.unlock = some (x.session, s.rd F.ledgHoursHoursMain + fieldAt p 40 4) ∧ t.rd F.ledgFloorTestUnlocked = 1) ∧
     (s.trust.nonce ≠ some (x.session, BitVec.ofNat 256 (fieldAt p 8 32)) ∨ fieldAt p 0 8 ≠ s.trust.devId →
       Does (.testUnlock mb) s fun t => Answered mb St.locked 0 [] { s with trust := { s.trust with nonce := none } } t))) ∧
  (∀ (s : State) (session limit : Nat), s.trust.unlock = some (session, limit) →
    (limit ≤ s.rd F.ledgHoursHoursMain → Does .testUnlockExpire s fun t => t.trust.unlock = none ∧ t.dice = [] ∧ t.rd F.ledgFloorTestUnlocked = 0) ∧
    (s.rd F.ledgHoursHoursMain < limit → exec .testUnlockExpire s = .next s)) ∧
  (∀ (mb : MbxRef) (s : State) (x : MbxSt) (k : Nat), s.ready? mb 0x0A04 = some x → x.role = .rm → x.session ∈ s.trust.attested →
    (s.ownerSlot.isSome = true → ecdsaOk s.trust.ownerKey (x.req.payload.take 97) (sliceAt x.req.payload 97 96) = true) →
    [0, 1, 2, 3].find? (fun k => decide (k ∉ s.trust.ownerActive) && decide (k ∉ s.trust.ownerRevoked)) = some k →
    Does (.ownerKey mb) s fun t => (t.mbxOf (mbxKey mb)).status = St.ok ∧ t.trust.ownerKey = x.req.payload.take 97 ∧ k ∈ t.trust.ownerActive ∧
      (∀ o, s.ownerSlot = some o → o ∈ t.trust.ownerRevoked) ∧ t.trust.ownerHash.getD k 0 = (sha384 (x.req.payload.take 97)).toNat ∧
      t.rd F.ledgFloorOwnerSlot = k + 1) ∧
  (∀ (mb : MbxRef) (s : State) (x : MbxSt), s.ready? mb 0x0104 = some x →
    (let q := x.req.payload
     let ty := fieldAt q 0 1
     let k := fieldAt q 2 2
     let p := if blobType ty then q.drop 64 else sliceAt q 12 48 ++ q.drop 64
     ((ty, k) ∉ s.ledger.untrusted → Does (.ledgerSupply mb) s fun t => Answered mb St.notPermitted 0 [] s t) ∧
     ((ty, k) ∈ s.ledger.untrusted → ty ≠ 8 → s.supplyOk x ty k p = true → Does (.ledgerSupply mb) s fun t =>
       (t.mbxOf (mbxKey mb)).status = St.ok ∧ (ty, k) ∉ t.ledger.untrusted ∧ s.ledger.nextCseq < t.ledger.nextCseq))) ∧
  (∀ (kind : Staged) (s : State) (b : StageBuf),
    (let n : Nat := match kind with | .plan => 0 | .program => 1 | .firmware => 2
     s.stages.find n = some b → (b.final = false → exec (.stagedTransferDiscard kind) s = .next { s with stages := s.stages.erase n }) ∧
       (b.final = true → exec (.stagedTransferDiscard kind) s = .next s)))

/-! ### Mailboxes, the controller, interrupts, BAR0 (13 R304 to R318, R330, R331; 12 R300, R301) -/

/-- A remote request that a role may make on its set: a peer, or a session of the rack manager or the runtime once a plan is live. -/
def Sys2Proof.Claims.MayAsk (s : State) (mb : MbxRef) (role : Role) (session : Nat) : Prop :=
  mb.idx < setSize mb.set ∧ (mb.set = .peer ∧ role = .peer ∨
    s.planLive = true ∧ session ≠ 0 ∧ (mb.set = .mgmt ∧ (role = .rm ∨ role = .runtime) ∨ mb.set = .mctp ∧ role = .rm))

/-- The life of a mailbox (13 R311 to R316): a submitted or received request is RECEIVED, numbered in its order; a repeat within 1 s is answered from
the stored answer; the earliest is accepted with its deadline, or is DONE at once with the status that refuses it, or is BUSY while
the controller starts or restarts. -/
def Obligations.MailboxesRun : Prop :=
  (∀ (m seq : Nat) (irqEn : Bool) (s : State), m < 32 →
    (s.flag F.hubMbxCtlOwn m = false → Does (.mailboxSubmit m seq irqEn) s fun t =>
      t.mbxOf m = { role := .host, seq := seq % 256, state := 1, req := (s.imageRequest m).1, reqLen := (s.imageRequest m).2, recvOrder := s.recvCount } ∧
      (∀ k, k ≠ m → t.mbxOf k = s.mbxOf k) ∧ t.flag F.hubMbxCtlOwn m = true ∧ t.flag F.hubMbxCtlIrqEn m = irqEn ∧ t.rd F.hubMbxCtlSeq m = seq % 256 ∧
      ∃ mx rg c, t = { s with mbx := mx, regs := rg, cnt := c, recvCount := s.recvCount + 1 }) ∧
    (s.flag F.hubMbxCtlOwn m = true → Does (.mailboxSubmit m seq irqEn) s (Counted s))) ∧
  (∀ (mb : MbxRef) (role : Role) (session seq : Nat) (req : Request) (s : State), Claims.MayAsk s mb role session →
    (let k := mbxKey mb
     let repeat_ (e : Nat × MbxSt) : Bool := decide (e.1 = k) && decide (e.2.seq = seq) && decide (e.2.req.token = req.token) &&
       decide (s.rackTime ≤ e.2.doneTime + 1000000000)
     ((∀ e ∈ s.stored, repeat_ e = false) → (s.mbxOf k).state ≠ 1 → (s.mbxOf k).state ≠ 2 →
       Does (.remoteRequestReceive mb role session seq req) s fun t =>
         t.mbxOf k = { role := role, session := session, seq := seq, state := 1, req := req, reqLen := req.payload.length, recvOrder := s.recvCount } ∧
         t.out = s.out ++ [.mbxMsg mb seq req.token 1 0 0 []] ∧ (∀ j, j ≠ k → t.mbxOf j = s.mbxOf j) ∧
         t = { s with mbx := t.mbx, out := t.out, recvCount := s.recvCount + 1 }) ∧
     (∀ (j : Nat) (d : MbxSt), s.stored.find? repeat_ = some (j, d) → Does (.remoteRequestReceive mb role session seq req) s fun t =>
       t = { s with out := s.out ++ [.mbxMsg mb d.seq d.req.token d.state d.status d.detail d.rsp] }))) ∧
  (∀ (mb : MbxRef) (role : Role) (session seq : Nat) (req : Request) (s : State), mb.set ≠ .peer →
    (s.planLive = true ∧ session = 0 ∨ s.planLive = false ∧ req.opcode ∉ [0x0000, 0x0001, 0x0A02]) →
    exec (.remoteRequestReceive mb role session seq req) s = .next s) ∧
  (∀ (mb : MbxRef) (s : State),
    (let k := mbxKey mb
     let x := s.mbxOf k
     mb.idx < setSize mb.set → x.state = 1 → s.nextToAccept k = true →
     (s.restarting = false → s.flag F.hubIdStatReady = true →
       (s.refusal mb x = none → Does (.commandAccept mb) s fun t =>
         t.mbxOf k = { x with state := 2, deadline := s.rackTime + 1000 * (match opRow? x.req.opcode with | some r => opDeadline s r x.req | none => 50) } ∧
         (∀ j, j ≠ k → t.mbxOf j = s.mbxOf j)) ∧
       (∀ st, s.refusal mb x = some st → Does (.commandAccept mb) s fun t =>
         (t.mbxOf k).state = 4 ∧ (t.mbxOf k).status = st ∧ (t.mbxOf k).rsp = [] ∧ ∀ j, j ≠ k → t.mbxOf j = s.mbxOf j)) ∧
     (s.restarting = true → Does (.commandAccept mb) s fun t => (t.mbxOf k).state = 3 ∧ (t.mbxOf k).detail = 2 ∧ ∀ j, j ≠ k → t.mbxOf j = s.mbxOf j) ∧
     (s.restarting = false → s.flag F.hubIdStatReady = false → ¬((x.req.opcode = 0 ∨ x.req.opcode = 1) ∧ 2 ≤ s.rd F.hubIdStatBoot) →
       Does (.commandAccept mb) s fun t => (t.mbxOf k).state = 3 ∧ (t.mbxOf k).detail = 1 ∧ ∀ j, j ≠ k → t.mbxOf j = s.mbxOf j))) ∧
  (∀ (msg : DrpMsg) (s v : State) (p : Packet) (q : Nat), s.takeLocal (isType PT.ctrl) = some (p, q, v) → s.dice = [] →
    (drpOk msg = true → (∀ (mb : MbxRef) (st d : Nat) (y : List Byte), msg.body ≠ .answer mb st d y) → Does (.ctrlReceive msg) s fun t =>
      t.agent = { s.agent with rxq := s.agent.rxq ++ [msg] } ∧ Counted { v with agent := t.agent } t) ∧
    (∀ (mb : MbxRef) (st d n : Nat) (y : List Byte), drpOk msg = true → msg.body = .answer mb st d y → (mb, 2, n) ∈ s.waitCmds →
      (s.mbxOf (mbxKey mb)).state = 2 → Does (.ctrlReceive msg) s fun t => ∃ u : State,
        Counted { v with waitCmds := s.waitCmds.filter fun w => decide (w.1 ≠ mb) } u ∧ Answered mb st d y u t) ∧
    (drpOk msg = false → Does (.ctrlReceive msg) s fun t => t.local_ = v.local_ ∧ t.agent = s.agent ∧ s.rseq ≤ t.rseq))

/-- The controller has restarted: every accepted command is DONE with CONTROL_RESTART, nothing waits, and it starts again from its ROM. -/
def Sys2Proof.Claims.Restarted (s t : State) : Prop :=
  t.restarting = true ∧ t.waitCmds = [] ∧ t.flag F.hubIdStatReady = false ∧ t.rd F.hubIdStatRestarts = (s.rd F.hubIdStatRestarts + 1) % 256 ∧
  ∀ k, (s.mbxOf k).state = 2 → (t.mbxOf k).state = 4 ∧ (t.mbxOf k).status = St.controlRestart

/-- The controller (13 R303 to R306; 16 R403, R404; 19 R451): its watchdog, a lockstep mismatch and its reset start it again; a second mismatch within 24
hours of use is fatal; when it is ready again a newer image raises the floor, and a conductor at its first start leads or follows. -/
def Obligations.ControllerRestarts : Prop :=
  (∀ (mb : MbxRef) (s : State), mb.idx < setSize mb.set → (s.mbxOf (mbxKey mb)).state = 2 →
    ((s.mbxOf (mbxKey mb)).deadline + 100000000 ≤ s.rackTime → Does (.controlWatchdog mb) s fun t => Claims.Restarted s t ∧ s.rseq ≤ t.rseq) ∧
    (s.rackTime < (s.mbxOf (mbxKey mb)).deadline + 100000000 → exec (.controlWatchdog mb) s = .next s)) ∧
  (∀ (s : State), Does .lockstepMismatch s fun t => Claims.Restarted s t ∧
    ((∃ h ∈ s.mismatchHours, s.rd F.ledgHoursHoursMain < h + 240) → t.phys.fatal = true) ∧
    ((∀ h ∈ s.mismatchHours, h + 240 ≤ s.rd F.ledgHoursHoursMain) →
      t.mismatchHours = [s.rd F.ledgHoursHoursMain] ∧ t.phys.fatal = s.phys.fatal)) ∧
  (∀ (s : State), Does .hubReset s fun t => Claims.Restarted s t ∧ t.trust.activating = false ∧
    (s.trust.image = [] → t.rd F.hubIdStatBoot = 3) ∧
    (s.trust.image ≠ [] → s.imageFails s.trust.image = none → t.rd F.hubIdStatBoot = 3 ∧ t.trust.version = fieldAt s.trust.image 8 4 ∧
      t.trust.svn = fieldAt s.trust.image 12 1) ∧
    (s.trust.image ≠ [] → s.imageFails s.trust.image ≠ none → t.rd F.hubIdStatBoot = 2 ∧ t.trust.recovering = true)) ∧
  (∀ (s : State), s.flag F.hubIdStatReady = false → s.flag F.ledgStatMounted = true → s.trust.recovering = false → s.phys.standby = true →
    Does .controllerReady s fun t => t.flag F.hubIdStatReady = true ∧ t.rd F.hubIdStatBoot = 6 ∧ t.restarting = false ∧
      t.trust.floorVersion = Nat.max s.trust.floorVersion s.trust.version ∧
      (s.rd F.condStatMode ≠ 0 → t.rd F.condStatMode = s.rd F.condStatMode) ∧
      (s.rd F.condStatMode = 0 → s.planLive = true → s.plan.primary = s.self → t.rd F.condStatMode = 1 ∧ t.rd F.condStatRole = 1 ∧ t.rd F.condStatCterm = 1) ∧
      (s.rd F.condStatMode = 0 → s.planLive = true → s.plan.primary ≠ s.self → s.plan.secondary = s.self →
        t.rd F.condStatMode = 3 ∧ t.rd F.condStatRole = 2 ∧ t.rd F.condStatCterm = 1) ∧
      t.mbx = s.mbx)

/-- Interrupts and the host's access (13 R308, R309, R311, R330, R331; 12 R300): clearing and unmasking vectors, writes of mailbox images, of the window and of
what takes no write, and function resets. -/
def Obligations.InterruptsAndHostAccess : Prop :=
  (∀ (mask events : BitVec 64) (s : State), Does (.irqClear mask events) s fun t =>
    (∀ v, v < 46 → (t.reg .hubIrqStat 0).getLsbD v = ((s.reg .hubIrqStat 0).getLsbD v && !mask.getLsbD v || events.getLsbD v)) ∧
    (∀ v, v < 46 → events.getLsbD v = true → mask.getLsbD v = true → (s.reg .hubIrqMask 0).getLsbD v = false →
      (s.msixTable.getD (2 * v + 1) (1 <<< 32)).getLsbD 32 = false → .msix v ∈ t.out) ∧ CountedIrq s t) ∧
  (∀ (mask : BitVec 64) (s : State), Does (.irqUnmask mask) s fun t =>
    t.rd F.hubIrqMaskMask = mask.toNat % 2 ^ 46 ∧ t.reg .hubIrqStat 0 = s.reg .hubIrqStat 0 ∧
    (∀ v, v < 46 → (s.reg .hubIrqMask 0).getLsbD v = true → mask.getLsbD v = false → (s.reg .hubIrqStat 0).getLsbD v = true →
      (if (s.msixTable.getD (2 * v + 1) (1 <<< 32)).getLsbD 32 then t.pba.getLsbD v = true else .msix v ∈ t.out)) ∧
    ∃ rg c b o, t = { s with regs := rg, cnt := c, pba := b, out := s.out ++ o }) ∧
  (∀ (k o size : Nat) (value : BitVec 64) (s : State), k < 32 → 8 ≤ o → o < 4096 → 1 ≤ size → o % 8 + size ≤ 8 →
    (let off := 0x100000 + 4096 * k + o
     (s.flag F.hubMbxCtlOwn k = false → Does (.bar0Write off size value) s fun t =>
       (∀ i, i < size → t.mbxByte k (o + i) = value.extractLsb' (8 * i) 8) ∧
       (∀ k' o', o' < 4096 → (k' ≠ k ∨ o' < o ∨ o + size ≤ o') → t.mbxByte k' o' = s.mbxByte k' o') ∧
       Counted { s with mbxImage := t.mbxImage } t) ∧
     (s.flag F.hubMbxCtlOwn k = true → Does (.bar0Write off size value) s fun t => t.flag F.hubMbxCtlWriteOwned k = true ∧
       ∃ rg c, t = { s with regs := rg, cnt := c }))) ∧
  (∀ (off size : Nat) (value : BitVec 64) (s : State), 8 < off % 8 + size → Does (.bar0Write off size value) s (Counted s)) ∧
  (∀ (off size : Nat) (value : BitVec 64) (s : State), 1 ≤ size → off % 8 + size ≤ 8 → (off < 0x1000 ∨ 0x200000 ≤ off ∧ off < 0x830000) →
    Does (.bar0Write off size value) s fun t => t.flag F.hubIdStatBarWriteDrop = true ∧ ∃ rg c, t = { s with regs := rg, cnt := c }) ∧
  (∀ (value : BitVec 64) (s : State), Does (.bar0Write 0x2000 8 value) s fun t => t.reg .hubPcieWin 0 = value &&& 0x3FF ∧
    ∃ rg c, t = { s with regs := rg, cnt := c }) ∧
  (∀ (kind : PcieReset) (s : State), Does (.pcieFunctionReset kind) s fun t => t.msixTable = [] ∧ t.pba = 0 ∧ t.rd F.hubPcieWinBase = 0 ∧
    (∀ ch, ch < 8 → t.flag F.hubPcieDmactlRun ch = false) ∧ (kind = .linkDown → t.phys.pcieUp = false ∧ t.mbx = s.mbx) ∧
    (kind ≠ .linkDown → ∀ k, k < 32 → t.flag F.hubMbxCtlIrqEn k = false ∧
      ((s.mbxOf k).state = 1 → (t.mbxOf k).state = 3 ∧ (t.mbxOf k).detail = 3) ∧ ((s.mbxOf k).state ≠ 1 → t.mbxOf k = s.mbxOf k)) ∧
    (kind = .flr → ∀ e ∈ t.hello, e.1 ≠ 0))

/-! ### Conductor commands and the conductor's log (13 R317; 14 R333 to R354; 15 R369, R384) -/

/-- The conductor commands: the row, its opcode, and the requests of its form. -/
def Sys2Proof.Claims.condRows : List ((MbxRef → Instr) × Nat × (List Byte → Bool)) := [
  (.planStage, 0x0200, fun _ => true), (.planAdopt, 0x0201, fun _ => true), (.planRead, 0x0202, fun _ => true),
  (.condStatus, 0x0203, fun _ => true), (.rollcallRead, 0x0204, fun _ => true), (.adoptDiscovered, 0x0205, fun _ => true),
  (.eventRead, 0x0206, fun _ => true), (.rackSequence, 0x0207, fun p => decide (fieldAt p 1 1 % 2 = 0)),
  (.rackSequenceStop, 0x0207, fun p => decide (fieldAt p 1 1 % 2 = 1)), (.sliceAlloc, 0x0300, fun _ => true),
  (.sliceRelease, 0x0301, fun _ => true), (.sliceQuery, 0x0302, fun _ => true), (.sliceMark, 0x0303, fun _ => true),
  (.groupDefine, 0x0400, fun _ => true), (.groupDelete, 0x0401, fun _ => true), (.groupReform, 0x0402, fun _ => true),
  (.shardWrite, 0x0505, fun _ => true), (.shardRead, 0x0506, fun _ => true), (.capSet, 0x0600, fun _ => true),
  (.hostRequestOff, 0x0601, fun p => decide (fieldAt p 1 1 = 0)), (.hostRequestOn, 0x0601, fun p => decide (fieldAt p 1 1 = 1)),
  (.hostRequestCap, 0x0601, fun p => decide (fieldAt p 1 1 = 2)), (.hostRequestClearCap, 0x0601, fun p => decide (fieldAt p 1 1 = 3)),
  (.unitFence, 0x0806, fun p => decide (fieldAt p 0 1 ≠ 1) && decide (fieldAt p 4 1 % 2 = 0)),
  (.unitFenceRelease, 0x0806, fun p => decide (fieldAt p 0 1 ≠ 1) && decide (fieldAt p 4 1 % 2 = 1))]

/-- The report in which a conductor command travels, and the log entry it becomes at the conductor that accepted it. -/
def Sys2Proof.Claims.cmdReport (s : State) (mb : MbxRef) (x : MbxSt) : Report := .rcsCmd s.self mb x.role x.req.opcode x.req.payload

def Sys2Proof.Claims.cmdEntry (s : State) (mb : MbxRef) (x : MbxSt) : LogEntry :=
  { index := s.cond.nextIdx, rtime := s.rackTime, agent := s.self, aseq := s.agent.aseq, report := Claims.cmdReport s mb x }

/-- A conductor that acts alone and has nothing to run. -/
def Sys2Proof.Claims.Alone (s : State) : Prop := s.rd F.condStatMode = 2 ∧ s.rd F.condStatRole ≠ 0 ∧ s.cond.ready = []

/-- The state in which a conductor alone runs a command it has just logged. -/
def Sys2Proof.Claims.Logged (s v : State) (mb : MbxRef) (x : MbxSt) : Prop :=
  ∃ lg ou rg c al, v = { s with
    cond := { s.cond with log := s.cond.log ++ [Claims.cmdEntry s mb x], nextIdx := s.cond.nextIdx + 1, lastRun := s.cond.nextIdx,
                          seenInputs := (s.self, s.agent.aseq) :: s.cond.seenInputs },
    agent := { s.agent with aseq := s.agent.aseq + 1 }, waitCmds := s.waitCmds ++ [(mb, 2, 0)],
    ledger := { s.ledger with queue := lg }, out := ou, regs := rg, cnt := c, always := al } ∧ SameRegs s v [.cntSel, .condStat]

/-- A conductor command (13 R317; 14 R338): at the acting conductor it enters the log and is forwarded, and its mailbox waits; a
conductor alone with nothing else to run runs it at once; elsewhere it is reported to the acting conductor, or answered
CONDUCTOR_UNREACHABLE when that has not been heard for 3 ms. -/
def Obligations.ConductorCommandsAreLogged : Prop :=
  ∀ q ∈ Claims.condRows, ∀ (mb : MbxRef) (s : State) (x : MbxSt), s.ready? mb q.2.1 = some x → q.2.2 x.req.payload = true →
    (s.sequences = true → ¬Claims.Alone s → Settles (q.1 mb) s fun t =>
      t.cond.log = s.cond.log ++ [Claims.cmdEntry s mb x] ∧ t.cond.nextIdx = s.cond.nextIdx + 1 ∧ .pairForward (Claims.cmdEntry s mb x) ∈ t.out ∧
      t.waitCmds = s.waitCmds ++ [(mb, 2, 0)] ∧ t.agent = { s.agent with aseq := s.agent.aseq + 1 } ∧ t.mbx = s.mbx ∧
      t.cond = { s.cond with log := t.cond.log, nextIdx := t.cond.nextIdx, seenInputs := t.cond.seenInputs, ready := t.cond.ready }) ∧
    (Claims.Alone s → Settles (q.1 mb) s fun t => ∃ v : State, Claims.Logged s v mb x ∧
      t = (v.runCommand ⟨s.self, mb, x.role, x.req.opcode, x.req.payload⟩).afterEntry) ∧
    (s.sequences = false → s.hearsActing = true → Settles (q.1 mb) s fun t =>
      t.waitCmds = s.waitCmds ++ [(mb, 2, 0)] ∧ t.agent.unacked = s.agent.unacked ++ [(s.agent.aseq, Claims.cmdReport s mb x)] ∧
      t.out = s.out ++ [.report (Claims.cmdReport s mb x) s.agent.aseq] ∧ t.cond = s.cond ∧ t.mbx = s.mbx) ∧
    (s.sequences = false → s.hearsActing = false → Settles (q.1 mb) s fun t => Answered mb St.unreachable 0 [] s t)

/-- No procedure runs and no stage is under way. -/
def Sys2Proof.Claims.Quiet (s : State) : Prop := s.cond.procs = [] ∧ s.cond.stopping = false ∧ s.cond.target ≤ s.cond.stage

/-- What a conductor command that reads answers, where it can. -/
def Sys2Proof.Claims.condReads : List ((MbxRef → Instr) × Nat × (State → List Byte → Option (List Byte))) := [
  (.planRead, 0x0202, fun s p => some (((s.ledger.plan.getD []).drop (fieldAt p 0 4)).take (fieldAt p 4 2))),
  (.condStatus, 0x0203, fun s _ => some (leBytes 2 s.plan.primary ++ leBytes 2 s.plan.secondary ++ leBytes 1 (s.rd F.condStatMode) ++
    leBytes 2 (s.rd F.condStatCterm) ++ leBytes 1 s.cond.stage ++ s.pair.lastHealth)),
  (.rollcallRead, 0x0204, fun s p =>
    let m := fieldAt p 0 2
    if m ∈ s.plan.modules then some ((List.range 144).flatMap fun k => leBytes 1 (match s.cond.outcomes.find (256 * m + k) with
      | some o => o % 16
      | none => 0xFF)) else none),
  (.eventRead, 0x0206, fun s p => some (((s.cond.events.filter fun e => decide (fieldAt p 0 8 < e.1)).take 288).flatMap fun e =>
    leBytes 8 e.1 ++ leBytes 2 e.2.1 ++ leBytes 4 e.2.2)),
  (.sliceQuery, 0x0302, fun s p => (s.cond.slices.find? fun x => decide (x.num = fieldAt p 0 1)).map fun x =>
    leBytes 1 x.num ++ leBytes 1 x.r0 ++ leBytes 1 x.h ++ leBytes 1 x.c0 ++ leBytes 1 x.w ++ leBytes 1 (if x.verify then 1 else 0) ++
      leBytes 2 x.links ++ leBytes 1 (if x.held then 1 else 0)),
  (.shardRead, 0x0506, fun s p => some (((s.cond.shards.filter fun e => decide (fieldAt p 0 2 ≤ e.1)).take (Nat.min 84 (fieldAt p 2 2))).flatMap
    fun e => shardBytes e.2))]

/-- Commands that a conductor alone answers at once (14 R333, R345; 05 R122; 10 R251; 15 R369, R384): reads, shards, caps of the rack
manager and the hosts, a group formed anew. -/
def Obligations.ConductorCommandsAnswered : Prop :=
  (∀ q ∈ Claims.condReads, ∀ (mb : MbxRef) (s : State) (x : MbxSt), s.ready? mb q.2.1 = some x → Claims.Alone s → Claims.Quiet s →
    Settles (q.1 mb) s fun t => ∃ v : State, Claims.Logged s v mb x ∧ (match q.2.2 s x.req.payload with
      | some rsp => Answered mb St.ok 0 rsp { v with waitCmds := v.waitCmds.filter fun w => !(decide (w.1 = mb) && decide (w.2.1 = 2)) } t
      | none => Answered mb St.field 0 [] { v with waitCmds := v.waitCmds.filter fun w => !(decide (w.1 = mb) && decide (w.2.1 = 2)) } t)) ∧
  (∀ (mb : MbxRef) (s : State) (x : MbxSt), Claims.Alone s → Claims.Quiet s →
    (let p := x.req.payload
     let k := mbxKey mb
     let sh := shardAt p
     let tray := fieldAt p 0 1
     (s.ready? mb 0x0505 = some x → sh.shard < 4096 → Settles (.shardWrite mb) s fun t =>
       (t.mbxOf k).status = St.ok ∧ t.cond.shards.find sh.shard = some sh) ∧
     (∀ g, s.ready? mb 0x0402 = some x → s.cond.groups.find (fieldAt p 0 2) = some g → s.groupHeld g = false → Settles (.groupReform mb) s fun t =>
       (t.mbxOf k).status = St.ok ∧ (t.cond.groups.find (fieldAt p 0 2)).map (fun y => (y.gepoch, y.suspended)) = some ((g.gepoch + 1) % 65536, false)) ∧
     (s.ready? mb 0x0600 = some x → fieldAt p 4 1 ≤ 40 → p.length = 8 + 4 * fieldAt p 4 1 →
       (∀ i, i < fieldAt p 4 1 → (fieldAt p (8 + 4 * i) 1 < 32 ∨ 64 ≤ fieldAt p (8 + 4 * i) 1 ∧ fieldAt p (8 + 4 * i) 1 < 72) ∧
         fieldAt p (9 + 4 * i) 1 / 8 % 2 = 0) → Settles (.capSet mb) s fun t =>
       (t.mbxOf k).status = St.ok ∧ (t.mbxOf k).rsp = leBytes 8 (s.cond.machineTime + 30000000000) ∧ t.cond.rmCap = some (fieldAt p 0 4) ∧
         t.cond.leaseExpiry = s.cond.machineTime + 30000000000 ∧ t.cond.orphan = false) ∧
     (tray ∈ s.plan.trays → tray ≠ 0xFF → x.role ≠ .host → s.ready? mb 0x0601 = some x →
       (fieldAt p 1 1 = 0 → Settles (.hostRequestOff mb) s fun t => (t.mbxOf k).status = St.ok ∧ tray ∈ t.cond.trayOff) ∧
       (fieldAt p 1 1 = 1 → tray ∈ s.cond.trayPermit → Settles (.hostRequestOn mb) s fun t => (t.mbxOf k).status = St.ok ∧ tray ∉ t.cond.trayOff) ∧
       (fieldAt p 1 1 = 1 → tray ∉ s.cond.trayPermit → Settles (.hostRequestOn mb) s fun t =>
         (t.mbxOf k).status = St.notPermitted ∧ t.cond.trayOff = s.cond.trayOff) ∧
       (fieldAt p 1 1 = 2 → Settles (.hostRequestCap mb) s fun t => (t.mbxOf k).status = St.ok ∧ t.cond.trayHostCap.find tray = some (fieldAt p 2 2)) ∧
       (fieldAt p 1 1 = 3 → Settles (.hostRequestClearCap mb) s fun t => (t.mbxOf k).status = St.ok ∧ t.cond.trayHostCap.find tray = none)) ∧
     (tray = 0xFF → s.ready? mb 0x0601 = some x →
       (fieldAt p 1 1 = 0 → Settles (.hostRequestOff mb) s fun t => (t.mbxOf k).status = St.notPermitted ∧ t.cond.trayOff = s.cond.trayOff) ∧
       (fieldAt p 1 1 = 2 → Settles (.hostRequestCap mb) s fun t =>
         (t.mbxOf k).status = St.ok ∧ t.cond.moduleHostCap.find s.self = some (fieldAt p 2 2)) ∧
       (fieldAt p 1 1 = 3 → Settles (.hostRequestClearCap mb) s fun t => (t.mbxOf k).status = St.ok ∧ t.cond.moduleHostCap.find s.self = none))))

/-- What the commands that take their time begin (14 R335, R343 to R349; 05 R107): a plan comes into force or is refused, a sequence starts
or stops, a slice is made or drained, a group is defined or its deletion asked for, a unit is fenced. -/
def Obligations.ConductorCommandsBegin : Prop :=
  (∀ (v : State) (r : CondReq) (b : StageBuf) (p : Plan), r.opcode = 0x0201 → (v.stages.find 0).filter (fun b => b.final) = some b →
    fieldAt r.payload 0 48 = (sha384 b.data).toNat → planOf b.data = some p →
    (p.ok = true → v.cond.slices = [] → (v.runCommand r).plan = p ∧ (v.runCommand r).planLive = true ∧ (v.runCommand r).planHash = sha384 b.data) ∧
    (p.ok = false → v.runCommand r = v.says r St.planInvalid)) ∧
  (∀ (v : State) (r : CondReq), r.opcode = 0x0205 →
    (let ports := v.plan.ports.filterMap fun e => (v.discovered e.1 e.2).map fun x => (e.1, x)
     ({ v.plan with ports := ports } : Plan).ok = true → v.cond.slices = [] → (v.runCommand r).plan = { v.plan with ports := ports } ∧ (v.runCommand r).planLive = true)) ∧
  (∀ (v : State) (r : CondReq), r.opcode = 0x0207 → v.cond.stopping = false →
    (fieldAt r.payload 1 1 % 2 = 0 → v.cond.target ≤ v.cond.stage → v.cond.stage < fieldAt r.payload 0 1 → fieldAt r.payload 0 1 ≤ 6 → v.mayStart = true →
      (v.runCommand r).cond.target = fieldAt r.payload 0 1 ∧ (v.runCommand r).cond.seqMbx = some (r.module, r.mb)) ∧
    (fieldAt r.payload 1 1 % 2 = 0 → v.cond.stage < v.cond.target → v.runCommand r = v.says r St.running) ∧
    (fieldAt r.payload 1 1 % 2 = 1 → fieldAt r.payload 0 1 ≤ 6 →
      (v.runCommand r).cond.stopping = true ∧ (v.runCommand r).cond.target = fieldAt r.payload 0 1 ∧
      (v.runCommand r).cond.seqMbx = some (r.module, r.mb))) ∧
  (∀ (v : State) (r : CondReq) (links : Nat), r.opcode = 0x0300 →
    (let f (i : Nat) : Nat := fieldAt r.payload i 1
     let x : Slice := { num := f 0, r0 := f 1, h := f 2, c0 := f 3, w := f 4, links := 0,
                        verify := decide (f 5 % 2 = 1) || v.plan.verifySlices.contains (f 0) }
     f 0 ≠ 0 → f 1 < v.plan.g → 1 ≤ f 2 → f 2 ≤ v.plan.g → f 3 < v.plan.m → 1 ≤ f 4 → f 4 ≤ v.plan.m →
       (v.cond.stage ≠ 6 → v.runCommand r = v.says r St.notPermitted) ∧
       (v.cond.stage = 6 → v.cond.stopping = false →
         ((∃ o ∈ v.cond.slices, o.num = f 0) → v.runCommand r = v.says r St.sliceConflict) ∧
         ((∀ o ∈ v.cond.slices, o.num ≠ f 0 ∧ ∀ ep ∈ v.plan.epsIn o, ep ∉ v.plan.epsIn x) → v.plan.linksFor v.cond.slices x = some links →
           v.cond.pairs = [] → (∀ ep ∈ v.plan.epsIn x, v.cond.endpoints.getD ep 0 = 0 ∧ v.condFenced ep = false) →
           (∃ y ∈ (v.runCommand r).cond.slices, y.num = f 0 ∧ y.r0 = f 1 ∧ y.h = f 2 ∧ y.c0 = f 3 ∧ y.w = f 4 ∧ y.links = links) ∧
           ∃ p ∈ (v.runCommand r).cond.procs, p.kind = .alloc (f 0) ∧ p.tags = [(r.module, r.mb)] ∧ p.rsp = leBytes 2 links)))) ∧
  (∀ (v : State) (r : CondReq) (x : Slice), v.sliceOf (fieldAt r.payload 0 1) = some x →
    (let n := fieldAt r.payload 0 1
     (r.opcode = 0x0301 → (∀ p ∈ v.cond.procs, n ∉ p.slices) →
       ∃ p ∈ (v.runCommand r).cond.procs, p.kind = .release n ∧ p.stage = 3 ∧ p.slices = [x.num] ∧ p.tags = [(r.module, r.mb)]) ∧
     (r.opcode = 0x0303 → ∀ y ∈ (v.runCommand r).cond.slices, y.num = n → y.verify = decide (fieldAt r.payload 1 1 % 2 = 1)))) ∧
  (∀ (v : State) (r : CondReq) (x : Slice), r.opcode = 0x0400 →
    (let d := groupReq r.payload
     v.sliceOf d.slice = some x → x.held = false → v.cond.groups.find d.group = none →
       (groupFits d x = true → (v.runCommand r).cond.groups.find d.group = some { dfn := d, r0 := x.r0, c0 := x.c0, height := x.h, width := x.w }) ∧
       (groupFits d x = false → v.runCommand r = v.says r St.groupInvalid))) ∧
  (∀ (v : State) (r : CondReq) (g : Group), r.opcode = 0x0401 → v.cond.groups.find (fieldAt r.payload 0 2) = some g →
    (v.groupHeld g = true → v.runCommand r = v.says r St.running) ∧
    (v.groupHeld g = false → ∃ p ∈ (v.runCommand r).cond.procs, p.kind = .groupDelete (fieldAt r.payload 0 2) ∧ p.stage = 4 ∧ p.tags = [(r.module, r.mb)])) ∧
  (∀ (v : State) (r : CondReq), r.opcode = 0x0806 → fieldAt r.payload 0 1 = 2 → fieldAt r.payload 2 2 ∈ v.plan.endpoints →
    (fieldAt r.payload 4 1 % 2 = 0 → .endpoint (fieldAt r.payload 2 2) ∈ (v.runCommand r).cond.fenced) ∧
    (fieldAt r.payload 4 1 % 2 = 1 → r.role ≠ .rm → v.runCommand r = v.says r St.notPermitted)) ∧
  (∀ (v w : State) (r : CondReq) (im : List Byte), r.opcode = 0x0200 →
    v.stagePiece 0 r.mb { role := r.role, session := 65536 + r.module, state := 2, reqLen := r.payload.length,
                          req := { opcode := r.opcode, verMaj := 1, verMin := 0, token := 0, payload := r.payload } } = (w, .whole im) →
    v.runCommand r = w.says r St.ok (leBytes 48 (sha384 im).toNat))

/-- An entry of the log runs: it leaves the queue and is the last one run; what the machine makes of it has the property, and then procedures
and stages go on. -/
def Sys2Proof.Claims.Runs (c : Instr) (s : State) (e : LogEntry) (rest : List LogEntry) (P : State → Prop) : Prop :=
  s.rd F.condStatRole ≠ 0 → s.rd F.condStatMode ∈ [1, 2, 3, 4] → s.cond.ready = e :: rest →
    Settles c s fun t => ∃ v : State, (∃ rg, v = { s with regs := rg, cond := { s.cond with ready := rest, lastRun := e.index } }) ∧
      v.rd F.condStatLogidx = e.index % 2 ^ 32 ∧ t = (v.runReport e).afterEntry ∧ P (v.runReport e)

/-- The machine runs the oldest entry that may be run (14 R338, R341, R346, R350, R352, R354; 05 R121, R125; 15 R373, R378 to R380), each kind by its
row: outcomes and links, pulls, missing ranks and their probes, bindings, drain counts, errors, commands, results, sensors, time. -/
def Obligations.LogEntriesRun : Prop :=
  ∀ (s : State) (e : LogEntry) (rest : List LogEntry),
    (∀ (m p far : Nat) (o : Outcome341), e.report = .rollcall m p o far → s.cond.rollcallOpen = true →
      (∃ k ∈ s.plan.ports, k.1 ≠ 256 * m + p ∧ s.cond.outcomes.find k.1 = none) → Claims.Runs .rollcall s e rest fun u =>
        u.cond.outcomes.find (256 * m + p) = some (outcomeCode o + 16 * far) ∧ (256 * m + p ∈ u.cond.active ↔ o = .expected)) ∧
    (∀ (m p : Nat) (up : Bool), e.report = .linkEvent m p up → s.cond.rollcallOpen = true → Claims.Runs .linkEvent s e rest fun u =>
      u.cond.outcomes.find (256 * m + p) = some (if up then 0 else 1) ∧ (256 * m + p ∈ u.cond.active ↔ up = true)) ∧
    (∀ (m i : Nat), e.report = .pull m i → Claims.Runs .pull s e rest fun u =>
      (∀ a ∈ s.plan.ports, a.1 / 256 = m → a.2.presence = some i →
        (a.2.cls = 0 → ∀ ep ∈ s.plan.endpoints, s.plan.trayOf ep = a.2.tray → .endpoint ep ∈ u.cond.fenced) ∧
        (a.2.cls ≠ 0 → ∀ id ∈ trayModules (moduleTray a.2.farId), .module id ∈ u.cond.fenced))) ∧
    (∀ (m slot step gid : Nat) (ranks : List Nat) (g : Group), e.report = .missingRanks m slot step ranks → s.boundGroup m slot = some (gid, g) →
      Claims.Runs .missingRanks s e rest fun u =>
        ((∀ r ∈ ranks, s.epState (s.rankEp g r) ≠ 2) →
          (∀ r ∈ ranks, ∃ v ∈ u.cond.verifies, v.module = m ∧ v.slot = slot ∧ v.step = step ∧ v.rank = r) ∧
          (∀ v ∈ u.cond.verifies, v.module = m → v.slot = slot → v.step = step → v.rank ∈ ranks)) ∧
        (∀ r ∈ ranks, s.epState (s.rankEp g r) = 2 →
          (∀ v ∈ s.cond.verifies, v.module = m → v.slot = slot → v.step = step → v.rank ≠ r) →
          ∃ r' ∈ ranks, s.epState (s.rankEp g r') = 2 ∧ .endpoint (s.rankEp g r') ∈ u.cond.fenced)) ∧
    (∀ (m slot g : Nat) (bound : Bool), e.report = .binding m slot g bound → Claims.Runs .binding s e rest fun u =>
      u.cond.bindings = (s.cond.bindings.filter fun b => !(decide (b.1 = m) && decide (b.2.1 = slot))) ++ (if bound then [(m, slot, g)] else [])) ∧
    (∀ (m sl a b c : Nat), e.report = .drainState m sl a b c → Claims.Runs .drainState s e rest fun u =>
      u.cond.procs = s.cond.procs.map fun p => if p.stage = 3 ∧ sl ∈ p.slices then
        { p with waiting := (if a = 0 ∧ b = 0 ∧ c = 0 then [] else [1024 * sl + m]) ++ p.waiting.filter fun w => decide (w ≠ 1024 * sl + m) } else p) ∧
    (∀ (m code sev i : Nat), e.report = .error m code sev i → Claims.Runs .inputError s e rest fun u =>
      (sev = 3 → code ≠ E.endpointStall → code ≠ E.leakCut → code ≠ E.memChannelFailed → .module m ∈ u.cond.fenced) ∧
      (code = E.leakCut → ∀ id ∈ trayModules (moduleTray m), .module id ∈ u.cond.fenced) ∧
      (code = E.memChannelFailed → ∀ a ∈ u.cond.shards, a.2.module = m → a.2.lost = true) ∧
      (∀ x : PortPlan, code = E.endpointStall → s.plan.ports.find (256 * m + i % 256) = some x → x.cls = 0 → .endpoint x.endpoint ∈ u.cond.fenced)) ∧
    (∀ (m op : Nat) (mb : MbxRef) (role : Role) (p : List Byte), e.report = .rcsCmd m mb role op p → Claims.Runs .rcsCmd s e rest fun u =>
      ∃ rg, u = ({ s with regs := rg, cond := { s.cond with ready := rest, lastRun := e.index } } : State).runCommand ⟨m, mb, role, op, p⟩) ∧
    (∀ (m d : Nat), e.report = .result m d St.ok → Claims.Runs .result s e rest fun u =>
      u.cond.outs = (s.cond.outs.filter fun o => !(decide (o.dseq = d) && decide (o.agent = m))) ∧ 1024 * d + m ∉ u.cond.stageWait ∧
      ∀ p ∈ u.cond.procs, p.stage ≠ 3 → 1024 * d + m ∉ p.waiting) ∧
    (∀ (x : SensorReport), e.report = .sensor x → Claims.Runs .sensor s e rest fun u =>
      (∀ n, x = .pump n → u.cond.pumps = n) ∧ (∀ l p d, x = .flow l p d → u.cond.flowLpm = l ∧ u.cond.flowP = p ∧ u.cond.flowDt = d) ∧
      (∀ t, x = .leakTray t → t ∈ u.cond.leaks ∧ ∃ o ∈ u.cond.outs, o.agent = 256 + t ∧ o.body = .powerDomain false) ∧
      (∀ t r, x = .ropeFaulted t r → t ∈ u.cond.degradedTrays) ∧ (∀ t r, x = .ropeGood t r → t ∉ u.cond.degradedTrays)) ∧
    (∀ (ep : Nat) (v : Verify), e.report = .probeResult ep false → s.cond.verifies.find? (fun v => decide (v.ep = ep) && !v.alive) = some v →
      Claims.Runs .probeResult s e rest fun u => .endpoint ep ∈ u.cond.fenced) ∧
    (∀ (m p : Nat), e.report = .linkProbeLost m p → Claims.Runs .probeResult s e rest fun u => .link m p ∈ u.cond.fenced) ∧
    (e.report = .timer → Claims.Runs .timer s e rest fun u => u.cond.machineTime = e.rtime)

/-- A deadline that the machine's clock has passed. -/
def Sys2Proof.Claims.IsDue (s : State) (d : Due) : Prop := s.runsMachine = true ∧ ∃ x ∈ s.cond.dues, x.2 = d ∧ x.1 ≤ s.cond.machineTime

/-- Deadlines (14 R341, R345, R346, R350; 15 R369, R374, R378, R381): a stage's, the roll call's, a drain's, the lease's, the flow's, the cross-check's, a
leak's, a probe's. -/
def Obligations.DeadlinesFallDue : Prop :=
  (∀ (s : State), Claims.IsDue s .stage → Settles .stageTimeout s fun t => ∃ u : State, t = u.afterEntry ∧
    ∀ w ∈ s.cond.stageWait, w % 1024 < 256 → .module (w % 1024) ∈ u.cond.fenced) ∧
  (∀ (s : State), Claims.IsDue s .rollcall → s.cond.rollcallOpen = true → Settles .rollcallClose s fun t => ∃ u : State, t = u.afterEntry ∧
    u.cond.rollcallOpen = false ∧ ∀ e ∈ s.plan.ports, (u.cond.outcomes.find e.1).isSome = true) ∧
  (∀ (s : State) (p : Proc), s.runsMachine = true → s.cond.procs = [p] → p.stage = 3 → p.waiting ≠ [] → p.deadline ≤ s.cond.machineTime →
    Settles .drainForced s fun t => ∃ u : State, t = u.afterEntry ∧ u.cond.procs = [{ p with waiting := [] }] ∧
      ∀ x ∈ s.cond.slices, x.num ∈ p.slices → ∀ m ∈ s.liveModules, s.plan.slicePorts x m ≠ [] →
        ∃ o ∈ u.cond.outs, o.agent = m ∧ o.body = .streamCut x.num) ∧
  (∀ (s : State), s.runsMachine = true → s.cond.leaseExpiry ≠ 0 → s.cond.orphan = false →
    (s.cond.leaseExpiry ≤ s.cond.machineTime → Settles .leaseExpired s fun t => t.cond.orphan = true ∧ t.cond.trayCaps = [] ∧ s.rseq ≤ t.rseq) ∧
    (s.cond.machineTime < s.cond.leaseExpiry → exec .leaseExpired s = .next s.settle)) ∧
  (∀ (s : State), Claims.IsDue s .flowStop → s.cond.flowLow = true → Settles .flowStop s fun t => ∃ u : State, t = u.afterEntry ∧
    u.cond.stopping = true ∧ u.cond.target = 1) ∧
  (∀ (s : State) (since : Nat), s.runsMachine = true → s.cond.flowFaulted = false → s.cond.flowSince = some since →
    since + 60000000000 ≤ s.cond.machineTime → Settles .flowCrosscheck s fun t => t.cond.flowFaulted = true ∧ t.cond.flowSince = none ∧ s.rseq ≤ t.rseq) ∧
  (∀ (tray : Nat) (s : State), Claims.IsDue s (.leakDecide tray) → Settles (.leakDecide tray) s fun t => ∃ u : State, t = u.afterEntry ∧
    (∃ p ∈ u.cond.procs, p.kind = .trayOff tray ∧ p.stage = 3) ∧ ∀ d ∈ u.cond.dues, d.2 ≠ .leakDecide tray) ∧
  (∀ (port : Nat) (s : State), port < 144 → (∃ p ∈ s.agent.probesOut, p.1 = port ∧ p.2 + 100000 ≤ s.rackTime) →
    Settles (.probeTimeout port) s fun t => t.stage port = Stage.fenced ∧ (∀ p ∈ t.agent.probesOut, p.1 ≠ port) ∧
      ∃ n, (n, .linkProbeLost s.self port) ∈ t.agent.unacked)

/-! ### Commands of the conductor at their agent (14 R336, R337, R339, R352, R356; 15 R370, R379) -/

/-- The row that brings each body of a command. -/
def Sys2Proof.Claims.DrpRow (b : CmdBody) (row : DrpMsg → Instr) : Prop := match b with
  | .fence _ => row = .drpFence
  | .fenceRelease _ => row = .drpFenceRelease
  | .powerCap _ _ _ _ => row = .drpPowerCap
  | .powerDomain _ => row = .drpPowerDomain
  | .powerClearCut => row = .drpPowerClearCut
  | .tableWrite _ _ _ => row = .drpTableWrite
  | .tableSwitch _ _ => row = .drpTableSwitch
  | .ingressHold _ _ => row = .drpIngressHold
  | .sliceRelease _ => row = .drpSliceRelease
  | .groupDefine _ _ _ _ _ => row = .drpGroupDefine
  | .groupDelete _ _ => row = .drpGroupDelete
  | .groupReform _ _ _ => row = .drpGroupReform
  | .plan _ => row = .drpPlan
  | .stage _ => row = .drpStage
  | .instanceEnd _ _ _ _ _ => row = .drpInstanceEnd
  | .probe _ => row = .drpProbe
  | .region _ _ _ _ _ => row = .drpRegion
  | .streamCut _ => row = .drpStreamCut

/-- A copy of a command waits for this module, which has accepted a term. -/
def Sys2Proof.Claims.Came (s : State) (m : DrpMsg) (b : CmdBody) : Prop :=
  m.body = .cmd b ∧ m.agent = s.self ∧ m.dclass = 4 ∧ m.ethernet = false ∧ m ∈ s.agent.rxq ∧ s.rd F.condStatCterm ≠ 0

/-- The module as it acts on a copy just received: acknowledged, taken, its number kept. -/
def Sys2Proof.Claims.acting (s : State) (m : DrpMsg) : State :=
  { s with out := s.out ++ [.ack s.self m.seq],
           agent := { s.agent with rxq := s.agent.rxq.erase m, seen := (m.seq :: s.agent.seen.filter fun x => decide (x ≠ m.seq)).take 4096 } }

/-- The module after a command: its result is reported, that of a table switch once the tables have switched (03 R57; POWER_OFF where MAIN is off). -/
def Sys2Proof.Claims.concluded (r : State × Nat) (m : DrpMsg) (b : CmdBody) : State :=
  match b with
  | .tableSwitch gen _ =>
    if r.1.flag F.hubIdStatMainOn then { r.1 with agent := { r.1.agent with switchTold := r.1.agent.switchTold ++ [(m.seq, gen)] } }
    else r.1.report (.result r.1.self m.seq St.powerOff)
  | _ => r.1.report (.result r.1.self m.seq r.2)

/-- A copy of a command that is the first of its number, of the current term, and need not wait for its pair, is acted on at once, and its
result reported; what the module is then and the status have the property. -/
def Sys2Proof.Claims.Acts (row : DrpMsg → Instr) (s : State) (m : DrpMsg) (b : CmdBody) (P : State → State → Nat → Prop) : Prop :=
  Claims.Came s m b → m.cterm = s.rd F.condStatCterm → m.reassert = false → s.agent.later m.seq = false →
  (cmdCritical b = true → (∀ h ∈ s.agent.held, h.seq ≠ m.seq) ∧ s.hearsBoth = false) →
  Settles (row m) s fun t =>
    let r := (Claims.acting s m).applyCmd b
    t = Claims.concluded r m b ∧ P (Claims.acting s m) r.1 r.2

/-- Which copies are acted on (14 R356): of a lower or higher term none; a repeat is acknowledged only; of a critical command that both
conductors can send, the first copy waits, and the second, equal to it, makes it act; a waiting copy whose window ends is acted on. -/
def Sys2Proof.Claims.CommandCopies : Prop :=
  (∀ (b : CmdBody) (row : DrpMsg → Instr) (s : State) (m : DrpMsg), Claims.DrpRow b row → Claims.Came s m b →
    (m.cterm ≠ s.rd F.condStatCterm → exec (row m) s = .next { s with agent := { s.agent with rxq := s.agent.rxq.erase m } }) ∧
    (m.cterm = s.rd F.condStatCterm → m.reassert = false → s.agent.later m.seq = true → Settles (row m) s fun t =>
      t = { s with out := s.out ++ [.ack s.self m.seq], agent := { s.agent with rxq := s.agent.rxq.erase m } }) ∧
    (m.cterm = s.rd F.condStatCterm → m.reassert = false → s.agent.later m.seq = false → cmdCritical b = true →
      ((∀ h ∈ s.agent.held, h.seq ≠ m.seq) → s.hearsBoth = true → Settles (row m) s fun t =>
        t = { s with out := s.out ++ [.ack s.self m.seq],
                     agent := { s.agent with rxq := s.agent.rxq.erase m, held := s.agent.held ++ [{ m with critical := true }] } }) ∧
      (∀ (h : DrpMsg), s.agent.held = [h] → h.seq = m.seq → h.secondary ≠ m.secondary → h.digest = m.digest → h.body = .cmd b → s.dice = [] →
        Settles (row m) s fun t => ∃ v : State, v = { Claims.acting s m with agent := { (Claims.acting s m).agent with held := [] } } ∧
          t = Claims.concluded (v.applyCmd b) m b)) ∧
    (m.cterm = s.rd F.condStatCterm → m.reassert = true → Settles (row m) s fun t =>
      t = Claims.concluded ((Claims.acting s m).applyCmd b) m b)) ∧
  (∀ (s : State) (m : DrpMsg) (rest : List DrpMsg) (b : CmdBody), s.agent.held = m :: rest → m.body = .cmd b → Settles .pairWindow s fun t =>
    ∃ v : State, v.agent.held = rest ∧ m.seq ∈ v.agent.seen ∧ s.rseq ≤ v.rseq ∧
      t = Claims.concluded (v.applyCmd b) m b)

/-- What each command does (14 R337, R348 to R354; 15 R370, R379; 05 R124, R125; 10 R247): fences and their release, power, tables, holds, slices,
groups, plans, stages, ends of instances, probes, regions, cuts of streams. -/
def Obligations.CommandsTakeEffect : Prop :=
  ∀ (s : State) (m : DrpMsg),
    (∀ u, Claims.Acts .drpFence s m (.fence u) fun v r st => st = St.ok ∧ (∀ p ∈ v.unitPorts u, p < 144 → r.stage p = Stage.fenced) ∧
      ∀ ep, u = .endpoint ep → ep ∈ r.agent.epFenced) ∧
    (∀ u, Claims.Acts .drpFenceRelease s m (.fenceRelease u) fun _ r st => st = St.ok ∧ ∀ ep, u = .endpoint ep → ep ∉ r.agent.epFenced) ∧
    (∀ w src ex sv, Claims.Acts .drpPowerCap s m (.powerCap w src ex sv) fun v r st => st = St.ok ∧
      r.power = { v.power with cap := some w, capSource := src, capExpiry := ex, survivalW := sv, brakeOrdered := decide (src = 1), orphan := none }) ∧
    (∀ on, Claims.Acts .drpPowerDomain s m (.powerDomain on) fun v r st =>
      (on = true → v.phys.leakCut = false → v.phys.standby = true → st = St.ok ∧ r.phys.trayMainEn = true ∧ .pin "TRAY_MAIN_EN" true ∈ r.out) ∧
      (on = true → (v.phys.leakCut = true ∨ v.phys.standby = false) → st = St.notPermitted ∧ r = v) ∧
      (on = false → st = St.ok ∧ r.phys.trayMainEn = false ∧ r.phys.mainPg = false ∧ .pin "TRAY_MAIN_EN" false ∈ r.out)) ∧
    (Claims.Acts .drpPowerClearCut s m .powerClearCut fun v r st =>
      ((∀ k, k < 4 → v.ropeUsed k = true → v.ropeState k = 0 ∧ (v.rd F.pwrLeakFaulted).testBit k = false) → st = St.ok ∧ r.phys.leakCut = false) ∧
      ((∃ k, k < 4 ∧ v.ropeUsed k = true ∧ (v.ropeState k ≠ 0 ∨ (v.rd F.pwrLeakFaulted).testBit k = true)) → st = St.notPermitted ∧ r = v)) ∧
    (∀ tb i es, Claims.Acts .drpTableWrite s m (.tableWrite tb i es) fun v r st =>
      (∀ w, v.writeTable tb i es = some w → st = St.ok ∧ r = w) ∧ (v.writeTable tb i es = none → st = St.field ∧ r = v)) ∧
    (∀ g t, Claims.Acts .drpTableSwitch s m (.tableSwitch g t) fun v r st => st = St.ok ∧ r = { v with agent := { v.agent with pendingSwitch := some (g, t) } }) ∧
    (∀ ports set, Claims.Acts .drpIngressHold s m (.ingressHold ports set) fun v r st => st = St.ok ∧
      (∀ p, p < 144 → r.flag F.portIngctlHold p = if ports.testBit p then set else v.flag F.portIngctlHold p)) ∧
    (∀ sl, Claims.Acts .drpSliceRelease s m (.sliceRelease sl) fun v r st => st = St.ok ∧ r.shadow.sliceLset.find sl = none ∧
      r.shadow.sliceCols.find sl = none ∧ (∀ e ∈ r.shadow.spray, e.1 / 1024 ≠ sl) ∧ (∀ e ∈ r.shadow.portSlice, e.2 ≠ 256 + sl) ∧
      (∀ e ∈ r.shadow.regions, e.2.slice ≠ sl) ∧ sl ∉ r.verifySlices ∧ r.tables = v.tables) ∧
    (∀ d a b h w, Claims.Acts .drpGroupDefine s m (.groupDefine d a b h w) fun v r st => st = St.ok ∧
      r = { v with groups := v.groups.insert d.group { dfn := d, r0 := a, c0 := b, height := h, width := w } }) ∧
    (∀ g, Claims.Acts .drpGroupDelete s m (.groupDelete g true) fun v r st => r = v ∧
      ((∀ e ∈ v.slots, ∀ b ∈ e.2.bound, b.group = g → ∀ i ∈ v.insts, i.1 / 65536 ≠ e.1) → st = St.ok) ∧
      ((∃ e ∈ v.slots, ∃ b ∈ e.2.bound, b.group = g ∧ ∃ i ∈ v.insts, i.1 / 65536 = e.1) → st = St.running)) ∧
    (∀ g, Claims.Acts .drpGroupDelete s m (.groupDelete g false) fun _ r st => st = St.ok ∧ r.groups.find g = none ∧
      ∀ e ∈ r.slots, ∀ b ∈ e.2.bound, b.group ≠ g) ∧
    (∀ gid ge vac, Claims.Acts .drpGroupReform s m (.groupReform gid ge vac) fun v r st => st = St.ok ∧
      r.groups.find gid = (v.groups.find gid).map fun g => { g with gepoch := ge, vacant := vac, suspended := false }) ∧
    (∀ im, Claims.Acts .drpPlan s m (.plan im) fun v r st => st = St.ok ∧ r.ledger.queue = v.ledger.queue ++ [CommitReq.mk 8 0 im none 0]) ∧
    (∀ c, c < 8 → Claims.Acts .drpStage s m (.stage c) fun _ r st => st = St.ok ∧ r.rd F.condStatStage = c) ∧
    (∀ home slot g step status, Claims.Acts .drpInstanceEnd s m (.instanceEnd home slot g step status) fun v r st => st = St.ok ∧
      (home = v.self → (v.slot slot).helper = none → ∀ n i, n < 65536 → (∀ x, step = some x → x = n) → v.inst? slot n = some i → i.status = none →
        ((r.inst? slot n).bind fun j => j.status) = some status)) ∧
    (∀ ep, Claims.Acts .drpProbe s m (.probe ep) fun v r st => st = St.ok ∧
      (v.agent.aseq, .probeResult ep (decide (v.memberLinks (ep % 32) ≠ []) && !v.epFenced ep)) ∈ r.agent.unacked) ∧
    (∀ i base size sl mode, Claims.Acts .drpRegion s m (.region i base size sl mode) fun v r st =>
      (let g : Region := { base := base, size := size, slice := sl, mode := mode }
       (v.regionFits i g = true → st = St.ok ∧ r = v.putRegion i g) ∧ (v.regionFits i g = false → st = St.regionInvalid ∧ r = v))) ∧
    (∀ sl, Claims.Acts .drpStreamCut s m (.streamCut sl) fun v r st => st = St.ok ∧ v.rseq ≤ r.rseq ∧
      ∀ k, (v.run k).live = true → (v.streamOf (k % 1024)).slice = sl → (r.run k).live = false ∨ (r.run k).ending.isSome = true)

/-- Acknowledgements and resends (14 R336, R339): an acknowledged report or output waits no longer; one that is not is sent again over the Ethernet,
at most 50 times. -/
def Sys2Proof.Claims.AcknowledgementsAndResends : Prop :=
  (∀ (agent seq : Nat) (s : State),
    (agent = s.self → Does (.drpAckReceive true agent seq) s fun t => t.agent.unacked = s.agent.unacked.filter (fun e => decide (e.1 ≠ seq)) ∧
      Counted { s with agent := t.agent } t) ∧
    Does (.drpAckReceive false agent seq) s fun t =>
      t.cond = { s.cond with outs := s.cond.outs.filter fun o => !(decide (o.dseq = seq) && decide (o.agent = agent)) } ∧
      Counted { s with agent := t.agent, cond := t.cond } t) ∧
  (∀ (seq : Nat) (r : Report) (s : State), s.agent.unacked.find? (fun e => decide (e.1 = seq)) = some (seq, r) →
    (s.agent.resends.getD (2 * seq + 1) 0 < 50 → Does (.drpResend true s.self seq) s fun t => t.out = s.out ++ [.report r seq] ∧
      t.agent.resends.getD (2 * seq + 1) 0 = s.agent.resends.getD (2 * seq + 1) 0 + 1 ∧ Counted { s with agent := t.agent, out := t.out } t) ∧
    (50 ≤ s.agent.resends.getD (2 * seq + 1) 0 → exec (.drpResend true s.self seq) s = .next s)) ∧
  (∀ (agent seq : Nat) (o : CondOut) (s : State), s.cond.outs.find? (fun o => decide (o.dseq = seq) && decide (o.agent = agent)) = some o →
    s.agent.resends.getD (2 * seq) 0 < 50 → Does (.drpResend false agent seq) s fun t =>
      t.out = s.out ++ [.drp true agent (s.outMsg o false true)] ∧ t.agent.resends.getD (2 * seq) 0 = s.agent.resends.getD (2 * seq) 0 + 1 ∧
      Counted { s with agent := t.agent, out := t.out } t)

/-! ### The pair of conductors (14 R336, R338 to R340, R355 to R364; 16 R388) -/

/-- The report is logged as the next entry: stored, forwarded to the other conductor, its commit asked for. -/
def Sys2Proof.Claims.Entered (s t : State) (agent aseq : Nat) (r : Report) : Prop :=
  let e : LogEntry := { index := s.cond.nextIdx, rtime := s.rackTime, agent := agent, aseq := aseq, report := r }
  t.cond.log = s.cond.log ++ [e] ∧ t.cond.nextIdx = s.cond.nextIdx + 1 ∧ .pairForward e ∈ t.out ∧ t.cond.dseq = s.cond.dseq ∧
    (r ≠ .timer → (agent, aseq) ∈ t.cond.seenInputs)

/-- How the pair keep in touch and keep one log (14 R336, R338 to R340, R363): heartbeats out and in, inputs logged once, TIMER entries, entries
forwarded and acknowledged, digests, checkpoints, self-tests, health. -/
def Obligations.PairKeepsOneLog : Prop :=
  (∀ (s : State), (s.rd F.condStatMode = 1 ∨ s.rd F.condStatMode = 2 ∨ s.rd F.condStatMode = 3) → Does .heartbeatSend s fun t =>
    t.out = s.out ++ s.others.map (fun m => .heartbeat m (s.rd F.condStatCterm)) ∧
      (s.rd F.condStatRole = 1 → t.agent.heardPrimary = some s.rackTime) ∧ (s.rd F.condStatRole = 2 → t.agent.heardSecondary = some s.rackTime) ∧
      Counted { s with out := t.out, agent := t.agent } t) ∧
  (∀ (primary : Bool) (cterm : Nat) (s : State), s.rd F.condStatCterm ≤ cterm → Does (.heartbeatReceive primary cterm) s fun t =>
    (if primary then t.agent.heardPrimary = some s.rackTime else t.agent.heardSecondary = some s.rackTime) ∧ t.power = { s.power with orphan := none } ∧
      t.rd F.condStatCterm = (if s.rd F.condStatCterm = 0 then cterm % 65536 else s.rd F.condStatCterm)) ∧
  (∀ (m : DrpMsg) (r : Report) (s : State), m.body = .report r → r ≠ .timer → m.dclass = 2 → s.sequences = true → m.agent = s.self →
    (m.seq, r) ∈ s.agent.unacked →
    ((m.agent, m.seq) ∉ s.cond.seenInputs → Does (.inputReceive m) s fun t => Claims.Entered s t m.agent m.seq r ∧
      t.agent.unacked = s.agent.unacked.filter fun e => decide (e.1 ≠ m.seq)) ∧
    ((m.agent, m.seq) ∈ s.cond.seenInputs → Does (.inputReceive m) s fun t => t.cond = s.cond ∧
      t.agent.unacked = s.agent.unacked.filter fun e => decide (e.1 ≠ m.seq))) ∧
  (∀ (m : DrpMsg) (r : Report) (s : State), m.body = .report r → r ≠ .timer → m.dclass = 2 → s.sequences = true → m.agent ≠ s.self →
    m.ethernet = false → m ∈ s.agent.rxq →
    ((m.agent, m.seq) ∉ s.cond.seenInputs → Does (.inputReceive m) s fun t => Claims.Entered s t m.agent m.seq r ∧ .inputAck m.agent m.seq ∈ t.out ∧
      t.agent = { s.agent with rxq := s.agent.rxq.erase m }) ∧
    ((m.agent, m.seq) ∈ s.cond.seenInputs → exec (.inputReceive m) s =
      .next { s with agent := { s.agent with rxq := s.agent.rxq.erase m }, out := s.out ++ [.inputAck m.agent m.seq] })) ∧
  (∀ (s : State), s.sequences = true → Does .timerEntryWrite s fun t => Claims.Entered s t s.self 0 .timer ∧ t.cond.seenInputs = s.cond.seenInputs) ∧
  (∀ (e : LogEntry) (s : State), (s.rd F.condStatMode = 3 ∨ s.rd F.condStatMode = 4) → e.index = s.cond.nextIdx →
    Does (.pairForwardReceive e) s fun t => t.cond.log = s.cond.log ++ [e] ∧ t.cond.nextIdx = s.cond.nextIdx + 1 ∧ t.cond.ready = s.cond.ready ∧
      t.ledger.queue = s.ledger.queue ++ [CommitReq.mk 10 (e.index % 65536) (entryBytes e) none 0]) ∧
  (∀ (i : Nat) (s : State), s.rd F.condStatMode = 1 → s.cond.committed < i → Does (.pairAckReceive i) s fun t =>
    t.cond = { s.cond with committed := i,
                           ready := s.cond.ready ++ s.cond.log.filter fun e => decide (s.cond.committed < e.index) && decide (e.index ≤ i) } ∧
    Counted { s with cond := t.cond } t) ∧
  (∀ (s : State), s.runsMachine = true →
    (Does .digestExchange s fun t => t.out = s.out ++ [.pairDigests s.pair.newDigests] ∧ t.pair = { s.pair with newDigests := [] } ∧
      Counted { s with out := t.out, pair := t.pair } t) ∧
    Does .conductorCheckpoint s fun t => t.pair.ckptIndex = s.cond.lastRun ∧ t.ckpts.head? = some (s.cond.lastRun, s.cond) ∧ t.ckpts.length ≤ 2 ∧
      t.cond = { s.cond with log := t.cond.log } ∧ (∀ e ∈ s.cond.log, s.cond.lastRun < e.index → (∀ k ∈ s.ckpts, k.1 < s.cond.lastRun) → e ∈ t.cond.log)) ∧
  (∀ (ds : List (Nat × BitVec 128)) (s : State), s.dice = [] → s.pair.peerDigests = [] → (∀ d ∈ ds, s.cond.dseq ≤ d.1) →
    Does (.digestReceive ds) s fun t => t.pair.peerDigests = ds ∧ t.cond = s.cond ∧ t.rd F.condStatMode = s.rd F.condStatMode) ∧
  (∀ (d : Nat × BitVec 128) (o : CondOut) (s : State), s.dice = [] → s.pair.peerDigests = [] → d.1 < s.cond.dseq → s.pair.sent = [o] → o.dseq = d.1 →
    (outDigest o = d.2 → s.rd F.condStatMode = 4 → Does (.digestReceive [d]) s fun t => t.pair.shadowMatches = s.pair.shadowMatches + 1) ∧
    (outDigest o ≠ d.2 →
      (s.rd F.condStatMode = 1 → Does (.digestReceive [d]) s fun t => t.rd F.condStatMode = 2 ∧ s.rackTime ∈ t.pair.divergences ∧ s.rseq ≤ t.rseq) ∧
      (s.rd F.condStatMode = 3 → Does (.digestReceive [d]) s fun t => t.rd F.condStatMode = 5 ∧ t.cond.ready = []) ∧
      (s.rd F.condStatMode = 4 → Does (.digestReceive [d]) s fun t => (t.rd F.condStatMode = 5 ∨ t.rd F.condStatMode = 6) ∧
        s.rackTime ∈ t.pair.shadowFails))) ∧
  (∀ (pass : Bool) (s : State), s.rd F.condStatRole ≠ 0 → s.rd F.condStatMode ≠ 0 → s.rd F.condStatMode ≠ 6 → Does (.selftest pass) s fun t =>
    t.rd F.condSelftestLastPass = (if pass then 1 else 0) ∧ (pass = false → s.rackTime ∈ t.pair.selftestFails) ∧
    (pass = true → t.rd F.condStatMode = s.rd F.condStatMode ∧ t.cond = s.cond) ∧
    (pass = false → s.rd F.condStatMode = 1 → s.pair.selftestFails = [] → t.rd F.condStatMode = 3 ∧ t.agent.acting = s.partner) ∧
    (pass = false → 2 ≤ (s.pair.selftestFails.filter fun x => decide (s.rackTime ≤ x + 3600000000000)).length → t.rd F.condStatMode = 6)) ∧
  (∀ (s : State), s.rd F.condStatRole ≠ 0 → s.rd F.condStatMode ≠ 0 → Does .healthSend s fun t => ∃ div,
    t.out = s.out ++ [.health (s.rd F.condStatMode) (s.rd F.condStatCterm) (s.cond.nextIdx - 1) s.pair.ckptIndex
      (s.flag F.condSelftestLastPass) div s.phys.timeOffset] ∧ div ≤ s.pair.divergences.length ∧ t.cond = s.cond)

/-- How control passes (14 R355 to R362, R364): takeover, votes, a new term, a lost secondary, restart from a checkpoint, shadow, failback, handover. -/
def Obligations.ControlPasses : Prop :=
  (∀ (s : State), s.rd F.condStatMode = 3 → s.pair.takeoverTerm = none → s.recent s.partnerHeard 2999999 = false → Does .takeover s fun t =>
    t.pair = { s.pair with takeoverTerm := some (s.rd F.condStatCterm + 1), votes := [s.self], refusals := [] } ∧
    t.out = s.out ++ s.others.map (fun a => .drpCast 1 (s.rd F.condStatCterm + 1) s.self a 0) ∧ t.rd F.condStatMode = 3) ∧
  (∀ (cterm c : Nat) (s : State), c = s.plan.primary ∨ c = s.plan.secondary → s.rd F.condStatCterm < cterm →
    (∀ x, s.agent.castle = some x → x.1 ≠ cterm) → s.agent.handbackSeen = false →
    (s.recent (if c = s.plan.primary then s.agent.heardSecondary else s.agent.heardPrimary) 1999999 = false → Does (.takeoverReceive cterm c) s fun t =>
      t.agent = { s.agent with castle := some (cterm, c) } ∧ t.out = s.out ++ [.drpCast 2 cterm s.self c 0] ∧
      Counted { s with agent := t.agent, out := t.out } t) ∧
    (s.recent (if c = s.plan.primary then s.agent.heardSecondary else s.agent.heardPrimary) 1999999 = true → Does (.takeoverReceive cterm c) s fun t =>
      t.out = s.out ++ [.drpCast 3 cterm s.self c 0] ∧ Counted { s with out := t.out } t)) ∧
  (∀ (cterm c : Nat) (s : State), c = s.plan.primary ∨ c = s.plan.secondary → cterm ≤ s.rd F.condStatCterm →
    (∀ x, s.agent.castle = some x → x.1 = cterm → x.2 = c) → Does (.takeoverReceive cterm c) s fun t =>
      t.out = s.out ++ [.drpCast 3 cterm s.self c 0] ∧ Counted { s with out := t.out } t) ∧
  (∀ (v cterm : Nat) (s : State), s.rd F.condStatMode = 3 → s.pair.takeoverTerm = some cterm → v ∈ s.others → cterm < 65536 →
    (s.plan.modules.length < 2 * (v :: s.pair.votes.filter fun x => decide (x ≠ v)).length → Does (.voteReceive v cterm true) s fun t =>
      t.rd F.condStatMode = 2 ∧ t.rd F.condStatCterm = cterm ∧ t.agent.acting = s.self ∧ t.cond.nextIdx = s.cond.committed + 1 ∧
      (∀ e ∈ t.cond.log, e.index ≤ s.cond.committed) ∧ ∀ a ∈ s.everyAgent, .drpCast 4 cterm s.self a s.self ∈ t.out) ∧
    (2 * (v :: s.pair.votes.filter fun x => decide (x ≠ v)).length ≤ s.plan.modules.length → 2 * s.pair.refusals.length < s.plan.modules.length →
      Does (.voteReceive v cterm true) s fun t => t.pair = { s.pair with votes := v :: s.pair.votes.filter fun x => decide (x ≠ v) } ∧
        Counted { s with pair := t.pair } t) ∧
    (2 * s.pair.votes.length ≤ s.plan.modules.length → s.plan.modules.length ≤ 2 * (v :: s.pair.refusals.filter fun x => decide (x ≠ v)).length →
      Does (.voteReceive v cterm false) s fun t => t.rd F.condStatMode = 5 ∧ t.pair.takeoverTerm = none ∧
        ∀ a ∈ s.others, .drpCast 5 cterm s.self a 0 ∈ t.out)) ∧
  (∀ (cterm c a : Nat) (s : State), (c = s.plan.primary ∨ c = s.plan.secondary) → (a = s.plan.primary ∨ a = s.plan.secondary) →
    s.rd F.condStatCterm < cterm → cterm < 65536 → (∀ x, s.agent.castle = some x → x.1 ≠ cterm) → Does (.confirm cterm c a) s fun t =>
      t.rd F.condStatCterm = cterm ∧ t.agent.acting = a ∧ t.agent.held = [] ∧ t.agent.castle = some (cterm, c) ∧ t.power.orphan = none ∧
      (s.sequences = true → a ≠ s.self → t.rd F.condStatMode = 5 ∧ t.cond.ready = []) ∧
      (s.sequences = false → t.rd F.condStatMode = s.rd F.condStatMode) ∧ ∀ e ∈ s.agent.unacked, .report e.2 e.1 ∈ t.out) ∧
  (∀ (cterm : Nat) (s : State), s.rd F.condStatMode = 3 → s.pair.takeoverTerm = some cterm → Does (.withdraw cterm) s fun t =>
    t.rd F.condStatMode = 5 ∧ t.pair.takeoverTerm = none) ∧
  (∀ (cterm c : Nat) (s : State), s.pair.takeoverTerm = none → s.agent.castle = some (cterm, c) → s.rd F.condStatCterm < cterm →
    Does (.withdraw cterm) s fun t => t.agent = { s.agent with castle := none } ∧ Counted { s with agent := t.agent } t) ∧
  (∀ (s : State), s.rd F.condStatMode = 1 → s.recent s.partnerHeard 2999999 = false → Does .secondaryLost s fun t =>
    t.rd F.condStatMode = 2 ∧ t.cond.ready = s.cond.ready ++ (s.cond.log.filter fun e => decide (s.cond.committed < e.index)) ∧
    t.cond.committed = s.cond.nextIdx - 1 ∧ s.rseq ≤ t.rseq) ∧
  (∀ (k : Nat) (es : List LogEntry) (s : State), s.rd F.condStatMode = 5 → Does (.coldRestart k es) s fun t =>
    t.rd F.condStatMode = 4 ∧ t.cond.log = (es.filter fun e => decide (k < e.index)) ∧ t.cond.ready = [] ∧ t.out = s.out ∧
    t.agent = s.agent ∧ t.pair.shadowMatches = 0 ∧ t.pair.shadowSince = some s.rackTime ∧ t.cond.lastRun + 1 = t.cond.nextIdx) ∧
  (∀ (k : Nat) (ckpt : Bool) (s : State), s.sequences = true → Does (.logFetchReceive k ckpt) s fun t =>
    t.pair = { s.pair with shadowMatches := 0, shadowSince := some s.rackTime } ∧
    (ckpt = true → t.out = s.out ++ [.pairCkpt s.cond.lastRun, .pairEntries (s.cond.log.filter fun e => decide (s.cond.lastRun < e.index))]) ∧
    (ckpt = false → (∀ e, s.cond.log.head? = some e → e.index ≤ k) → (s.cond.log = [] → s.cond.nextIdx ≤ k) →
      t.out = s.out ++ [.pairEntries (s.cond.log.filter fun e => decide (k ≤ e.index))])) ∧
  (∀ (late : Bool) (s : State), s.shadowDone late = true →
    (s.rd F.condStatMode = 4 → s.rd F.condStatRole = 2 → Does (.shadowComplete late) s fun t => t.rd F.condStatMode = 3 ∧ t.cond = s.cond) ∧
    (s.rd F.condStatMode = 4 → s.rd F.condStatRole = 1 → Does (.shadowComplete late) s fun t => t.rd F.condStatMode = 4 ∧
      t.out = s.out ++ [.drpCast 6 (s.rd F.condStatCterm) s.self s.partner 0]) ∧
    (s.rd F.condStatMode = 2 → s.rd F.condStatRole = 1 → Does (.shadowComplete late) s fun t => t.rd F.condStatMode = 1 ∧ t.cond = s.cond)) ∧
  (∀ (s : State), s.rd F.condStatMode = 2 → s.rd F.condStatRole = 2 → s.rd F.condStatCterm < 65535 → Does .failback s fun t =>
    t.rd F.condStatMode = 3 ∧ t.rd F.condStatCterm = s.rd F.condStatCterm + 1 ∧ t.agent.acting = s.partner ∧ t.cond.committed = s.cond.nextIdx - 1 ∧
    .drpCast 7 (s.rd F.condStatCterm) s.self s.partner (s.cond.nextIdx - 1) ∈ t.out ∧
    ∀ a ∈ s.everyAgent, .drpCast 4 (s.rd F.condStatCterm + 1) s.self a s.partner ∈ t.out) ∧
  (∀ (i : Nat) (s : State),
    ((s.rd F.condStatMode = 4 ∧ s.rd F.condStatRole = 1) ∨ s.rd F.condStatMode = 3 → Does (.handback i) s fun t => t.rd F.condStatMode = 1 ∧
      t.agent.acting = s.self ∧ t.cond.nextIdx = i + 1 ∧ t.cond.committed = i ∧ t.cond.log = s.cond.log.filter fun e => decide (e.index ≤ i)) ∧
    (s.rd F.condStatMode = 0 → Does (.handback i) s fun t => t.agent = { s.agent with handbackSeen := true } ∧ Counted { s with agent := t.agent } t))

/-! ### Power, temperature, leaks, presence, rack time (14 R347, R353, R354; 15 R365 to R382) -/

/-- With no record kept and no die loaded, a record of the code and unit is in the ring, with its severity. -/
def Sys2Proof.Claims.Recorded (s t : State) (code inst : Nat) : Prop :=
  s.errs = [] → s.dice = [] → ∃ e ∈ t.errs, e.2.code = code ∧ e.2.inst = inst ∧ e.2.sev = severityOf code

/-- Main power is gone: the main domain is in reset, VDD_CORE off. -/
def Sys2Proof.Claims.MainGone (t : State) : Prop := t.flag F.hubIdStatMainOn = false ∧ t.phys.mainPg = false ∧ t.phys.vddCore = 0

/-- The governor, the brake, undervoltage, the orphan share, the thermal limit, the trip, faulted sensors (15 R365, R366, R370 to R372, R376, R377). -/
def Obligations.PowerAndTemperature : Prop :=
  (∀ (w : Nat) (s : State), Does (.powerEstimate w) s fun t =>
    (let est := (Int.ofNat w + s.power.calib).toNat
     let a := ({ s.power with estimate := est } : Power).adjust (t.rd F.pwrStatLimitW)
     t.power.estimate = est ∧ t.power.uj = (s.power.uj + est) % 1000000 ∧
     t.power.duty = a.duty ∧ t.power.cmdRate = a.cmdRate ∧ t.power.depositRate = a.depositRate ∧ t.power.pacing = a.pacing ∧
     (1000 ≤ s.power.winN + 1 → t.rd F.pwrStatPowerW = Nat.min 2047 ((s.power.winSum + est) / 1000) ∧ t.power.winN = 0) ∧
     (s.power.winN + 1 < 1000 → t.rd F.pwrStatPowerW = s.rd F.pwrStatPowerW ∧ t.power.winN = s.power.winN + 1))) ∧
  (∀ (p : Power) (limit : Nat),
    (limit < p.estimate → 1 < p.duty → p.adjust limit = { p with duty := p.duty - 1 }) ∧
    (limit < p.estimate → p.duty ≤ 1 → 1 < p.cmdRate → p.adjust limit = { p with cmdRate := p.cmdRate - 1 }) ∧
    (limit < p.estimate → p.duty ≤ 1 → p.cmdRate ≤ 1 → 1 < p.depositRate → p.adjust limit = { p with depositRate := p.depositRate - 1 }) ∧
    (limit < p.estimate → p.duty ≤ 1 → p.cmdRate ≤ 1 → p.depositRate ≤ 1 → 1 < p.pacing → p.adjust limit = { p with pacing := p.pacing - 1 })) ∧
  (∀ (s : State), s.effective.2 ≤ 1500 ∧ (∀ e ∈ s.otherLimits, s.effective.2 ≤ e.2) ∧
    (s.flag F.pwrStatBrakeIn = true → s.effective.2 ≤ clampW (s.rd F.pwrCfgBrakeW))) ∧
  (∀ (w : Nat) (s : State), exec (.governorRecalibrate w) s =
    .next { s with power := { s.power with calib := s.power.calib + (Int.ofNat w - Int.ofNat s.power.estimate), estimate := w } }) ∧
  (∀ (ns : Nat) (s : State), s.flag F.pwrStatBrakeIn = false → Does (.brakeAssert ns) s fun t => t.flag F.pwrStatBrakeIn = true ∧
    t.rd F.pwrBrakeCount = (s.rd F.pwrBrakeCount + 1) % 2 ^ 32 ∧ t.rd F.pwrBrakeRespNs = Nat.min ns 65535 ∧ t.power.brakeTime = s.rackTime ∧
    t.rd F.pwrStatLimitW ≤ clampW (s.rd F.pwrCfgBrakeW) ∧ t.always.getD 3 0 = (s.always.getD 3 0 + 1) % 2 ^ 64) ∧
  (∀ (s : State), s.flag F.pwrStatBrakeIn = true → s.flag F.pwrStatBrakeOut = false → Does .brakeRelease s fun t =>
    t.flag F.pwrStatBrakeIn = false ∧ t.power = { s.power with ramping := some s.rackTime }) ∧
  (∀ (s : State), Does .vinUndervoltage s fun t => t.power = { s.power with uv := true } ∧ t.flag F.pwrStatBrakeOut = true ∧
    (s.flag F.pwrStatBrakeOut = false → t.out = s.out ++ [.pin "BRAKE_N" false])) ∧
  (∀ (s : State), Does .vinRecover s fun t => t.power = { s.power with uv := false } ∧ t.flag F.pwrStatBrakeOut = s.power.brakeOrdered) ∧
  (∀ (s : State), s.planLive = true → (∀ x, s.agent.heardPrimary = some x → x + 30000000000 ≤ s.rackTime) →
    (∀ x, s.agent.heardSecondary = some x → x + 30000000000 ≤ s.rackTime) → Does .orphanApply s fun t =>
      t.power = { s.power with orphan := some s.orphanShare } ∧ t.rd F.pwrStatLimitW ≤ Nat.max 700 s.orphanShare) ∧
  (∀ (temps : List Nat) (s : State), Does (.thermalLimitStep temps) s fun t =>
    (let v : State := { s with power := { s.power with temps := Tab.ofKeys 0 (List.range 104) fun k => temps.getD k 0 } }
     let h := v.hottest
     h.1 < 13 ∧ h.2 = v.dieTemp h.1 ∧ (∀ d, d < 13 → v.dieTemp d ≤ h.2) ∧
     t.rd F.pwrThermTmax = Nat.min 255 h.2 ∧ t.rd F.pwrThermDie = h.1 ∧
     (s.power.thermal = none → 95 < h.2 → t.power.thermal = some s.power.estimate) ∧ (s.power.thermal = none → h.2 ≤ 95 → t.power.thermal = none) ∧
     (∀ w, s.power.thermal = some w → (95 < h.2 → t.power.thermal = some (w - 25)) ∧ (h.2 ≤ 95 → 93 ≤ h.2 → t.power.thermal = some w) ∧
       (h.2 < 93 → t.power.thermal = if 1500 ≤ w + 25 then none else some (w + 25))))) ∧
  (∀ (die : Nat) (s : State), die < 13 → s.flag F.hubIdStatMainOn = true → s.phys.resetKind = none → Does (.thermalTrip die) s fun t =>
    Claims.MainGone t ∧ t.phys.standby = s.phys.standby ∧ Claims.Recorded s t E.thermalTrip (8 * die) ∧
    (s.errs = [] → s.dice = [] → t.phys.fatal = true)) ∧
  (∀ (die sensor reading : Nat) (s : State), die < 13 → sensor < 8 → 8 * die + sensor ∉ s.power.faultedSensors →
    Does (.sensorFault die sensor reading) s fun t => t.power.faultedSensors = (8 * die + sensor) :: s.power.faultedSensors ∧
      t.power.temps.getD (8 * die + sensor) 0 = reading ∧ t.rd F.pwrThermFaulted = (s.power.faultedSensors.length + 1) % 128 ∧
      Claims.Recorded s t E.sensorFault (8 * die + sensor))

/-- Ropes, cuts, inventory, presence contacts, rack time (14 R347, R353, R354; 15 R379 to R382). -/
def Obligations.LeaksPresenceAndTime : Prop :=
  (∀ (rope ohms : Nat) (s : State), s.ropeUsed rope = true → Does (.ropeMeasure rope ohms) s fun t =>
    t.ropeState rope = ropeClass ohms ∧ (∀ k, k < 4 → k ≠ rope → t.ropeState k = s.ropeState k) ∧ t.power.ropeOhms.getD rope 0 = ohms ∧
    (t.ropeState rope = 0 ↔ 7000 ≤ ohms ∧ ohms ≤ 13000) ∧ (t.ropeState rope = 1 ↔ 500 ≤ ohms ∧ ohms < 7000) ∧
    (t.ropeState rope = 2 ↔ 13000 < ohms) ∧ (t.ropeState rope = 3 ↔ ohms < 500)) ∧
  (∀ (rope : Nat) (s : State), s.ropeUsed rope = true → s.ropeState rope = 1 → s.power.testing ≠ some rope → s.phys.leakCut = false →
    s.phys.resetKind = none → Does (.leakCut rope) s fun t => Claims.MainGone t ∧ t.phys.leakCut = true ∧ t.phys.trayMainEn = false ∧
      .pin "TRAY_MAIN_EN" false ∈ t.out ∧ .pin "TRAY_MAIN_RST_N" false ∈ t.out ∧ Claims.Recorded s t E.leakCut (0x100 + rope)) ∧
  (∀ (rope : Nat) (s : State), s.ropeUsed rope = true → s.power.testing = none → exec (.ropeTest rope) s =
    .next { s with power := { s.power with testing := some rope }, out := s.out ++ [.pin (shuntPin rope) true] }) ∧
  (∀ (rope ohms : Nat) (wet : Bool) (s : State), s.ropeUsed rope = true → s.power.testing = some rope → Does (.ropeTestEnd rope wet ohms) s fun t =>
    (let pass := wet && decide (ropeClass ohms = 0)
     t.power.testing = none ∧ t.ropeState rope = ropeClass ohms ∧ (t.rd F.pwrLeakTestFail).testBit rope = !pass ∧
     (t.rd F.pwrLeakFaulted).testBit rope = !pass ∧ .pin (shuntPin rope) false ∈ t.out ∧
     (pass = true → (s.rd F.pwrLeakFaulted).testBit rope = true → ∃ n, (n, .sensor (.ropeGood s.tray rope)) ∈ t.agent.unacked) ∧
     (pass = false → (s.rd F.pwrLeakFaulted).testBit rope = false → ∃ n, (n, .sensor (.ropeFaulted s.tray rope)) ∈ t.agent.unacked) ∧
     (ropeClass ohms = 1 → t.phys.leakCut = true))) ∧
  (∀ (rope : Nat) (s : State), s.ropeUsed rope = true → 2 ≤ s.ropeState rope → (s.rd F.pwrLeakFaulted).testBit rope = false →
    Does (.ropeFault rope) s fun t => (t.rd F.pwrLeakFaulted).testBit rope = true ∧
      (s.agent.aseq, .sensor (.ropeFaulted s.tray rope)) ∈ t.agent.unacked ∧ t.phys = s.phys) ∧
  (∀ (f : InvRec) (s : State),
    ((∀ r ∈ s.ledger.inventory, r.cls = f.cls → r.pos = f.pos → r.state ≠ 1) → Does (.inventoryScan [f]) s fun t =>
      t.ledger.inventory = s.ledger.inventory ++ [{ f with state := 1, hours := 0, firstSeen := s.rackTime, removed := 0 }]) ∧
    (∀ r, s.ledger.inventory = [r] → r.cls = f.cls → r.pos = f.pos → r.state = 1 →
      (r.serial = f.serial → exec (.inventoryScan [f]) s = .next s) ∧
      (r.serial ≠ f.serial → Does (.inventoryScan [f]) s fun t => t.ledger.inventory =
        [{ r with state := 2, removed := s.rackTime }, { f with state := 1, hours := 0, firstSeen := s.rackTime, removed := 0 }]))) ∧
  (∀ (i : Nat) (s : State), i < 16 → (s.rd F.condPresPresent).testBit i = true → Settles (.presenceBreak i) s fun t =>
    (t.rd F.condPresPresent).testBit i = false ∧ (t.rd F.condPresPulled).testBit i = true ∧
    (∀ p, p < 144 → s.presenceOf p = some i → t.stage p = Stage.fenced) ∧ ∃ n, (n, .pull s.self i) ∈ t.agent.unacked) ∧
  (∀ (i : Nat) (s : State), i < 16 → (s.rd F.condPresPresent).testBit i = false → Does (.presenceRestore i) s fun t =>
    (t.rd F.condPresPresent).testBit i = true ∧ t.agent.presMade.getD i 0 = s.rackTime + 1 ∧ t = { s with regs := t.regs, agent := t.agent }) ∧
  (∀ (p : Nat) (s : State), s.active p = true → s.isMemberPort p = false → Does (.timeExchange p) s fun t =>
    t.out = s.out ++ [.timeStamp p s.rackTime] ∧ Counted { s with out := t.out } t) ∧
  (∀ (p t1 t2 t3 t4 : Nat) (s : State), s.active p = true → s.timeParent p = true →
    (let off : Int := ((Int.ofNat t2 - Int.ofNat t1) + (Int.ofNat t3 - Int.ofNat t4)) / 2
     (s.phys.timeSet = false → exec (.timeReceive p t1 t2 t3 t4) s =
       .next { s with phys := { s.phys with timeSet := true, timeOffset := s.phys.timeOffset + off } }) ∧
     (s.phys.timeSet = true → Does (.timeReceive p t1 t2 t3 t4) s fun t => t.phys.timeOffset = s.phys.timeOffset ∧
       t.phys.timeSlewPpm.natAbs ≤ 50 ∧ (off.natAbs ≤ 20 → s.dice = [] → t.errs = s.errs) ∧
       (20 < off.natAbs → Claims.Recorded s t E.timeDegraded s.self))))

/-! ### The ledger, recovery (16 R385 to R400, R405) -/

/-- A live group of a type and key with a payload is in a copy. -/
def Sys2Proof.Claims.Holds (l : List LedgGroup) (t k : Nat) (p : List Byte) : Prop := ∃ g ∈ l, g.type = t ∧ g.key = k ∧ g.payload = p

/-- Commits, copies, patrol, hours, power failure, the mount (16 R385, R390, R391, R394 to R400). -/
def Obligations.LedgerKeepsItsRecords : Prop :=
  (∀ (ok0 ok1 : Bool) (c : CommitReq) (rest : List CommitReq) (s : State), s.ledger.queue = c :: rest → s.flag F.ledgStatMounted = true →
    s.flag F.ledgStatProtected = false → s.phys.pwrFail = false → s.dice = [] → c.type ≠ 16 →
    (s.macroUp 0 = true ∧ ok0 = true ∨ s.macroUp 1 = true ∧ ok1 = true → Settles (.ledgerCommit ok0 ok1) s fun t =>
      (∃ more, t.ledger.queue = rest ++ more) ∧ s.ledger.nextCseq < t.ledger.nextCseq ∧
      (s.macroUp 0 = true → ok0 = true → Claims.Holds t.ledger.mr0 c.type c.key c.payload) ∧
      (s.macroUp 1 = true → ok1 = true → Claims.Holds t.ledger.mr1 c.type c.key c.payload) ∧
      (criticalType c.type = true → t.flag F.ledgStatSealOk = true ∧ Claims.Holds t.ledger.norQueue c.type c.key c.payload) ∧
      (∀ i, i < 2 → t.macroUp i = (s.macroUp i && (if i = 0 then ok0 else ok1))) ∧
      (s.macroUp 0 = true → ok0 = false → Claims.Recorded s t E.ledgerDegraded 0)) ∧
    ((s.macroUp 0 && ok0) = false → (s.macroUp 1 && ok1) = false → Settles (.ledgerCommit ok0 ok1) s fun t =>
      (∃ more, t.ledger.queue = s.ledger.queue ++ more) ∧ t.ledger.mr0 = s.ledger.mr0 ∧ t.ledger.mr1 = s.ledger.mr1 ∧ t.rd F.ledgStatMacros = 0)) ∧
  (∀ (ok : Bool) (g : LedgGroup) (rest : List LedgGroup) (b : Nat) (s : State), s.ledger.norQueue = g :: rest → g.type ≠ 9 → s.phys.pwrFail = false →
    s.flag F.ledgStatProtected = false → s.flag F.ledgStatMounted = true → s.dice = [] →
    (s.norRoom (64 * groupRecords g.type g.payload)).2 = some b →
    (ok = true → Does (.norCopy ok) s fun t => g ∈ t.ledger.nor ∧ t.ledger.norQueue = rest.filter (fun x => decide (x ≠ g)) ∧
      (t.flag F.ledgStatNorBehind = true ↔ t.ledger.norQueue ≠ [])) ∧
    (ok = false → Does (.norCopy ok) s fun t => t.ledger.norBad = b :: s.ledger.norBad ∧ t.ledger.norQueue = s.ledger.norQueue ∧ t.ledger.nor = s.ledger.nor ∧
      Claims.Recorded s t E.norProgramFail 2)) ∧
  (∀ (n : Nat) (s : State), Does (.mramPatrol n) s fun t => (n = 0 → t = s) ∧ (0 < n → Claims.Recorded s t E.mramCe 0) ∧
    t.ledger.mr0 = s.ledger.mr0 ∧ t.ledger.mr1 = s.ledger.mr1) ∧
  (∀ (b k : Nat) (s : State), s.ledger.norTime.getD b 0 ≠ 0 → s.ledger.norTime.getD b 0 + norAge ≤ s.rackTime + 1 → s.phys.pwrFail = false →
    s.flag F.ledgStatProtected = false → s.norPick = some k → Does (.norRefresh b) s fun t =>
      t.ledger.norTime.getD b 0 = 0 ∧ t.ledger.norTime.getD k 0 = s.rackTime + 1 ∧ t.ledger.norErase.getD b 0 = s.ledger.norErase.getD b 0 + 1 ∧
      t.ledger.nor = s.ledger.nor) ∧
  (∀ (s : State), s.flag F.hubIdStatMainOn = true → Does .hoursCommit s fun t =>
    (∃ c more, t.ledger.queue = s.ledger.queue ++ c :: more ∧ c.type = 1 ∧
      fieldAt c.payload 0 4 = (s.rd F.ledgHoursHoursMain + (s.ledger.queue.filter fun c => decide (c.type = 1)).length + 1) % 2 ^ 32) ∧
    t.ledger.inventory = s.ledger.inventory.map fun (r : InvRec) => if r.state = 1 then { r with hours := r.hours + 1 } else r) ∧
  (∀ (secs : Nat) (s : State), s.phys.pwrFail = false → Does (.pwrFail secs) s fun t => t.phys.pwrFail = true ∧ t.flag F.ledgStatProtected = true ∧
    t.ledger.queue = s.ledger.queue ∧
    (s.flag F.ledgStatMounted = true → s.macroUp 0 = true → ∃ g ∈ t.ledger.mr0, g.type = 3 ∧ g.key = 0 ∧ fieldAt g.payload 0 8 = s.rackTime % 2 ^ 64)) ∧
  (∀ (s : State), s.phys.pwrFail = true → s.phys.standby = true → Does .pwrFailRelease s fun t => t.phys.pwrFail = false ∧
    t.flag F.ledgStatProtected = false ∧ t.ledger = s.ledger) ∧
  (∀ (s : State), s.flag F.ledgStatMounted = false → s.trust.recovering = false → s.phys.standby = true → s.phys.pwrFail = false →
    Does .ledgerMount s fun t => t.flag F.ledgStatMounted = true ∧ t.rd F.hubIdStatBoot = (if t.trust.version < t.trust.floorVersion then 1 else 4) ∧
      (t.trust.version < t.trust.floorVersion → t.trust.recovering = true) ∧
      t.ledger.boots = fieldAt ((s.live 17 0).elim [] fun g => g.payload) 4 4 + 1 ∧
      ∀ g, s.ledger.mr0 = [g] → s.ledger.mr1 = [g] → s.ledger.nor = [g] → g.type = 1 → g.key = 0 →
        t.rd F.ledgHoursHoursMain = fieldAt g.payload 0 4 ∧ t.ledger.untrusted = [])

/-- Recovery (16 R403, R405): an image that verifies is written and boots, from a peer or, once none has answered, from the rack manager; one that
does not is not; a module answers the other of its tray. -/
def Obligations.RecoveryAsksForAnImage : Prop :=
  (∀ (rm : Bool) (im : List Byte) (s : State), s.trust.recovering = true → s.phys.standby = true → (rm = true → s.trust.rmAllowed = true) →
    (rm = false → s.trust.rmOnly = false) →
    (s.imageFails im = none → im ≠ [] → s.flag F.ledgStatMounted = false → Does (.recovery rm im) s fun t =>
      t.trust.image = im ∧ t.trust.recovering = false ∧ t.trust.version = fieldAt im 8 4 ∧ t.trust.svn = fieldAt im 12 1 ∧ t.rd F.hubIdStatBoot = 3 ∧
      ∃ c, t.ledger.queue = s.ledger.queue ++ [c] ∧ c.type = 15) ∧
    (∀ st, s.imageFails im = some st → exec (.recovery rm im) s = .next s)) ∧
  (∀ (im : List Byte) (s : State), s.trust.rmAllowed = false → exec (.recovery true im) s = .next s) ∧
  (∀ (s : State), s.trust.recovering = true → exec .recoveryPeerTimeout s = .next { s with trust := { s.trust with rmAllowed := true } }) ∧
  (∀ (dev tray : Nat) (s : State), tray = s.tray → dev ≠ s.trust.devId → s.trust.recovering = false → s.phys.standby = true →
    exec (.recoveryRequest dev tray) s = .next { s with out := s.out ++ [.recoveryAnswer dev s.trust.image] })

/-! ### Error records, crossings, counters, scoresheets (17 R413, R419, R423; 18 R432, R434, R438 to R440; 19 R446 to R448) -/

/-- Records close or escalate, crossings overrun and time out, counters clear, snapshots are captured and written. -/
def Obligations.RecordsCrossingsAndScoresheets : Prop :=
  (∀ (q i : Nat) (r : ErrRec) (s : State), s.errs.find? (fun e => decide (e.2.rseq = q)) = some (i, r) →
    (r.sev < 2 → r.lastRtime + 10 * Nat.max 1 (Nat.min (s.rd F.errCfgCoalesce) 10000) ≤ s.rackTime → Does (.recordClose q) s fun t =>
      t.errs = s.errs.insert i { r with open_ := false }) ∧
    (r.sev < 2 → s.rackTime < r.lastRtime + 10 * Nat.max 1 (Nat.min (s.rd F.errCfgCoalesce) 10000) → exec (.recordClose q) s = .next s) ∧
    (r.sev = 2 → r.superseded = false → r.rtime + 1000000 ≤ s.rackTime → Does (.fenceEscalation q) s fun t =>
      t.errs = s.errs.insert i { r with sev := 3, escalated := true, open_ := true } ∧ t.phys.fatal = true ∧
      (∃ c, t.ledger.queue = s.ledger.queue ++ [c] ∧ c.type = 7 ∧ c.rseq = some q))) ∧
  (∀ (g i : Nat) (s : State), (cdcGroup g i).isSome = true → (g, i) ∉ s.phys.cdcIdle →
    (Does (.cdcOverrun g i) s fun t => (g, i) ∈ t.phys.cdcOverrun ∧ (g ≠ 9 → Claims.Recorded s t (E.cdcOverrun g) i)) ∧
    (Settles (.cdcTimeout g i) s fun t => (g ≠ 9 → Claims.Recorded s t (E.cdcTimeout g) i) ∧
      (g = 1 ∨ g = 2 ∨ 7 ≤ g → (g, i) ∈ t.phys.cdcIdle) ∧ (g = 1 → i ∈ t.coreFenced) ∧ (g = 2 → i ∈ t.cdcOut) ∧
      (g = 3 → s.stage i = Stage.active → t.stage i = Stage.train) ∧ (g = 4 → s.phys.resetKind = none → s.rd F.memcStatState = 1 → t.rd F.memcStatState = 2) ∧
      (g = 5 → i < 8 → t.ethUp i 0 = false ∧ t.ethUp i 1 = false) ∧ (g = 6 → t.restarting = true) ∧
      (7 ≤ g → s.errs = [] → s.dice = [] → t.phys.fatal = true))) ∧
  (∀ (g i : Nat) (s : State), (g, i) ∈ s.phys.cdcIdle → exec (.cdcOverrun g i) s = .next s ∧ Settles (.cdcTimeout g i) s fun t => t = s) ∧
  (∀ (u k : Nat) (s : State), u < 274 → k < unitCounters u → (unitInMain u = true → s.flag F.hubIdStatMainOn = true) →
    exec (.counterClear u k) s = .next { s with cnt := s.cnt.setD (16 * u + k) 0 0 }) ∧
  (∀ (s : State), s.flag F.cntSscfgEn = true → s.ssPeriod ≠ 0 → s.rackTime % s.ssPeriod < 10 →
    (s.ssBusy = none → s.ssDestOk = true → exec .scoresheetSnapshot s =
      .next { s with ssSeq := s.ssSeq + 1, ssBusy := some (s.ssSeq + 1), ssRecord := ({ s with ssSeq := s.ssSeq + 1 } : State).scoresheet (s.ssSeq + 1),
                     ssSkippedBefore := false }) ∧
    (s.ssBusy.isSome = true ∨ s.ssDestOk = false → Does .scoresheetSnapshot s fun t => t.ssSeq = s.ssSeq + 1 ∧ t.ssBusy = s.ssBusy ∧
      t.ssRecord = s.ssRecord ∧ t.ssSkippedBefore = true ∧ t.rd F.cntSsptrSkipped = Nat.min (s.rd F.cntSsptrSkipped + 1) (2 ^ F.cntSsptrSkipped.w - 1))) ∧
  (∀ (n : Nat) (s : State), s.ssBusy = some n → s.ssPending = none → s.flag F.cntSscfgDest = false → s.phys.pcieUp = true →
    Does .scoresheetWrite s fun t =>
      (let a := s.rd F.cntSsbaseBase + 65536 * (n % Nat.max 1 (s.rd F.cntSscfgSlots))
       t.out = s.out ++ [.hostWrite (a + 8) (leBytes 8 0) false, .hostWrite (a + 64) (s.ssRecord.drop 64) false, .hostWrite a (s.ssRecord.take 64) false] ∧
       t.rd F.cntSsptrProd = n % 65536 ∧ t.ssBusy = none ∧ t.ssRecord = []))

/-! ### Clocks, rails, resets, the test access port (19 R443 to R456) -/

/-- What a main reset takes and keeps (19 R451, R452): main-domain stores are empty, the ledger's copies and the settings stay. -/
def Sys2Proof.Claims.MainReset (keep : Bool) (s t : State) : Prop :=
  t.flag F.hubIdStatMainOn = false ∧ t.flag F.hubIdResetRunning = true ∧ t.phys.resetKind = some keep ∧ t.banks = [] ∧ t.ctxs = [] ∧ t.insts = [] ∧ t.slots = [] ∧
  t.programs = [] ∧ t.tx = [] ∧ t.rx = [] ∧ t.phys.fatal = false ∧ (keep = true → t.mem = s.mem ∧ t.memPoison = s.memPoison) ∧
  (keep = false → t.mem = [] ∧ t.memPoison = []) ∧ t.ledger.mr0 = s.ledger.mr0 ∧ t.ledger.mr1 = s.ledger.mr1 ∧ t.ledger.nor = s.ledger.nor ∧
  t.plan = s.plan ∧ t.planLive = s.planLive ∧ t.groups = s.groups ∧ t.tables = s.tables ∧ t.rd F.pwrCfgBrakeW = s.rd F.pwrCfgBrakeW ∧
  (∀ p, p < 144 → s.stage p = Stage.fenced → t.stage p = Stage.fenced)

/-- Resets and rails (19 R449 to R453, R455; 13 R306; 16 R397). -/
def Obligations.ResetsAndRails : Prop :=
  (∀ (s : State), s.phys.resetKind = none →
    (Does .mainFull s fun t => Claims.MainReset false s t) ∧
    (s.phys.resetWaiting = some true → Does .mainKeepmem s fun t => Claims.MainReset (s.memReady && decide (s.phys.resetKind = none)) s t)) ∧
  (∀ (s : State), s.phys.resetKind = some true → Does .mainFull s fun t => t.phys.resetKind = some false ∧ t.mem = []) ∧
  (∀ (s : State), s.phys.trayMainEn = true → s.phys.mainPg = true → s.phys.resetKind = none → Does .mainPgLoss s fun t =>
    Claims.MainReset false s t ∧ Claims.MainGone t) ∧
  (∀ (pass : List Nat) (k : Bool) (s : State), s.phys.resetKind = some k → s.phys.mainPg = true → s.phys.standby = true → s.phys.leakCut = false →
    s.phys.refclk = true → Does (.mainResetRelease pass) s fun t => t.flag F.hubIdStatMainOn = true ∧ t.flag F.hubIdResetRunning = false ∧
      t.phys.resetKind = none ∧ t.flag F.hubIdResetLastKeepmem = k ∧ t.phys.mainRstLow = false ∧ t.mainSince = s.tick ∧ t.mem = s.mem ∧
      (∀ c, c < 128 → (c ∈ t.coreFenced ↔ c ∉ pass ∨ s.coreOut c = true)) ∧ (k = true → t.rd F.memcStatState = 1)) ∧
  (∀ (mv : Nat) (pass : List Nat) (s : State), s.phys.trayMainEn = true → s.phys.mainPg = false → s.phys.standby = true → s.phys.leakCut = false →
    s.phys.refclk = true → Does (.mainPowerUp mv pass) s fun t => t.flag F.hubIdStatMainOn = true ∧ t.phys.mainPg = true ∧
      650 ≤ t.phys.vddCore ∧ t.phys.vddCore ≤ 850 ∧ (650 ≤ mv → mv ≤ 850 → mv % 5 = 0 → t.phys.vddCore = mv) ∧ .vout 800 ∈ t.out) ∧
  (∀ (mv : Nat) (s : State),
    (s.phys.mainPg = true → 650 ≤ mv → mv ≤ 850 → mv ≤ s.phys.vddCore + 5 → s.phys.vddCore ≤ mv + 5 → exec (.vddCoreAdjust mv) s =
      .next { s with phys := { s.phys with vddCore := mv }, out := s.out ++ [.vout mv] }) ∧
    (mv < 650 ∨ 850 < mv ∨ s.phys.vddCore + 5 < mv ∨ mv + 5 < s.phys.vddCore → exec (.vddCoreAdjust mv) s = .next s)) ∧
  (∀ (s : State), s.phys.refclk = true → (7, 0) ∉ s.phys.cdcIdle → Does .refclkLoss s fun t => t.phys.refclk = false ∧
    (s.errs = [] → s.dice = [] → t.phys.fatal = true)) ∧
  (∀ (s : State), exec .refclkReturn s = .next { s with phys := { s.phys with refclk := true } }) ∧
  (∀ (s : State), (Does .standbyReset s fun t => t.flag F.hubIdStatMainOn = false ∧ t.mem = [] ∧ t.errs = [] ∧ t.mbx = [] ∧ t.planLive = false ∧
      t.flag F.ledgStatMounted = false ∧ t.ledger.mr0 = s.ledger.mr0 ∧ t.ledger.mr1 = s.ledger.mr1 ∧ t.ledger.nor = s.ledger.nor ∧
      t.rd F.condPresPresent = s.rd F.condPresPresent ∧ t.phys.leakCut = false ∧ t.pending = s.pending) ∧
    Does .standbyPowerLoss s fun t => t.phys.standby = false ∧ t.flag F.hubIdStatMainOn = false ∧ t.ledger.queue = [] ∧
      t.ledger.mr0 = s.ledger.mr0 ∧ t.out = s.out ++ [.pin "TRAY_MAIN_EN" false])

/-- The test access port (19 R456): IDCODE, one BYPASS cell, boundary scans; tests that drive work only while MAIN_RST_N is held low. -/
def Obligations.TestAccessPort : Prop :=
  (∀ (tdi : List Bool) (s : State),
    (Does (.bypass tdi) s fun t => t.out = s.out ++ [.tdo ((false :: tdi).take tdi.length)] ∧ t.phys = { s.phys with tapIr := 0, scanDrive := false }) ∧
    Does (.idcode tdi) s fun t => ∃ bits, t.out = s.out ++ [.tdo bits] ∧ bits.length = tdi.length ∧
      (∀ k, k < 32 → k < tdi.length → bits[k]? = some ((0x171013CF : BitVec 32).getLsbD k)) ∧ (∀ k, 32 ≤ k → k < tdi.length → bits[k]? = tdi[k - 32]?)) ∧
  (∀ (cells tdi : List Bool) (s : State),
    (Does (.samplePreload cells tdi) s fun t => t.out = s.out ++ [.tdo ((cells ++ tdi).take tdi.length)] ∧
      t.phys = { s.phys with tapIr := 2, scanDrive := false, boundary := (cells ++ tdi).drop tdi.length }) ∧
    (∀ q ∈ ([(Instr.extest, 0), (Instr.extestPulse, 1), (Instr.extestTrain, 2)] : List ((List Bool → List Bool → Instr) × Nat)),
      (s.phys.mainRstLow = true → Does (q.1 cells tdi) s fun t => t.phys.scanDrive = true ∧ t.phys.boundary = (cells ++ tdi).drop tdi.length ∧
        t.out = s.out ++ [.tdo ((cells ++ tdi).take tdi.length), .scan q.2 t.phys.boundary]) ∧
      (s.phys.mainRstLow = false → exec (q.1 cells tdi) s = exec (.bypass tdi) s)))

/-! ### Collective instances and streams (05 R104 to R136; 07 R167, R183; 08 R200, R203; 10 R253 to R262) -/

/-- The collective block of a contribution agrees with the binding of its slot; a helper partial may carry the discipline executed. -/
def Sys2Proof.Claims.Agrees (v : State) (h : Flit) (b : Binding) (disc : Nat) : Prop :=
  hget h H.descHash = (v.slot (hget h H.slot)).hash.toNat ∧ hget h H.op = b.op ∧ hget h H.reducer = b.reducer ∧ hget h H.format = b.format ∧
  (hget h H.disc = b.disc ∨ hget h H.smod = 1 ∧ hget h H.disc = disc)

/-- A packet fits the share of its contributor in its chunk. -/
def Sys2Proof.Claims.Fits (sh : Share) (foff len got : Nat) (last : Bool) : Prop := match sh with
  | .empty => False
  | .flits lo span m => (len = 0 ∨ lo ≤ foff ∧ foff + len ≤ lo + span) ∧ got ≤ m ∧ (last = true → got = m)
  | .any => True

/-- The state has the same instances but for the partials refused in them. -/
def Sys2Proof.Claims.SameInsts (s t : State) : Prop := ∀ slot step,
  (t.inst? slot step).map (fun i => { i with refused := [] }) = (s.inst? slot step).map fun i => { i with refused := [] }

/-- Contributions (05 R110 to R114, R118; 07 R167, R171): refused with a record, started and joined, taken for deposit with their buffer cells,
deposited into the banks. -/
def Obligations.ContributionsAreTaken : Prop :=
  (∀ (l : LocalPkt) (s v : State), s.takeWhole (fun l => isType PT.contrib l.pkt.hdr) = some (l, v) → (v.peerChan l.pkt.hdr).isSome = false →
    (let p := l.pkt
     let h := p.hdr
     let slot := hget h H.slot
     let step := hget h H.step
     let key := if hget h H.smod = 1 then 512 + hget h H.src % 16 else hget h H.rank
     (∀ st, v.contribStatus h = some st → Settles .collContribReceive s fun t => Claims.SameInsts v t ∧ Claims.Recorded v t E.contribRefused slot ∧
       (hget h H.smod = 0 → t.insts = v.insts)) ∧
     (∀ b g, v.contribStatus h = none → v.bindingOf slot = some (b, g) → v.inst? slot step = none →
       (Claims.Agrees v h b (if v.imposes slot b g then 1 else b.disc) → b.op ≠ 7 →
        v.isJoin h b g key = true → Settles .collContribReceive s fun t => ∃ i, t.inst? slot step = some i ∧ key ∈ i.first ∧ i.gepoch = g.gepoch ∧
         i.status = none ∧ i.arrived = v.tick ∧ i.disc = (if v.imposes slot b g then 1 else b.disc) ∧ t.instCount = v.instCount + 1) ∧
       (¬Claims.Agrees v h b (if v.imposes slot b g then 1 else b.disc) → hget h H.smod = 1 → Settles .collContribReceive s fun t =>
         t.insts = v.insts ∧ t.instCount = v.instCount ∧ Claims.Recorded v t E.contribRefused slot)) ∧
     (∀ b g i, v.contribStatus h = none → v.bindingOf slot = some (b, g) → v.inst? slot step = some i → i.status = none → i.state ≠ .verifying →
       Claims.Agrees v h b i.disc → key ∈ i.first → v.isJoin h b g key = false →
       (i.takes b (v.ranksOfKey g key) (hget h H.chunk) = true → shareKey (hget h H.chunk) key ∉ i.recv →
         Claims.Fits (v.shareOf b g key (hget h H.chunk)) (hget h H.foff) p.pay.length
           (i.shares.getD (shareKey (hget h H.chunk) key) 0 + p.pay.length) (decide (hget h H.last = 1)) →
         Settles .collContribReceive s fun t => ∃ j, t.inst? slot step = some j ∧ j.status = none ∧
           j.waiting = i.waiting ++ [{ key := key, chunk := hget h H.chunk, foff := hget h H.foff, last := decide (hget h H.last = 1),
                                       poison := decide (hget h H.poison = 1), drank := hget h H.drank, flits := p.pay, chg := l.chg }] ∧
           t.vcbuf = v.vcbuf ∧ (hget h H.last = 1 → shareKey (hget h H.chunk) key ∈ j.recv)) ∧
       (i.takes b (v.ranksOfKey g key) (hget h H.chunk) = false → (v.slot slot).helper = none → Settles .collContribReceive s fun t =>
         (t.inst? slot step).bind (fun j => j.status) = some 0x0105)))) ∧
  (∀ (slot k n : Nat) (reads : List Ecc) (b : Binding) (g : Group) (i : Instance) (d : Deposit) (s : State), s.bindingOf slot = some (b, g) →
    slot / 1024 ∉ s.recarve →
    s.insts.find? (fun e => decide (e.1 / 65536 = slot) && e.2.status.isNone && e.2.waiting.any (s.canDeposit b e.2)) = some (k, i) →
    i.waiting.findIdx? (s.canDeposit b i) = some n → i.waiting[n]? = some d → SettlesLib (.contribDeposit slot reads) s fun t =>
      (∃ j, t.inst? slot (k % 65536) = some j ∧ j.waiting = i.waiting.eraseIdx n ∧
        (d.last = true → d.key < 1024 → shareKey d.chunk d.key ∈ j.complete)) ∧
      (∀ f, d.flits = [f] → d.poison = false → d.key < 512 → b.op ≤ 2 → b.reducer = 0 → isMx b.format = false → i.disc = 0 →
        s.usesInbox b d.key = false → reads = [] → s.dice = [] →
        (let a := s.resBase slot (k % 65536) b + d.chunk % Nat.max 1 i.flight * b.chunk + 64 * d.foff
         let w := s.bankWord (bankKey (slot / 1024) a)
         s.bankFenced (slot / 1024) (s.placeOf (slot / 1024) a).bank = false →
         w.poison = false → t.bankWord (bankKey (slot / 1024) a) =
           { data := (if w.empty then firstWord b.format f else addWord b.format b.mode false w.data f).1, poison := false, empty := false })))

/-- How an instance ends (05 R115, R116, R119 to R121, R126, R133 to R136; 08 R200): the chess clock, the verdict, sends drawn, the terminal notice, a
helper's, ENDED. -/
def Obligations.InstancesEnd : Prop :=
  (∀ (slot step : Nat) (b : Binding) (g : Group) (i : Instance) (s : State), s.bindingOf slot = some (b, g) → s.inst? slot step = some i →
    (i.status = none → (s.slot slot).helper = none →
      (i.programDone = false → i.state ≠ .verifying →
        (s.oldestOpen b g i 0 b.chunks = none → Settles (.chessClockExpire slot step) s fun t =>
          (t.inst? slot step).bind (fun j => j.status) = some 0x0106) ∧
        (∀ c, s.oldestOpen b g i 0 b.chunks = some c →
          (g.live.length ≤ s.plan.abortMax → Settles (.chessClockExpire slot step) s fun t =>
            (t.inst? slot step).map (fun j => (j.status, j.bitmap)) = some (some 0x0101, rankBits (s.missingRanks b g i c))) ∧
          (s.plan.abortMax < g.live.length → Settles (.chessClockExpire slot step) s fun t =>
            t.inst? slot step = some { i with state := .verifying, missing := s.missingRanks b g i c } ∧
            (s.agent.aseq, .missingRanks s.self slot step (s.missingRanks b g i c)) ∈ t.agent.unacked))) ∧
      (i.state = .verifying → Settles (.verdictTimeout slot step) s fun t =>
        (t.inst? slot step).map (fun j => (j.status, j.bitmap)) = some (some 0x0101, rankBits i.missing))) ∧
    (∀ st, i.status = some st →
      (i.terminalSent = false → i.results = [] → Settles (.terminalSend slot step) s fun t => ∃ j, t.inst? slot step = some j ∧
        j.status = some st ∧ j.terminalSent = true ∧ i.terminalOut ≤ j.terminalOut) ∧
      (i.terminalSent = true → i.terminalOut = 0 → i.ctx = none → i.recCtx = none → Settles (.instanceEnded slot step) s fun t =>
        t.inst? slot step = none ∧ ((s.slot slot).closing = false → ∃ e, (t.slot slot).ended.head? = some e ∧ e.step = step ∧ e.status = st ∧ e.flags = i.flags) ∧
        (∀ w ∈ t.waitCmds, ¬(w.2.1 = 0 ∧ w.2.2 = 65536 * slot + step))) ∧
      (i.results ≠ [] → Settles (.terminalSend slot step) s fun t => t = s))) ∧
  (∀ (p : Packet) (q home : Nat) (b : Binding) (g : Group) (i : Instance) (s v : State), s.takeLocal (isType PT.collCtrl) = some (p, q, v) →
    v.bindingOf (hget p.hdr H.slot) = some (b, g) → (v.slot (hget p.hdr H.slot)).helper = some home → hget p.hdr H.src = home → hget p.hdr H.smod = 1 →
    hget p.hdr H.allSteps = 0 → v.inst? (hget p.hdr H.slot) (hget p.hdr H.step) = some i → i.status = none → Settles (.collCtrlReceive none) s fun t =>
      ∃ j, t.inst? (hget p.hdr H.slot) (hget p.hdr H.step) = some j ∧ j.status = some (hget p.hdr H.status) ∧ j.terminalSent = true ∧ j.state = .ending) ∧
  (∀ (r : HelperReport) (b : Binding) (g : Group) (s : State), s.bindingOf r.slot = some (b, g) → b.stages = 2 → (s.slot r.slot).helper = none →
    r.module ∈ s.helpersOf g →
    (∀ i, s.inst? r.slot r.step = some i → i.status = none → i.state ≠ .verifying → s.inWindow r.slot r.step b = true →
      (∀ st n bits c, r.msg = .failed st n bits c → Settles (.collCtrlReceive (some r)) s fun t =>
        (t.inst? r.slot r.step).map (fun j => (j.status, j.nrank, j.bitmap)) = some (some st, n, bits)) ∧
      (∀ c ranks, r.msg = .arrived c ranks → Settles (.collCtrlReceive (some r)) s fun t => ∃ j, t.inst? r.slot r.step = some j ∧
        j = { i with helperBits := j.helperBits } ∧
        ∀ k, (j.helperBits.getD (shareKey c (512 + r.module % 16)) 0).testBit k =
          ((i.helperBits.getD (shareKey c (512 + r.module % 16)) 0).testBit k || ranks.contains k)) ∧
      (∀ f n, r.msg = .flags f n → Settles (.collCtrlReceive (some r)) s fun t =>
        t.inst? r.slot r.step = some { i with flags := i.flags ||| BitVec.ofNat 16 f, dropped := i.dropped + n })) ∧
    (r.msg = .lost → (s.slot r.slot).closing = false → Settles (.collCtrlReceive (some r)) s fun t =>
      ((t.slot r.slot).bound = none ∨ (t.slot r.slot).closing = true) ∧
      ∃ n, (n, .binding s.self r.slot b.group false) ∈ t.agent.unacked)) ∧
  (∀ (x : CtxId) (reads : List Ecc) (sd : Send) (rest : List Send) (b : Binding) (g : Group) (i : Instance) (s : State),
    (let c := s.ctx (ctxNum x)
     c.sends = sd :: rest → s.bindingOf c.slot = some (b, g) → s.inst? c.slot c.step = some i → c.slot / 1024 ∉ s.recarve → c.run ≠ .free →
     (dKind sd.desc ≤ 1 → (∀ k ∈ s.contributors c.slot b g, k ∈ i.first) → SettlesLib (.sendDrawn x reads) s fun t =>
       (t.ctx (ctxNum x)).sends = rest ∧
       (dKind sd.desc = 0 → dTarget sd.desc ∈ g.vacant → c.restarted = false → t.insts = s.insts ∧ t.banks = s.banks) ∧
       (c.recoveryOf = none → dChunk sd.desc ∈ i.recovering → c.restarted = false → t.insts = s.insts ∧ t.banks = s.banks)) ∧
     (dKind sd.desc ≤ 1 → (∃ k ∈ s.contributors c.slot b g, k ∉ i.first) → SettlesLib (.sendDrawn x reads) s fun t => t = s)))

/-- Streams (10 R254, R256, R258 to R262; 07 R183): the epoch switches, the engine starts waiting streams in order of START, and sends their packets as
turns, gates, rates and staging allow; a re-carved quadrant resumes. -/
def Obligations.StreamsRun : Prop :=
  (∀ (at_ : Nat) (s : State), s.streamSwitch = some at_ → at_ ≤ s.rackTime → Does .streamEpochSwitch s fun t =>
    t.sepoch = (s.sepoch + 1) % 65536 ∧ t.streams = s.streamShadow ∧ t.streamSwitch = none ∧
    (∀ q, q < 4 → t.rd F.strmEpochSepoch q = (s.sepoch + 1) % 65536) ∧
    (∀ e ∈ s.streamShadow, e.2.valid = true → (t.run (1024 * t.sepoch + e.1)).status = 1 ∧ (t.run (1024 * t.sepoch + e.1)).started = false)) ∧
  (∀ (id : Nat) (s : State), id < 1024 → s.phys.fatal = false → (s.run (s.runKey id)).status = 1 → (s.run (s.runKey id)).started = false →
    (s.run (s.runKey id)).ending = none → (s.streamOf id).start ≤ s.rackTime → (s.startedIn (id / 256)).length < 16 →
    (∀ e ∈ s.streams, s.startsBefore e.1 id = false) → Does (.streamStart id) s fun t =>
      t.run (s.runKey id) = { s.run (s.runKey id) with started := true } ∧ Counted { s with runs := t.runs } t) ∧
  (∀ (id : Nat) (s : State), 16 ≤ (s.startedIn (id / 256)).length → exec (.streamStart id) s = .next s) ∧
  (∀ (id : Nat) (reads : List Ecc) (stg : List CellRead) (s : State), id < 1024 →
    (let k := s.runKey id
     let r := s.run k
     let e := s.streamOf id
     let lo := r.sent * e.perPacket
     let n := Nat.min e.perPacket (e.elems - lo)
     let f : FlowId := { src := s.self, dst := e.dst, smod := true, dmod := false, tc := 2, plane := s.plane,
                         cast := if !e.cast then 0 else if e.caxis then 2 else 1 }
     r.live = true → r.started = true → r.ending = none → r.sent < e.packets → s.memReady = true → s.phys.fatal = false → e.slice ∉ s.streamHeld →
     (s.gateFailed e = true → r.open_ = 0 → Settles (.streamPacketSend id reads stg) s fun t => (t.run k).status = 6) ∧
     (s.gateFailed e = false → s.gateOpen e lo n = false → Settles (.streamPacketSend id reads stg) s fun t => Counted s t) ∧
     (s.gateFailed e = false → s.gateOpen e lo n = true → (e.rate = 0 ∨ e.start * e.rate + r.bytes ≤ s.rackTime * e.rate) →
       s.flowRoom (flowKey f) (id / 256) 65 = true → s.stagingUsed (id / 256) true + e.packetBytes ≤ 2097152 → s.streamTurnOf id = true → Settles (.streamPacketSend id reads stg) s fun t =>
         (t.run k).status = 2 ∧ (t.run k).sent = r.sent + 1 ∧ (t.run k).open_ = r.open_ + 1 ∧ (t.run k).acked = r.acked ∧
         t.streamTurn.getD (id / 256) 0 = id))) ∧
  (∀ (q : Nat) (s : State), q ∈ s.recarve → q < 4 → Settles (.recarveComplete q) s fun t => q ∉ t.recarve ∧ t.rd F.qbankStatRecarve q = 0)

/-- Library programs (05 R128; 06 R150; 09 R219, R233): the bank work of a chunk. An ORDERED chunk of one word holds the words of its contributors
added in ascending rank; one that cannot be read ends the instance FAULTED; an update whose state block has another STAMP than T or T − 1 ends
PROGRAM_ABORT with code 2, and one whose STAMP is T already writes its block back unchanged. -/
def Obligations.LibraryProgramsRun : Prop :=
  ∀ (x : CtxId) (reads : List Ecc) (b : Binding) (g : Group) (i : Instance) (s : State),
    (let c := s.ctx (ctxNum x)
     let q := c.slot / 1024
     let area := s.chunkArea c.slot c.step b i c.lib.chunk
     c.program ≤ 11 → c.run = .ready → s.bindingOf c.slot = some (b, g) → s.inst? c.slot c.step = some i → i.status = none →
     x.core / 32 ∉ s.recarve → s.dice = [] →
     (c.lib.phase = .work → c.lib.resent = false → i.disc = 1 → b.disc ≠ 2 → b.op ≤ 2 → b.reducer = 0 → b.chunkWords c.lib.chunk = 1 →
       (let rows := (s.inOrder c.slot b g).map fun k => s.rowAddr c.slot c.step b g i c.lib.chunk k
        rows ≠ [] → (∀ a ∈ rows, s.bankFenced q (s.placeOf q a).bank = false) → reads = [] →
        ((∀ a ∈ rows, (s.bankWord (bankKey q a)).poison = false) → SettlesLib (.bankOpComplete x reads) s fun t =>
          t.bankWord (bankKey q area) =
            { data := (foldRows b b.mode (rows.map fun a => (s.bankWord (bankKey q a)).value)).1, poison := false, empty := false }) ∧
        ((∃ a ∈ rows, (s.bankWord (bankKey q a)).poison = true) → (s.slot c.slot).helper = none → SettlesLib (.bankOpComplete x reads) s fun t =>
          (t.inst? c.slot c.step).bind (fun j => j.status) = some 0x0104))) ∧
     (c.lib.phase = .update →
       (let base := s.blockBase c.slot c.step b g i c.lib.chunk
        let w := s.bankWord (bankKey q base)
        let stamp := w.value.toNat % 2 ^ 64
        reads = [] → s.bankFenced q (s.placeOf q base).bank = false → w.poison = false →
        (stamp ≠ ctlT c.lib.ctl → stamp + 1 ≠ ctlT c.lib.ctl → (s.slot c.slot).helper = none → SettlesLib (.bankOpComplete x reads) s fun t =>
          (t.inst? c.slot c.step).map (fun j => (j.status, j.user)) = some (some 0x0106, 2)) ∧
        (stamp = ctlT c.lib.ctl → SettlesLib (.bankOpComplete x reads) s fun t => t.banks = s.banks))))

/-! ### Rules stated whole; reset; the encoding; the memory (13 R322; 05 R109; 09 R227; 10 R237; 08 R190; 19 R451) -/

/-- The requester's session is test-unlocked and attested, and the plan in force permits injection (13 R322). -/
def Sys2Proof.Claims.Unlocked (s : State) (session : Nat) : Prop :=
  (∃ u, s.trust.unlock = some u ∧ u.1 = session) ∧ session ∈ s.trust.attested ∧ s.planLive = true ∧ s.plan.injection = true

/-- 13 R322: INJECT_ARM, and PROGRAM_LOAD with CHECK_OVERRIDE (bit 1 of its flags), complete with LOCKED unless the requester's session is
test-unlocked and attested and the plan in force permits injection. -/
def Obligations.LockedUnlessUnlocked : Prop :=
  ∀ (mb : MbxRef) (s : State) (x : MbxSt),
    (s.ready? mb 0x0802 = some x →
      (¬Claims.Unlocked s x.session → Does (.injectArm mb) s fun t => Answered mb St.locked 0 [] s t) ∧
      (Claims.Unlocked s x.session → Does (.injectArm mb) s fun t => (t.mbxOf (mbxKey mb)).state = 4 ∧ (t.mbxOf (mbxKey mb)).status ≠ St.locked)) ∧
    (s.ready? mb 0x0408 = some x → (fieldAt x.req.payload 8 1).testBit 1 = true →
      (¬Claims.Unlocked s x.session → Does (.programLoad mb) s fun t => Answered mb St.locked 0 [] s t) ∧
      (Claims.Unlocked s x.session → Does (.programLoad mb) s fun t => (t.mbxOf (mbxKey mb)).state = 4 ∧ (t.mbxOf (mbxKey mb)).status ≠ St.locked))

/-- 05 R109: a contribution to a bound slot whose GEPOCH is not the group's current epoch is discarded: no instance changes, and a NOTICE STALE_EPOCH
(0x0200) with NEW_GEPOCH goes to its sender. A helper partial (SMOD = 1) is discarded likewise, without a NOTICE (05 R110). -/
def Obligations.StaleEpochIsRefused : Prop :=
  ∀ (l : LocalPkt) (p : Packet) (b : Binding) (g : Group) (s v : State),
    s.takeWhole (fun l => isType PT.contrib l.pkt.hdr) = some (l, v) → l.pkt = p → v.bindingOf (hget p.hdr H.slot) = some (b, g) → (v.slot (hget p.hdr H.slot)).closing = false → hget p.hdr H.gepoch ≠ g.gepoch → g.gepoch < 65536 →
    (hget p.hdr H.smod = 0 → Settles .collContribReceive s fun t => t.insts = v.insts ∧
      ∃ (w : State) (h : Flit), t = w.originate h [] (hget p.hdr H.slot / 1024) 3 .notice ∧ w.insts = v.insts ∧
        hget h H.ptype = PT.collCtrl ∧ hget h H.dst = hget p.hdr H.src ∧ hget h H.dmod = 0 ∧ hget h H.ccode = 3 ∧ hget h H.status = 0x0200 ∧
        hget h H.newGepoch = g.gepoch ∧ hget h H.slot = hget p.hdr H.slot ∧ hget h H.step = hget p.hdr H.step) ∧
    (hget p.hdr H.smod = 1 → v.peerChan p.hdr = none → Settles .collContribReceive s fun t => Claims.SameInsts v t)

/-- 09 R227: where the areas of a slot's instances lie, for steps from STEP0 on: position (s − STEP0) mod DEPTH; the areas of two positions never overlap. Staging lies from
`stgOffset` in a quadrant's bank space (07 R165); a binding that reserves no staging has no STG_BASE. -/
def Obligations.InstanceAreasLieSideBySide : Prop :=
  ∀ (s : State) (slot step step' : Nat) (b : Binding) (g : Group), b.step0 ≤ step → step < 65536 → b.step0 ≤ step' → step' < 65536 → 0 < b.depth →
    (let p := (step - b.step0) % b.depth
     let n := b.stgBytes (s.stgRanks slot g)
     s.resBase slot step b = (s.slot slot).redBase + p * (b.inflight * b.chunk * b.x) ∧
     (n ≠ 0 → s.stgBase slot step b g = stgOffset + (s.slot slot).stgBase + p * n) ∧
     (p < (step' - b.step0) % b.depth → s.resBase slot step b + b.inflight * b.chunk * b.x ≤ s.resBase slot step' b ∧
       (n ≠ 0 → s.stgBase slot step b g + n ≤ s.stgBase slot step' b g)) ∧
     ((step' - b.step0) % b.depth = p + 1 → s.resBase slot step' b = s.resBase slot step b + b.inflight * b.chunk * b.x ∧
       (n ≠ 0 → s.stgBase slot step' b g = s.stgBase slot step b g + n)))

/-- Six bits rotated left. -/
def Sys2Proof.Claims.rot6 (i r : Nat) : Nat := i * 2 ^ r % 64 + i * 2 ^ r / 64

/-- 10 R237: the channel of a fabric address is the XOR of its six-bit fields from bit 8, its channel-local address A[47:14] × 256 + A[7:0]; an aligned
16 KiB holds one granule of each channel; at a stride of 2^k bytes, k from 8 to 42, the channel is a fixed value XOR the stride count rotated by (k − 8) mod 6
bits, so 64 accesses from an address aligned to 64 strides touch each channel once. -/
def Obligations.FabricInterleave : Prop :=
  (∀ a, a < 2 ^ 48 → memChannel a = (a / 2 ^ 8 % 64 ^^^ a / 2 ^ 14 % 64 ^^^ a / 2 ^ 20 % 64 ^^^ a / 2 ^ 26 % 64 ^^^ a / 2 ^ 32 % 64 ^^^ a / 2 ^ 38 % 64 ^^^
    a / 2 ^ 44) ∧ memLocal a = a / 2 ^ 14 * 256 + a % 256) ∧
  (∀ a c, a % 2 ^ 14 = 0 → a < 2 ^ 48 → c < 64 → ∃ i, i < 64 ∧ ∀ o, o < 256 → ∀ j, j < 64 → (memChannel (a + 256 * j + o) = c ↔ j = i)) ∧
  (∀ a k i, a < 2 ^ 48 → 8 ≤ k → k ≤ 42 → a % 2 ^ (k + 6) = 0 → i < 64 →
    memChannel (a + i * 2 ^ k) = memChannel a ^^^ Claims.rot6 i ((k - 8) % 6)) ∧
  (∀ a k c, a < 2 ^ 48 → 8 ≤ k → k ≤ 42 → a % 2 ^ (k + 6) = 0 → c < 64 → ∃ i, i < 64 ∧ ∀ j, j < 64 → (memChannel (a + j * 2 ^ k) = c ↔ j = i)) ∧
  memChannel 0x00123456789A = 59 ∧ memLocal 0x00123456789A = 0x48D1599A

/-- The machine right after reset (19 R451, and the reset values of the register tables): no command waits, no time has passed, memory and stores are
empty, the main domain is off, no plan is in force, nothing is mounted; the registers named have the values the tables give. -/
def Obligations.ResetState : Prop :=
  (let s := State.reset
   s.pending = [] ∧ s.now = 0 ∧ Memory.wf s.mem = true ∧ s.mem = [] ∧ s.banks = [] ∧ s.ctxs = [] ∧ s.insts = [] ∧ s.slots = [] ∧ s.mbx = [] ∧ s.errs = [] ∧
   s.dice = [] ∧ s.runs = [] ∧ s.ledger.mr0 = [] ∧ s.ledger.queue = [] ∧ s.planLive = false ∧ s.trust.unlock = none ∧
   s.flag F.hubIdStatMainOn = false ∧ s.flag F.ledgStatMounted = false ∧ s.rd F.condStatRole = 0 ∧ s.rd F.condStatMode = 0 ∧ s.rd F.condStatCterm = 0 ∧
   s.rd F.errStatWriteIdx = 0 ∧ s.rd F.errCfgCoalesce = 100 ∧ s.rd F.qbankTopRedRows = 8192 ∧ s.rd F.qbankTopStgRows = 8192 ∧
   s.rd F.pwrBrakeCount = 0 ∧ s.rd F.cntSelEvent 7 = 0)

/-- Every step keeps the memory canonical: addresses rise and no listed byte is zero, what an unlisted address reads as (the model's choice for memory that
nothing has written: notes/assumptions 7). -/
def Obligations.MemoryStaysCanonical : Prop :=
  ∀ (s t : State), Memory.wf s.mem = true → step s = .next t → Memory.wf t.mem = true

/-- An instruction command whose physical outcomes, which no word carries, are the clean ones. -/
def Sys2Proof.Claims.CleanOutcome : Instr → Prop
  | .ld _ _ _ _ e | .lw _ _ _ _ e | .vld _ _ _ _ e | .bld _ _ _ _ e | .batomAdd _ _ _ _ _ _ e | .batomAddI32w _ _ _ _ _ e
  | .batomAddI32s _ _ _ _ _ e | .batomXacc32 _ _ _ _ _ e | .batomXacc64 _ _ _ _ _ e | .batomMax _ _ _ _ _ _ e | .batomMin _ _ _ _ _ _ e
  | .batomSwap _ _ _ _ _ e => e = .clean
  | .bst _ _ _ _ lost => lost = false
  | _ => True

/-- Every bit of an instruction word is used or fixed (08 R190): decoding the word of an instruction command that the loader accepts gives it back, with the
clean outcomes that a word does not carry; and a word that decodes to a command is that command's word. -/
def Obligations.InstructionWordsRoundTrip : Prop :=
  (∀ (i : Instr) (x : CtxId) (w : BitVec 32), xoWord i = some (x, w) → xoLegal i = true → Claims.CleanOutcome i → xoDecode x w = some i) ∧
  (∀ (i : Instr) (x : CtxId) (w : BitVec 32), xoDecode x w = some i → xoWord i = some (x, w) ∧ xoLegal i = true)

/-! ### Statements of several parts -/

/-- The scalar instructions (08 R191): with register operands and with immediates. -/
def Obligations.ScalarInstructionsWriteTheirResult : Prop :=
  Claims.RegisterInstructionsWriteTheirResult ∧ Claims.ImmediateInstructionsWriteTheirResult

/-- Special registers and local data memory (08 R188, R192, R205). -/
def Obligations.SpecialRegistersAndLocalData : Prop :=
  Claims.SpecialRegistersReadAndWrite ∧ Claims.LocalLoadsAndStores

/-- Vector moves, comparisons and predicates (08 R191, R192). -/
def Obligations.VectorMovesComparisonsAndPredicates : Prop :=
  Claims.VectorMovesAndComparisons ∧ Claims.PredicateInstructions

/-- Accesses of a core to the banks (07 R171, R172; 08 R195, R196). -/
def Obligations.BankAccesses : Prop :=
  Claims.BankLoadsAndStores ∧ Claims.BankAtomics

/-- What a core asks of the engines, and its ends (08 R197 to R205, R213). -/
def Obligations.CoreRequestsComplete : Prop :=
  Claims.MessagesAndWaits ∧ Claims.TransfersAndFences ∧ Claims.ReportsAndEnds

/-- Hardware errors of a core, and the dealer (08 R203, R206, R212). -/
def Obligations.CoresFailAndAreGivenWork : Prop :=
  Claims.CoreHardwareErrors ∧ Claims.DealerPlacesTheWaitingInstance

/-- Slots, windows and retry of a link (02 R17 to R36). -/
def Obligations.LinkSlotsAndRetry : Prop :=
  Claims.SlotsAreSent ∧ Claims.SlotsAreReceived ∧ Claims.RetryAndCodewords

/-- Bring-up of a port, and how it fails (11 R268 to R283). -/
def Obligations.BringUp : Prop :=
  Claims.PortsComeUp ∧ Claims.BringUpFailures

/-- Training frames and CAPS blocks (11 R271 to R280). -/
def Obligations.TrainingAndCapabilities : Prop :=
  Claims.TrainingFrames ∧ Claims.CapabilityExchange

/-- Loss of signal, restarts, and measurements of lanes (11 R281 to R288). -/
def Obligations.LanesAreWatched : Prop :=
  Claims.LanesLoseTheirLink ∧ Claims.LaneMeasurement

/-- Heads and tails of packets (02 R37 to R51; 03 R57 to R66). -/
def Obligations.PacketsAreForwarded : Prop :=
  Claims.PacketHeads ∧ Claims.PacketTails

/-- Escapes, stalls and table generations (03 R57, R67; 04 R95). -/
def Obligations.SwitchStateAdvances : Prop :=
  Claims.EscapeMoves ∧ Claims.StalledEndpoints ∧ Claims.TableGenerations

/-- Acknowledgements, NACKs, timeouts, flow errors (03 R71 to R80). -/
def Obligations.EndToEndDelivery : Prop :=
  Claims.Acknowledgements ∧ Claims.NacksTimeoutsAndFlowErrors

/-- Allowances, token buckets, promotion (04 R90 to R101). -/
def Obligations.ArbitrationIsFair : Prop :=
  Claims.AllowancesAndTokenBuckets ∧ Claims.Promotions

/-- Requests to fabric memory and its channels (10 R238 to R246). -/
def Obligations.FabricMemory : Prop :=
  Claims.MemoryRequests ∧ Claims.MemoryChannels

/-- Frames received and sent (12 R289 to R296). -/
def Obligations.EthernetFrames : Prop :=
  Claims.EthernetFramesReceived ∧ Claims.EthernetFramesSent

/-- Copies of commands, their acknowledgement and resends (14 R336, R339, R356). -/
def Obligations.ConductorCommandsReachTheAgent : Prop :=
  Claims.CommandCopies ∧ Claims.AcknowledgementsAndResends

end Statements
end

