-- ==== Sys2Proof/Laws/Carry.lean ====
section
/-! SUPPORT. What the hub's hand-over of DRP messages to the switch core can do (14 R336): nothing where none waits, one packet for
each message that the fabric carries. -/

namespace Sys2Proof.Machine

@[simp] theorem State.carryDrp_of_none {s : State} (h : s.toCarry = []) : s.carryDrp = { s with carried := s.out.length } := by
  simp [State.carryDrp, h]

theorem State.carryOne_unreached {s : State} {w : DrpWire} (h : s.fabricReaches w = false) : s.carryOne w = s := by
  simp [State.carryOne, h]

theorem State.carryOne_reached {s : State} {w : DrpWire} (h : s.fabricReaches w = true) :
    s.carryOne w = s.originate (s.ctrlHdr w) w.body (w.dest % 4) 6 .other ∧ w.dest < 0x100 ∧ w.dest ≠ s.self := by
  refine ⟨by simp [State.carryOne, h], ?_⟩
  simp only [State.fabricReaches, Bool.and_eq_true, decide_eq_true_eq] at h
  exact ⟨h.1.1.1, h.1.1.2⟩

/-- Every message in the list goes through `carryOne`: what each of them keeps, the hand-over keeps. -/
theorem State.carryDrp_keeps {P : State → Prop} (base : ∀ (s : State) (n : Nat), P s → P { s with carried := n })
    (each : ∀ (s : State) (w : DrpWire), P s → P (s.carryOne w)) {s : State} (h : P s) : P s.carryDrp := by
  unfold State.carryDrp
  generalize s.toCarry = l
  have h := base s s.out.length h
  generalize { s with carried := s.out.length } = t at h
  induction l generalizing t with
  | nil => exact h
  | cons o l ih =>
    simp only [List.foldl_cons]
    apply ih
    split
    · exact each _ _ h
    · exact h

end Sys2Proof.Machine
end

