-- ==== Sys2Proof/Laws/State.lean ====
section
/-! SUPPORT. The fields of a state after an update: one lemma for each field that the update leaves, so that no proof unfolds a
record. Written once for every shared operation that changes one field. -/

namespace Sys2Proof.Machine

/-! ## A register -/

@[simp] theorem State.setReg_pending (s : State) (r : Reg) (i : Nat) (v : Word) : (s.setReg r i v).pending = s.pending := rfl
@[simp] theorem State.setReg_now (s : State) (r : Reg) (i : Nat) (v : Word) : (s.setReg r i v).now = s.now := rfl
@[simp] theorem State.setReg_tick (s : State) (r : Reg) (i : Nat) (v : Word) : (s.setReg r i v).tick = s.tick := rfl
@[simp] theorem State.setReg_fresh (s : State) (r : Reg) (i : Nat) (v : Word) : (s.setReg r i v).fresh = s.fresh := rfl
@[simp] theorem State.setReg_out (s : State) (r : Reg) (i : Nat) (v : Word) : (s.setReg r i v).out = s.out := rfl
@[simp] theorem State.setReg_carried (s : State) (r : Reg) (i : Nat) (v : Word) : (s.setReg r i v).carried = s.carried := rfl
@[simp] theorem State.setReg_plane (s : State) (r : Reg) (i : Nat) (v : Word) : (s.setReg r i v).plane = s.plane := rfl
@[simp] theorem State.setReg_tray (s : State) (r : Reg) (i : Nat) (v : Word) : (s.setReg r i v).tray = s.tray := rfl
@[simp] theorem State.setReg_plan (s : State) (r : Reg) (i : Nat) (v : Word) : (s.setReg r i v).plan = s.plan := rfl
@[simp] theorem State.setReg_planLive (s : State) (r : Reg) (i : Nat) (v : Word) : (s.setReg r i v).planLive = s.planLive := rfl
@[simp] theorem State.setReg_planHash (s : State) (r : Reg) (i : Nat) (v : Word) : (s.setReg r i v).planHash = s.planHash := rfl
@[simp] theorem State.setReg_ports (s : State) (r : Reg) (i : Nat) (v : Word) : (s.setReg r i v).ports = s.ports := rfl
@[simp] theorem State.setReg_lanes (s : State) (r : Reg) (i : Nat) (v : Word) : (s.setReg r i v).lanes = s.lanes := rfl
@[simp] theorem State.setReg_tx (s : State) (r : Reg) (i : Nat) (v : Word) : (s.setReg r i v).tx = s.tx := rfl
@[simp] theorem State.setReg_lines (s : State) (r : Reg) (i : Nat) (v : Word) : (s.setReg r i v).lines = s.lines := rfl
@[simp] theorem State.setReg_rx (s : State) (r : Reg) (i : Nat) (v : Word) : (s.setReg r i v).rx = s.rx := rfl
@[simp] theorem State.setReg_inq (s : State) (r : Reg) (i : Nat) (v : Word) : (s.setReg r i v).inq = s.inq := rfl
@[simp] theorem State.setReg_outq (s : State) (r : Reg) (i : Nat) (v : Word) : (s.setReg r i v).outq = s.outq := rfl
@[simp] theorem State.setReg_vcbuf (s : State) (r : Reg) (i : Nat) (v : Word) : (s.setReg r i v).vcbuf = s.vcbuf := rfl
@[simp] theorem State.setReg_qcharge (s : State) (r : Reg) (i : Nat) (v : Word) : (s.setReg r i v).qcharge = s.qcharge := rfl
@[simp] theorem State.setReg_shared (s : State) (r : Reg) (i : Nat) (v : Word) : (s.setReg r i v).shared = s.shared := rfl
@[simp] theorem State.setReg_arb (s : State) (r : Reg) (i : Nat) (v : Word) : (s.setReg r i v).arb = s.arb := rfl
@[simp] theorem State.setReg_tables (s : State) (r : Reg) (i : Nat) (v : Word) : (s.setReg r i v).tables = s.tables := rfl
@[simp] theorem State.setReg_shadow (s : State) (r : Reg) (i : Nat) (v : Word) : (s.setReg r i v).shadow = s.shadow := rfl
@[simp] theorem State.setReg_escVia (s : State) (r : Reg) (i : Nat) (v : Word) : (s.setReg r i v).escVia = s.escVia := rfl
@[simp] theorem State.setReg_lfsr (s : State) (r : Reg) (i : Nat) (v : Word) : (s.setReg r i v).lfsr = s.lfsr := rfl
@[simp] theorem State.setReg_inFlows (s : State) (r : Reg) (i : Nat) (v : Word) : (s.setReg r i v).inFlows = s.inFlows := rfl
@[simp] theorem State.setReg_egFlows (s : State) (r : Reg) (i : Nat) (v : Word) : (s.setReg r i v).egFlows = s.egFlows := rfl
@[simp] theorem State.setReg_buckets (s : State) (r : Reg) (i : Nat) (v : Word) : (s.setReg r i v).buckets = s.buckets := rfl
@[simp] theorem State.setReg_local_ (s : State) (r : Reg) (i : Nat) (v : Word) : (s.setReg r i v).local_ = s.local_ := rfl
@[simp] theorem State.setReg_cellWait (s : State) (r : Reg) (i : Nat) (v : Word) : (s.setReg r i v).cellWait = s.cellWait := rfl
@[simp] theorem State.setReg_notices (s : State) (r : Reg) (i : Nat) (v : Word) : (s.setReg r i v).notices = s.notices := rfl
@[simp] theorem State.setReg_heldPkts (s : State) (r : Reg) (i : Nat) (v : Word) : (s.setReg r i v).heldPkts = s.heldPkts := rfl
@[simp] theorem State.setReg_unitEvents (s : State) (r : Reg) (i : Nat) (v : Word) : (s.setReg r i v).unitEvents = s.unitEvents := rfl
@[simp] theorem State.setReg_nextCast (s : State) (r : Reg) (i : Nat) (v : Word) : (s.setReg r i v).nextCast = s.nextCast := rfl
@[simp] theorem State.setReg_bindCount (s : State) (r : Reg) (i : Nat) (v : Word) : (s.setReg r i v).bindCount = s.bindCount := rfl
@[simp] theorem State.setReg_instCount (s : State) (r : Reg) (i : Nat) (v : Word) : (s.setReg r i v).instCount = s.instCount := rfl
@[simp] theorem State.setReg_topDown (s : State) (r : Reg) (i : Nat) (v : Word) : (s.setReg r i v).topDown = s.topDown := rfl
@[simp] theorem State.setReg_waitCmds (s : State) (r : Reg) (i : Nat) (v : Word) : (s.setReg r i v).waitCmds = s.waitCmds := rfl
@[simp] theorem State.setReg_restarting (s : State) (r : Reg) (i : Nat) (v : Word) : (s.setReg r i v).restarting = s.restarting := rfl
@[simp] theorem State.setReg_verifySlices (s : State) (r : Reg) (i : Nat) (v : Word) : (s.setReg r i v).verifySlices = s.verifySlices := rfl
@[simp] theorem State.setReg_groups (s : State) (r : Reg) (i : Nat) (v : Word) : (s.setReg r i v).groups = s.groups := rfl
@[simp] theorem State.setReg_slots (s : State) (r : Reg) (i : Nat) (v : Word) : (s.setReg r i v).slots = s.slots := rfl
@[simp] theorem State.setReg_bindWaits (s : State) (r : Reg) (i : Nat) (v : Word) : (s.setReg r i v).bindWaits = s.bindWaits := rfl
@[simp] theorem State.setReg_insts (s : State) (r : Reg) (i : Nat) (v : Word) : (s.setReg r i v).insts = s.insts := rfl
@[simp] theorem State.setReg_banks (s : State) (r : Reg) (i : Nat) (v : Word) : (s.setReg r i v).banks = s.banks := rfl
@[simp] theorem State.setReg_retired (s : State) (r : Reg) (i : Nat) (v : Word) : (s.setReg r i v).retired = s.retired := rfl
@[simp] theorem State.setReg_spares (s : State) (r : Reg) (i : Nat) (v : Word) : (s.setReg r i v).spares = s.spares := rfl
@[simp] theorem State.setReg_symTimes (s : State) (r : Reg) (i : Nat) (v : Word) : (s.setReg r i v).symTimes = s.symTimes := rfl
@[simp] theorem State.setReg_ueWords (s : State) (r : Reg) (i : Nat) (v : Word) : (s.setReg r i v).ueWords = s.ueWords := rfl
@[simp] theorem State.setReg_retireAsk (s : State) (r : Reg) (i : Nat) (v : Word) : (s.setReg r i v).retireAsk = s.retireAsk := rfl
@[simp] theorem State.setReg_recarve (s : State) (r : Reg) (i : Nat) (v : Word) : (s.setReg r i v).recarve = s.recarve := rfl
@[simp] theorem State.setReg_outOfService (s : State) (r : Reg) (i : Nat) (v : Word) : (s.setReg r i v).outOfService = s.outOfService := rfl
@[simp] theorem State.setReg_cdcOut (s : State) (r : Reg) (i : Nat) (v : Word) : (s.setReg r i v).cdcOut = s.cdcOut := rfl
@[simp] theorem State.setReg_dmaCount (s : State) (r : Reg) (i : Nat) (v : Word) : (s.setReg r i v).dmaCount = s.dmaCount := rfl
@[simp] theorem State.setReg_ctxs (s : State) (r : Reg) (i : Nat) (v : Word) : (s.setReg r i v).ctxs = s.ctxs := rfl
@[simp] theorem State.setReg_coreFenced (s : State) (r : Reg) (i : Nat) (v : Word) : (s.setReg r i v).coreFenced = s.coreFenced := rfl
@[simp] theorem State.setReg_rrCtx (s : State) (r : Reg) (i : Nat) (v : Word) : (s.setReg r i v).rrCtx = s.rrCtx := rfl
@[simp] theorem State.setReg_programs (s : State) (r : Reg) (i : Nat) (v : Word) : (s.setReg r i v).programs = s.programs := rfl
@[simp] theorem State.setReg_mem (s : State) (r : Reg) (i : Nat) (v : Word) : (s.setReg r i v).mem = s.mem := rfl
@[simp] theorem State.setReg_memPoison (s : State) (r : Reg) (i : Nat) (v : Word) : (s.setReg r i v).memPoison = s.memPoison := rfl
@[simp] theorem State.setReg_memReads (s : State) (r : Reg) (i : Nat) (v : Word) : (s.setReg r i v).memReads = s.memReads := rfl
@[simp] theorem State.setReg_nextMemTag (s : State) (r : Reg) (i : Nat) (v : Word) : (s.setReg r i v).nextMemTag = s.nextMemTag := rfl
@[simp] theorem State.setReg_ownReqs (s : State) (r : Reg) (i : Nat) (v : Word) : (s.setReg r i v).ownReqs = s.ownReqs := rfl
@[simp] theorem State.setReg_ownRsps (s : State) (r : Reg) (i : Nat) (v : Word) : (s.setReg r i v).ownRsps = s.ownRsps := rfl
@[simp] theorem State.setReg_scrubPos (s : State) (r : Reg) (i : Nat) (v : Word) : (s.setReg r i v).scrubPos = s.scrubPos := rfl
@[simp] theorem State.setReg_scrubClock (s : State) (r : Reg) (i : Nat) (v : Word) : (s.setReg r i v).scrubClock = s.scrubClock := rfl
@[simp] theorem State.setReg_scrubMark (s : State) (r : Reg) (i : Nat) (v : Word) : (s.setReg r i v).scrubMark = s.scrubMark := rfl
@[simp] theorem State.setReg_refreshes (s : State) (r : Reg) (i : Nat) (v : Word) : (s.setReg r i v).refreshes = s.refreshes := rfl
@[simp] theorem State.setReg_streams (s : State) (r : Reg) (i : Nat) (v : Word) : (s.setReg r i v).streams = s.streams := rfl
@[simp] theorem State.setReg_streamShadow (s : State) (r : Reg) (i : Nat) (v : Word) : (s.setReg r i v).streamShadow = s.streamShadow := rfl
@[simp] theorem State.setReg_runs (s : State) (r : Reg) (i : Nat) (v : Word) : (s.setReg r i v).runs = s.runs := rfl
@[simp] theorem State.setReg_sepoch (s : State) (r : Reg) (i : Nat) (v : Word) : (s.setReg r i v).sepoch = s.sepoch := rfl
@[simp] theorem State.setReg_streamSwitch (s : State) (r : Reg) (i : Nat) (v : Word) : (s.setReg r i v).streamSwitch = s.streamSwitch := rfl
@[simp] theorem State.setReg_streamHeld (s : State) (r : Reg) (i : Nat) (v : Word) : (s.setReg r i v).streamHeld = s.streamHeld := rfl
@[simp] theorem State.setReg_streamTurn (s : State) (r : Reg) (i : Nat) (v : Word) : (s.setReg r i v).streamTurn = s.streamTurn := rfl
@[simp] theorem State.setReg_eth (s : State) (r : Reg) (i : Nat) (v : Word) : (s.setReg r i v).eth = s.eth := rfl
@[simp] theorem State.setReg_ethAddr (s : State) (r : Reg) (i : Nat) (v : Word) : (s.setReg r i v).ethAddr = s.ethAddr := rfl
@[simp] theorem State.setReg_dmaIdx (s : State) (r : Reg) (i : Nat) (v : Word) : (s.setReg r i v).dmaIdx = s.dmaIdx := rfl
@[simp] theorem State.setReg_dmaRecheck (s : State) (r : Reg) (i : Nat) (v : Word) : (s.setReg r i v).dmaRecheck = s.dmaRecheck := rfl
@[simp] theorem State.setReg_msixTable (s : State) (r : Reg) (i : Nat) (v : Word) : (s.setReg r i v).msixTable = s.msixTable := rfl
@[simp] theorem State.setReg_pba (s : State) (r : Reg) (i : Nat) (v : Word) : (s.setReg r i v).pba = s.pba := rfl
@[simp] theorem State.setReg_mbx (s : State) (r : Reg) (i : Nat) (v : Word) : (s.setReg r i v).mbx = s.mbx := rfl
@[simp] theorem State.setReg_mbxImage (s : State) (r : Reg) (i : Nat) (v : Word) : (s.setReg r i v).mbxImage = s.mbxImage := rfl
@[simp] theorem State.setReg_stored (s : State) (r : Reg) (i : Nat) (v : Word) : (s.setReg r i v).stored = s.stored := rfl
@[simp] theorem State.setReg_hello (s : State) (r : Reg) (i : Nat) (v : Word) : (s.setReg r i v).hello = s.hello := rfl
@[simp] theorem State.setReg_grants (s : State) (r : Reg) (i : Nat) (v : Word) : (s.setReg r i v).grants = s.grants := rfl
@[simp] theorem State.setReg_stages (s : State) (r : Reg) (i : Nat) (v : Word) : (s.setReg r i v).stages = s.stages := rfl
@[simp] theorem State.setReg_recvCount (s : State) (r : Reg) (i : Nat) (v : Word) : (s.setReg r i v).recvCount = s.recvCount := rfl
@[simp] theorem State.setReg_errs (s : State) (r : Reg) (i : Nat) (v : Word) : (s.setReg r i v).errs = s.errs := rfl
@[simp] theorem State.setReg_rseq (s : State) (r : Reg) (i : Nat) (v : Word) : (s.setReg r i v).rseq = s.rseq := rfl
@[simp] theorem State.setReg_dice (s : State) (r : Reg) (i : Nat) (v : Word) : (s.setReg r i v).dice = s.dice := rfl
@[simp] theorem State.setReg_ledger (s : State) (r : Reg) (i : Nat) (v : Word) : (s.setReg r i v).ledger = s.ledger := rfl
@[simp] theorem State.setReg_trust (s : State) (r : Reg) (i : Nat) (v : Word) : (s.setReg r i v).trust = s.trust := rfl
@[simp] theorem State.setReg_cond (s : State) (r : Reg) (i : Nat) (v : Word) : (s.setReg r i v).cond = s.cond := rfl
@[simp] theorem State.setReg_ckpts (s : State) (r : Reg) (i : Nat) (v : Word) : (s.setReg r i v).ckpts = s.ckpts := rfl
@[simp] theorem State.setReg_pair (s : State) (r : Reg) (i : Nat) (v : Word) : (s.setReg r i v).pair = s.pair := rfl
@[simp] theorem State.setReg_agent (s : State) (r : Reg) (i : Nat) (v : Word) : (s.setReg r i v).agent = s.agent := rfl
@[simp] theorem State.setReg_power (s : State) (r : Reg) (i : Nat) (v : Word) : (s.setReg r i v).power = s.power := rfl
@[simp] theorem State.setReg_phys (s : State) (r : Reg) (i : Nat) (v : Word) : (s.setReg r i v).phys = s.phys := rfl
@[simp] theorem State.setReg_cnt (s : State) (r : Reg) (i : Nat) (v : Word) : (s.setReg r i v).cnt = s.cnt := rfl
@[simp] theorem State.setReg_mainSince (s : State) (r : Reg) (i : Nat) (v : Word) : (s.setReg r i v).mainSince = s.mainSince := rfl
@[simp] theorem State.setReg_cntHeld (s : State) (r : Reg) (i : Nat) (v : Word) : (s.setReg r i v).cntHeld = s.cntHeld := rfl
@[simp] theorem State.setReg_always (s : State) (r : Reg) (i : Nat) (v : Word) : (s.setReg r i v).always = s.always := rfl
@[simp] theorem State.setReg_linkCnt (s : State) (r : Reg) (i : Nat) (v : Word) : (s.setReg r i v).linkCnt = s.linkCnt := rfl
@[simp] theorem State.setReg_ssSeq (s : State) (r : Reg) (i : Nat) (v : Word) : (s.setReg r i v).ssSeq = s.ssSeq := rfl
@[simp] theorem State.setReg_ssBusy (s : State) (r : Reg) (i : Nat) (v : Word) : (s.setReg r i v).ssBusy = s.ssBusy := rfl
@[simp] theorem State.setReg_ssSkippedBefore (s : State) (r : Reg) (i : Nat) (v : Word) : (s.setReg r i v).ssSkippedBefore = s.ssSkippedBefore := rfl
@[simp] theorem State.setReg_ssRecord (s : State) (r : Reg) (i : Nat) (v : Word) : (s.setReg r i v).ssRecord = s.ssRecord := rfl
@[simp] theorem State.setReg_ssPending (s : State) (r : Reg) (i : Nat) (v : Word) : (s.setReg r i v).ssPending = s.ssPending := rfl
@[simp] theorem State.setReg_mismatchHours (s : State) (r : Reg) (i : Nat) (v : Word) : (s.setReg r i v).mismatchHours = s.mismatchHours := rfl

/-! ## A register field -/

@[simp] theorem State.wr_pending (s : State) (f : Fld) (n i : Nat) : (s.wr f n i).pending = s.pending := rfl
@[simp] theorem State.wr_now (s : State) (f : Fld) (n i : Nat) : (s.wr f n i).now = s.now := rfl
@[simp] theorem State.wr_tick (s : State) (f : Fld) (n i : Nat) : (s.wr f n i).tick = s.tick := rfl
@[simp] theorem State.wr_fresh (s : State) (f : Fld) (n i : Nat) : (s.wr f n i).fresh = s.fresh := rfl
@[simp] theorem State.wr_out (s : State) (f : Fld) (n i : Nat) : (s.wr f n i).out = s.out := rfl
@[simp] theorem State.wr_carried (s : State) (f : Fld) (n i : Nat) : (s.wr f n i).carried = s.carried := rfl
@[simp] theorem State.wr_plane (s : State) (f : Fld) (n i : Nat) : (s.wr f n i).plane = s.plane := rfl
@[simp] theorem State.wr_tray (s : State) (f : Fld) (n i : Nat) : (s.wr f n i).tray = s.tray := rfl
@[simp] theorem State.wr_plan (s : State) (f : Fld) (n i : Nat) : (s.wr f n i).plan = s.plan := rfl
@[simp] theorem State.wr_planLive (s : State) (f : Fld) (n i : Nat) : (s.wr f n i).planLive = s.planLive := rfl
@[simp] theorem State.wr_planHash (s : State) (f : Fld) (n i : Nat) : (s.wr f n i).planHash = s.planHash := rfl
@[simp] theorem State.wr_ports (s : State) (f : Fld) (n i : Nat) : (s.wr f n i).ports = s.ports := rfl
@[simp] theorem State.wr_lanes (s : State) (f : Fld) (n i : Nat) : (s.wr f n i).lanes = s.lanes := rfl
@[simp] theorem State.wr_tx (s : State) (f : Fld) (n i : Nat) : (s.wr f n i).tx = s.tx := rfl
@[simp] theorem State.wr_lines (s : State) (f : Fld) (n i : Nat) : (s.wr f n i).lines = s.lines := rfl
@[simp] theorem State.wr_rx (s : State) (f : Fld) (n i : Nat) : (s.wr f n i).rx = s.rx := rfl
@[simp] theorem State.wr_inq (s : State) (f : Fld) (n i : Nat) : (s.wr f n i).inq = s.inq := rfl
@[simp] theorem State.wr_outq (s : State) (f : Fld) (n i : Nat) : (s.wr f n i).outq = s.outq := rfl
@[simp] theorem State.wr_vcbuf (s : State) (f : Fld) (n i : Nat) : (s.wr f n i).vcbuf = s.vcbuf := rfl
@[simp] theorem State.wr_qcharge (s : State) (f : Fld) (n i : Nat) : (s.wr f n i).qcharge = s.qcharge := rfl
@[simp] theorem State.wr_shared (s : State) (f : Fld) (n i : Nat) : (s.wr f n i).shared = s.shared := rfl
@[simp] theorem State.wr_arb (s : State) (f : Fld) (n i : Nat) : (s.wr f n i).arb = s.arb := rfl
@[simp] theorem State.wr_tables (s : State) (f : Fld) (n i : Nat) : (s.wr f n i).tables = s.tables := rfl
@[simp] theorem State.wr_shadow (s : State) (f : Fld) (n i : Nat) : (s.wr f n i).shadow = s.shadow := rfl
@[simp] theorem State.wr_escVia (s : State) (f : Fld) (n i : Nat) : (s.wr f n i).escVia = s.escVia := rfl
@[simp] theorem State.wr_lfsr (s : State) (f : Fld) (n i : Nat) : (s.wr f n i).lfsr = s.lfsr := rfl
@[simp] theorem State.wr_inFlows (s : State) (f : Fld) (n i : Nat) : (s.wr f n i).inFlows = s.inFlows := rfl
@[simp] theorem State.wr_egFlows (s : State) (f : Fld) (n i : Nat) : (s.wr f n i).egFlows = s.egFlows := rfl
@[simp] theorem State.wr_buckets (s : State) (f : Fld) (n i : Nat) : (s.wr f n i).buckets = s.buckets := rfl
@[simp] theorem State.wr_local_ (s : State) (f : Fld) (n i : Nat) : (s.wr f n i).local_ = s.local_ := rfl
@[simp] theorem State.wr_cellWait (s : State) (f : Fld) (n i : Nat) : (s.wr f n i).cellWait = s.cellWait := rfl
@[simp] theorem State.wr_notices (s : State) (f : Fld) (n i : Nat) : (s.wr f n i).notices = s.notices := rfl
@[simp] theorem State.wr_heldPkts (s : State) (f : Fld) (n i : Nat) : (s.wr f n i).heldPkts = s.heldPkts := rfl
@[simp] theorem State.wr_unitEvents (s : State) (f : Fld) (n i : Nat) : (s.wr f n i).unitEvents = s.unitEvents := rfl
@[simp] theorem State.wr_nextCast (s : State) (f : Fld) (n i : Nat) : (s.wr f n i).nextCast = s.nextCast := rfl
@[simp] theorem State.wr_bindCount (s : State) (f : Fld) (n i : Nat) : (s.wr f n i).bindCount = s.bindCount := rfl
@[simp] theorem State.wr_instCount (s : State) (f : Fld) (n i : Nat) : (s.wr f n i).instCount = s.instCount := rfl
@[simp] theorem State.wr_topDown (s : State) (f : Fld) (n i : Nat) : (s.wr f n i).topDown = s.topDown := rfl
@[simp] theorem State.wr_waitCmds (s : State) (f : Fld) (n i : Nat) : (s.wr f n i).waitCmds = s.waitCmds := rfl
@[simp] theorem State.wr_restarting (s : State) (f : Fld) (n i : Nat) : (s.wr f n i).restarting = s.restarting := rfl
@[simp] theorem State.wr_verifySlices (s : State) (f : Fld) (n i : Nat) : (s.wr f n i).verifySlices = s.verifySlices := rfl
@[simp] theorem State.wr_groups (s : State) (f : Fld) (n i : Nat) : (s.wr f n i).groups = s.groups := rfl
@[simp] theorem State.wr_slots (s : State) (f : Fld) (n i : Nat) : (s.wr f n i).slots = s.slots := rfl
@[simp] theorem State.wr_bindWaits (s : State) (f : Fld) (n i : Nat) : (s.wr f n i).bindWaits = s.bindWaits := rfl
@[simp] theorem State.wr_insts (s : State) (f : Fld) (n i : Nat) : (s.wr f n i).insts = s.insts := rfl
@[simp] theorem State.wr_banks (s : State) (f : Fld) (n i : Nat) : (s.wr f n i).banks = s.banks := rfl
@[simp] theorem State.wr_retired (s : State) (f : Fld) (n i : Nat) : (s.wr f n i).retired = s.retired := rfl
@[simp] theorem State.wr_spares (s : State) (f : Fld) (n i : Nat) : (s.wr f n i).spares = s.spares := rfl
@[simp] theorem State.wr_symTimes (s : State) (f : Fld) (n i : Nat) : (s.wr f n i).symTimes = s.symTimes := rfl
@[simp] theorem State.wr_ueWords (s : State) (f : Fld) (n i : Nat) : (s.wr f n i).ueWords = s.ueWords := rfl
@[simp] theorem State.wr_retireAsk (s : State) (f : Fld) (n i : Nat) : (s.wr f n i).retireAsk = s.retireAsk := rfl
@[simp] theorem State.wr_recarve (s : State) (f : Fld) (n i : Nat) : (s.wr f n i).recarve = s.recarve := rfl
@[simp] theorem State.wr_outOfService (s : State) (f : Fld) (n i : Nat) : (s.wr f n i).outOfService = s.outOfService := rfl
@[simp] theorem State.wr_cdcOut (s : State) (f : Fld) (n i : Nat) : (s.wr f n i).cdcOut = s.cdcOut := rfl
@[simp] theorem State.wr_dmaCount (s : State) (f : Fld) (n i : Nat) : (s.wr f n i).dmaCount = s.dmaCount := rfl
@[simp] theorem State.wr_ctxs (s : State) (f : Fld) (n i : Nat) : (s.wr f n i).ctxs = s.ctxs := rfl
@[simp] theorem State.wr_coreFenced (s : State) (f : Fld) (n i : Nat) : (s.wr f n i).coreFenced = s.coreFenced := rfl
@[simp] theorem State.wr_rrCtx (s : State) (f : Fld) (n i : Nat) : (s.wr f n i).rrCtx = s.rrCtx := rfl
@[simp] theorem State.wr_programs (s : State) (f : Fld) (n i : Nat) : (s.wr f n i).programs = s.programs := rfl
@[simp] theorem State.wr_mem (s : State) (f : Fld) (n i : Nat) : (s.wr f n i).mem = s.mem := rfl
@[simp] theorem State.wr_memPoison (s : State) (f : Fld) (n i : Nat) : (s.wr f n i).memPoison = s.memPoison := rfl
@[simp] theorem State.wr_memReads (s : State) (f : Fld) (n i : Nat) : (s.wr f n i).memReads = s.memReads := rfl
@[simp] theorem State.wr_nextMemTag (s : State) (f : Fld) (n i : Nat) : (s.wr f n i).nextMemTag = s.nextMemTag := rfl
@[simp] theorem State.wr_ownReqs (s : State) (f : Fld) (n i : Nat) : (s.wr f n i).ownReqs = s.ownReqs := rfl
@[simp] theorem State.wr_ownRsps (s : State) (f : Fld) (n i : Nat) : (s.wr f n i).ownRsps = s.ownRsps := rfl
@[simp] theorem State.wr_scrubPos (s : State) (f : Fld) (n i : Nat) : (s.wr f n i).scrubPos = s.scrubPos := rfl
@[simp] theorem State.wr_scrubClock (s : State) (f : Fld) (n i : Nat) : (s.wr f n i).scrubClock = s.scrubClock := rfl
@[simp] theorem State.wr_scrubMark (s : State) (f : Fld) (n i : Nat) : (s.wr f n i).scrubMark = s.scrubMark := rfl
@[simp] theorem State.wr_refreshes (s : State) (f : Fld) (n i : Nat) : (s.wr f n i).refreshes = s.refreshes := rfl
@[simp] theorem State.wr_streams (s : State) (f : Fld) (n i : Nat) : (s.wr f n i).streams = s.streams := rfl
@[simp] theorem State.wr_streamShadow (s : State) (f : Fld) (n i : Nat) : (s.wr f n i).streamShadow = s.streamShadow := rfl
@[simp] theorem State.wr_runs (s : State) (f : Fld) (n i : Nat) : (s.wr f n i).runs = s.runs := rfl
@[simp] theorem State.wr_sepoch (s : State) (f : Fld) (n i : Nat) : (s.wr f n i).sepoch = s.sepoch := rfl
@[simp] theorem State.wr_streamSwitch (s : State) (f : Fld) (n i : Nat) : (s.wr f n i).streamSwitch = s.streamSwitch := rfl
@[simp] theorem State.wr_streamHeld (s : State) (f : Fld) (n i : Nat) : (s.wr f n i).streamHeld = s.streamHeld := rfl
@[simp] theorem State.wr_streamTurn (s : State) (f : Fld) (n i : Nat) : (s.wr f n i).streamTurn = s.streamTurn := rfl
@[simp] theorem State.wr_eth (s : State) (f : Fld) (n i : Nat) : (s.wr f n i).eth = s.eth := rfl
@[simp] theorem State.wr_ethAddr (s : State) (f : Fld) (n i : Nat) : (s.wr f n i).ethAddr = s.ethAddr := rfl
@[simp] theorem State.wr_dmaIdx (s : State) (f : Fld) (n i : Nat) : (s.wr f n i).dmaIdx = s.dmaIdx := rfl
@[simp] theorem State.wr_dmaRecheck (s : State) (f : Fld) (n i : Nat) : (s.wr f n i).dmaRecheck = s.dmaRecheck := rfl
@[simp] theorem State.wr_msixTable (s : State) (f : Fld) (n i : Nat) : (s.wr f n i).msixTable = s.msixTable := rfl
@[simp] theorem State.wr_pba (s : State) (f : Fld) (n i : Nat) : (s.wr f n i).pba = s.pba := rfl
@[simp] theorem State.wr_mbx (s : State) (f : Fld) (n i : Nat) : (s.wr f n i).mbx = s.mbx := rfl
@[simp] theorem State.wr_mbxImage (s : State) (f : Fld) (n i : Nat) : (s.wr f n i).mbxImage = s.mbxImage := rfl
@[simp] theorem State.wr_stored (s : State) (f : Fld) (n i : Nat) : (s.wr f n i).stored = s.stored := rfl
@[simp] theorem State.wr_hello (s : State) (f : Fld) (n i : Nat) : (s.wr f n i).hello = s.hello := rfl
@[simp] theorem State.wr_grants (s : State) (f : Fld) (n i : Nat) : (s.wr f n i).grants = s.grants := rfl
@[simp] theorem State.wr_stages (s : State) (f : Fld) (n i : Nat) : (s.wr f n i).stages = s.stages := rfl
@[simp] theorem State.wr_recvCount (s : State) (f : Fld) (n i : Nat) : (s.wr f n i).recvCount = s.recvCount := rfl
@[simp] theorem State.wr_errs (s : State) (f : Fld) (n i : Nat) : (s.wr f n i).errs = s.errs := rfl
@[simp] theorem State.wr_rseq (s : State) (f : Fld) (n i : Nat) : (s.wr f n i).rseq = s.rseq := rfl
@[simp] theorem State.wr_dice (s : State) (f : Fld) (n i : Nat) : (s.wr f n i).dice = s.dice := rfl
@[simp] theorem State.wr_ledger (s : State) (f : Fld) (n i : Nat) : (s.wr f n i).ledger = s.ledger := rfl
@[simp] theorem State.wr_trust (s : State) (f : Fld) (n i : Nat) : (s.wr f n i).trust = s.trust := rfl
@[simp] theorem State.wr_cond (s : State) (f : Fld) (n i : Nat) : (s.wr f n i).cond = s.cond := rfl
@[simp] theorem State.wr_ckpts (s : State) (f : Fld) (n i : Nat) : (s.wr f n i).ckpts = s.ckpts := rfl
@[simp] theorem State.wr_pair (s : State) (f : Fld) (n i : Nat) : (s.wr f n i).pair = s.pair := rfl
@[simp] theorem State.wr_agent (s : State) (f : Fld) (n i : Nat) : (s.wr f n i).agent = s.agent := rfl
@[simp] theorem State.wr_power (s : State) (f : Fld) (n i : Nat) : (s.wr f n i).power = s.power := rfl
@[simp] theorem State.wr_phys (s : State) (f : Fld) (n i : Nat) : (s.wr f n i).phys = s.phys := rfl
@[simp] theorem State.wr_cnt (s : State) (f : Fld) (n i : Nat) : (s.wr f n i).cnt = s.cnt := rfl
@[simp] theorem State.wr_mainSince (s : State) (f : Fld) (n i : Nat) : (s.wr f n i).mainSince = s.mainSince := rfl
@[simp] theorem State.wr_cntHeld (s : State) (f : Fld) (n i : Nat) : (s.wr f n i).cntHeld = s.cntHeld := rfl
@[simp] theorem State.wr_always (s : State) (f : Fld) (n i : Nat) : (s.wr f n i).always = s.always := rfl
@[simp] theorem State.wr_linkCnt (s : State) (f : Fld) (n i : Nat) : (s.wr f n i).linkCnt = s.linkCnt := rfl
@[simp] theorem State.wr_ssSeq (s : State) (f : Fld) (n i : Nat) : (s.wr f n i).ssSeq = s.ssSeq := rfl
@[simp] theorem State.wr_ssBusy (s : State) (f : Fld) (n i : Nat) : (s.wr f n i).ssBusy = s.ssBusy := rfl
@[simp] theorem State.wr_ssSkippedBefore (s : State) (f : Fld) (n i : Nat) : (s.wr f n i).ssSkippedBefore = s.ssSkippedBefore := rfl
@[simp] theorem State.wr_ssRecord (s : State) (f : Fld) (n i : Nat) : (s.wr f n i).ssRecord = s.ssRecord := rfl
@[simp] theorem State.wr_ssPending (s : State) (f : Fld) (n i : Nat) : (s.wr f n i).ssPending = s.ssPending := rfl
@[simp] theorem State.wr_mismatchHours (s : State) (f : Fld) (n i : Nat) : (s.wr f n i).mismatchHours = s.mismatchHours := rfl

/-! ## A counting field -/

@[simp] theorem State.addSat_pending (s : State) (f : Fld) (n i : Nat) : (s.addSat f n i).pending = s.pending := rfl
@[simp] theorem State.addSat_now (s : State) (f : Fld) (n i : Nat) : (s.addSat f n i).now = s.now := rfl
@[simp] theorem State.addSat_tick (s : State) (f : Fld) (n i : Nat) : (s.addSat f n i).tick = s.tick := rfl
@[simp] theorem State.addSat_fresh (s : State) (f : Fld) (n i : Nat) : (s.addSat f n i).fresh = s.fresh := rfl
@[simp] theorem State.addSat_out (s : State) (f : Fld) (n i : Nat) : (s.addSat f n i).out = s.out := rfl
@[simp] theorem State.addSat_carried (s : State) (f : Fld) (n i : Nat) : (s.addSat f n i).carried = s.carried := rfl
@[simp] theorem State.addSat_plane (s : State) (f : Fld) (n i : Nat) : (s.addSat f n i).plane = s.plane := rfl
@[simp] theorem State.addSat_tray (s : State) (f : Fld) (n i : Nat) : (s.addSat f n i).tray = s.tray := rfl
@[simp] theorem State.addSat_plan (s : State) (f : Fld) (n i : Nat) : (s.addSat f n i).plan = s.plan := rfl
@[simp] theorem State.addSat_planLive (s : State) (f : Fld) (n i : Nat) : (s.addSat f n i).planLive = s.planLive := rfl
@[simp] theorem State.addSat_planHash (s : State) (f : Fld) (n i : Nat) : (s.addSat f n i).planHash = s.planHash := rfl
@[simp] theorem State.addSat_ports (s : State) (f : Fld) (n i : Nat) : (s.addSat f n i).ports = s.ports := rfl
@[simp] theorem State.addSat_lanes (s : State) (f : Fld) (n i : Nat) : (s.addSat f n i).lanes = s.lanes := rfl
@[simp] theorem State.addSat_tx (s : State) (f : Fld) (n i : Nat) : (s.addSat f n i).tx = s.tx := rfl
@[simp] theorem State.addSat_lines (s : State) (f : Fld) (n i : Nat) : (s.addSat f n i).lines = s.lines := rfl
@[simp] theorem State.addSat_rx (s : State) (f : Fld) (n i : Nat) : (s.addSat f n i).rx = s.rx := rfl
@[simp] theorem State.addSat_inq (s : State) (f : Fld) (n i : Nat) : (s.addSat f n i).inq = s.inq := rfl
@[simp] theorem State.addSat_outq (s : State) (f : Fld) (n i : Nat) : (s.addSat f n i).outq = s.outq := rfl
@[simp] theorem State.addSat_vcbuf (s : State) (f : Fld) (n i : Nat) : (s.addSat f n i).vcbuf = s.vcbuf := rfl
@[simp] theorem State.addSat_qcharge (s : State) (f : Fld) (n i : Nat) : (s.addSat f n i).qcharge = s.qcharge := rfl
@[simp] theorem State.addSat_shared (s : State) (f : Fld) (n i : Nat) : (s.addSat f n i).shared = s.shared := rfl
@[simp] theorem State.addSat_arb (s : State) (f : Fld) (n i : Nat) : (s.addSat f n i).arb = s.arb := rfl
@[simp] theorem State.addSat_tables (s : State) (f : Fld) (n i : Nat) : (s.addSat f n i).tables = s.tables := rfl
@[simp] theorem State.addSat_shadow (s : State) (f : Fld) (n i : Nat) : (s.addSat f n i).shadow = s.shadow := rfl
@[simp] theorem State.addSat_escVia (s : State) (f : Fld) (n i : Nat) : (s.addSat f n i).escVia = s.escVia := rfl
@[simp] theorem State.addSat_lfsr (s : State) (f : Fld) (n i : Nat) : (s.addSat f n i).lfsr = s.lfsr := rfl
@[simp] theorem State.addSat_inFlows (s : State) (f : Fld) (n i : Nat) : (s.addSat f n i).inFlows = s.inFlows := rfl
@[simp] theorem State.addSat_egFlows (s : State) (f : Fld) (n i : Nat) : (s.addSat f n i).egFlows = s.egFlows := rfl
@[simp] theorem State.addSat_buckets (s : State) (f : Fld) (n i : Nat) : (s.addSat f n i).buckets = s.buckets := rfl
@[simp] theorem State.addSat_local_ (s : State) (f : Fld) (n i : Nat) : (s.addSat f n i).local_ = s.local_ := rfl
@[simp] theorem State.addSat_cellWait (s : State) (f : Fld) (n i : Nat) : (s.addSat f n i).cellWait = s.cellWait := rfl
@[simp] theorem State.addSat_notices (s : State) (f : Fld) (n i : Nat) : (s.addSat f n i).notices = s.notices := rfl
@[simp] theorem State.addSat_heldPkts (s : State) (f : Fld) (n i : Nat) : (s.addSat f n i).heldPkts = s.heldPkts := rfl
@[simp] theorem State.addSat_unitEvents (s : State) (f : Fld) (n i : Nat) : (s.addSat f n i).unitEvents = s.unitEvents := rfl
@[simp] theorem State.addSat_nextCast (s : State) (f : Fld) (n i : Nat) : (s.addSat f n i).nextCast = s.nextCast := rfl
@[simp] theorem State.addSat_bindCount (s : State) (f : Fld) (n i : Nat) : (s.addSat f n i).bindCount = s.bindCount := rfl
@[simp] theorem State.addSat_instCount (s : State) (f : Fld) (n i : Nat) : (s.addSat f n i).instCount = s.instCount := rfl
@[simp] theorem State.addSat_topDown (s : State) (f : Fld) (n i : Nat) : (s.addSat f n i).topDown = s.topDown := rfl
@[simp] theorem State.addSat_waitCmds (s : State) (f : Fld) (n i : Nat) : (s.addSat f n i).waitCmds = s.waitCmds := rfl
@[simp] theorem State.addSat_restarting (s : State) (f : Fld) (n i : Nat) : (s.addSat f n i).restarting = s.restarting := rfl
@[simp] theorem State.addSat_verifySlices (s : State) (f : Fld) (n i : Nat) : (s.addSat f n i).verifySlices = s.verifySlices := rfl
@[simp] theorem State.addSat_groups (s : State) (f : Fld) (n i : Nat) : (s.addSat f n i).groups = s.groups := rfl
@[simp] theorem State.addSat_slots (s : State) (f : Fld) (n i : Nat) : (s.addSat f n i).slots = s.slots := rfl
@[simp] theorem State.addSat_bindWaits (s : State) (f : Fld) (n i : Nat) : (s.addSat f n i).bindWaits = s.bindWaits := rfl
@[simp] theorem State.addSat_insts (s : State) (f : Fld) (n i : Nat) : (s.addSat f n i).insts = s.insts := rfl
@[simp] theorem State.addSat_banks (s : State) (f : Fld) (n i : Nat) : (s.addSat f n i).banks = s.banks := rfl
@[simp] theorem State.addSat_retired (s : State) (f : Fld) (n i : Nat) : (s.addSat f n i).retired = s.retired := rfl
@[simp] theorem State.addSat_spares (s : State) (f : Fld) (n i : Nat) : (s.addSat f n i).spares = s.spares := rfl
@[simp] theorem State.addSat_symTimes (s : State) (f : Fld) (n i : Nat) : (s.addSat f n i).symTimes = s.symTimes := rfl
@[simp] theorem State.addSat_ueWords (s : State) (f : Fld) (n i : Nat) : (s.addSat f n i).ueWords = s.ueWords := rfl
@[simp] theorem State.addSat_retireAsk (s : State) (f : Fld) (n i : Nat) : (s.addSat f n i).retireAsk = s.retireAsk := rfl
@[simp] theorem State.addSat_recarve (s : State) (f : Fld) (n i : Nat) : (s.addSat f n i).recarve = s.recarve := rfl
@[simp] theorem State.addSat_outOfService (s : State) (f : Fld) (n i : Nat) : (s.addSat f n i).outOfService = s.outOfService := rfl
@[simp] theorem State.addSat_cdcOut (s : State) (f : Fld) (n i : Nat) : (s.addSat f n i).cdcOut = s.cdcOut := rfl
@[simp] theorem State.addSat_dmaCount (s : State) (f : Fld) (n i : Nat) : (s.addSat f n i).dmaCount = s.dmaCount := rfl
@[simp] theorem State.addSat_ctxs (s : State) (f : Fld) (n i : Nat) : (s.addSat f n i).ctxs = s.ctxs := rfl
@[simp] theorem State.addSat_coreFenced (s : State) (f : Fld) (n i : Nat) : (s.addSat f n i).coreFenced = s.coreFenced := rfl
@[simp] theorem State.addSat_rrCtx (s : State) (f : Fld) (n i : Nat) : (s.addSat f n i).rrCtx = s.rrCtx := rfl
@[simp] theorem State.addSat_programs (s : State) (f : Fld) (n i : Nat) : (s.addSat f n i).programs = s.programs := rfl
@[simp] theorem State.addSat_mem (s : State) (f : Fld) (n i : Nat) : (s.addSat f n i).mem = s.mem := rfl
@[simp] theorem State.addSat_memPoison (s : State) (f : Fld) (n i : Nat) : (s.addSat f n i).memPoison = s.memPoison := rfl
@[simp] theorem State.addSat_memReads (s : State) (f : Fld) (n i : Nat) : (s.addSat f n i).memReads = s.memReads := rfl
@[simp] theorem State.addSat_nextMemTag (s : State) (f : Fld) (n i : Nat) : (s.addSat f n i).nextMemTag = s.nextMemTag := rfl
@[simp] theorem State.addSat_ownReqs (s : State) (f : Fld) (n i : Nat) : (s.addSat f n i).ownReqs = s.ownReqs := rfl
@[simp] theorem State.addSat_ownRsps (s : State) (f : Fld) (n i : Nat) : (s.addSat f n i).ownRsps = s.ownRsps := rfl
@[simp] theorem State.addSat_scrubPos (s : State) (f : Fld) (n i : Nat) : (s.addSat f n i).scrubPos = s.scrubPos := rfl
@[simp] theorem State.addSat_scrubClock (s : State) (f : Fld) (n i : Nat) : (s.addSat f n i).scrubClock = s.scrubClock := rfl
@[simp] theorem State.addSat_scrubMark (s : State) (f : Fld) (n i : Nat) : (s.addSat f n i).scrubMark = s.scrubMark := rfl
@[simp] theorem State.addSat_refreshes (s : State) (f : Fld) (n i : Nat) : (s.addSat f n i).refreshes = s.refreshes := rfl
@[simp] theorem State.addSat_streams (s : State) (f : Fld) (n i : Nat) : (s.addSat f n i).streams = s.streams := rfl
@[simp] theorem State.addSat_streamShadow (s : State) (f : Fld) (n i : Nat) : (s.addSat f n i).streamShadow = s.streamShadow := rfl
@[simp] theorem State.addSat_runs (s : State) (f : Fld) (n i : Nat) : (s.addSat f n i).runs = s.runs := rfl
@[simp] theorem State.addSat_sepoch (s : State) (f : Fld) (n i : Nat) : (s.addSat f n i).sepoch = s.sepoch := rfl
@[simp] theorem State.addSat_streamSwitch (s : State) (f : Fld) (n i : Nat) : (s.addSat f n i).streamSwitch = s.streamSwitch := rfl
@[simp] theorem State.addSat_streamHeld (s : State) (f : Fld) (n i : Nat) : (s.addSat f n i).streamHeld = s.streamHeld := rfl
@[simp] theorem State.addSat_streamTurn (s : State) (f : Fld) (n i : Nat) : (s.addSat f n i).streamTurn = s.streamTurn := rfl
@[simp] theorem State.addSat_eth (s : State) (f : Fld) (n i : Nat) : (s.addSat f n i).eth = s.eth := rfl
@[simp] theorem State.addSat_ethAddr (s : State) (f : Fld) (n i : Nat) : (s.addSat f n i).ethAddr = s.ethAddr := rfl
@[simp] theorem State.addSat_dmaIdx (s : State) (f : Fld) (n i : Nat) : (s.addSat f n i).dmaIdx = s.dmaIdx := rfl
@[simp] theorem State.addSat_dmaRecheck (s : State) (f : Fld) (n i : Nat) : (s.addSat f n i).dmaRecheck = s.dmaRecheck := rfl
@[simp] theorem State.addSat_msixTable (s : State) (f : Fld) (n i : Nat) : (s.addSat f n i).msixTable = s.msixTable := rfl
@[simp] theorem State.addSat_pba (s : State) (f : Fld) (n i : Nat) : (s.addSat f n i).pba = s.pba := rfl
@[simp] theorem State.addSat_mbx (s : State) (f : Fld) (n i : Nat) : (s.addSat f n i).mbx = s.mbx := rfl
@[simp] theorem State.addSat_mbxImage (s : State) (f : Fld) (n i : Nat) : (s.addSat f n i).mbxImage = s.mbxImage := rfl
@[simp] theorem State.addSat_stored (s : State) (f : Fld) (n i : Nat) : (s.addSat f n i).stored = s.stored := rfl
@[simp] theorem State.addSat_hello (s : State) (f : Fld) (n i : Nat) : (s.addSat f n i).hello = s.hello := rfl
@[simp] theorem State.addSat_grants (s : State) (f : Fld) (n i : Nat) : (s.addSat f n i).grants = s.grants := rfl
@[simp] theorem State.addSat_stages (s : State) (f : Fld) (n i : Nat) : (s.addSat f n i).stages = s.stages := rfl
@[simp] theorem State.addSat_recvCount (s : State) (f : Fld) (n i : Nat) : (s.addSat f n i).recvCount = s.recvCount := rfl
@[simp] theorem State.addSat_errs (s : State) (f : Fld) (n i : Nat) : (s.addSat f n i).errs = s.errs := rfl
@[simp] theorem State.addSat_rseq (s : State) (f : Fld) (n i : Nat) : (s.addSat f n i).rseq = s.rseq := rfl
@[simp] theorem State.addSat_dice (s : State) (f : Fld) (n i : Nat) : (s.addSat f n i).dice = s.dice := rfl
@[simp] theorem State.addSat_ledger (s : State) (f : Fld) (n i : Nat) : (s.addSat f n i).ledger = s.ledger := rfl
@[simp] theorem State.addSat_trust (s : State) (f : Fld) (n i : Nat) : (s.addSat f n i).trust = s.trust := rfl
@[simp] theorem State.addSat_cond (s : State) (f : Fld) (n i : Nat) : (s.addSat f n i).cond = s.cond := rfl
@[simp] theorem State.addSat_ckpts (s : State) (f : Fld) (n i : Nat) : (s.addSat f n i).ckpts = s.ckpts := rfl
@[simp] theorem State.addSat_pair (s : State) (f : Fld) (n i : Nat) : (s.addSat f n i).pair = s.pair := rfl
@[simp] theorem State.addSat_agent (s : State) (f : Fld) (n i : Nat) : (s.addSat f n i).agent = s.agent := rfl
@[simp] theorem State.addSat_power (s : State) (f : Fld) (n i : Nat) : (s.addSat f n i).power = s.power := rfl
@[simp] theorem State.addSat_phys (s : State) (f : Fld) (n i : Nat) : (s.addSat f n i).phys = s.phys := rfl
@[simp] theorem State.addSat_cnt (s : State) (f : Fld) (n i : Nat) : (s.addSat f n i).cnt = s.cnt := rfl
@[simp] theorem State.addSat_mainSince (s : State) (f : Fld) (n i : Nat) : (s.addSat f n i).mainSince = s.mainSince := rfl
@[simp] theorem State.addSat_cntHeld (s : State) (f : Fld) (n i : Nat) : (s.addSat f n i).cntHeld = s.cntHeld := rfl
@[simp] theorem State.addSat_always (s : State) (f : Fld) (n i : Nat) : (s.addSat f n i).always = s.always := rfl
@[simp] theorem State.addSat_linkCnt (s : State) (f : Fld) (n i : Nat) : (s.addSat f n i).linkCnt = s.linkCnt := rfl
@[simp] theorem State.addSat_ssSeq (s : State) (f : Fld) (n i : Nat) : (s.addSat f n i).ssSeq = s.ssSeq := rfl
@[simp] theorem State.addSat_ssBusy (s : State) (f : Fld) (n i : Nat) : (s.addSat f n i).ssBusy = s.ssBusy := rfl
@[simp] theorem State.addSat_ssSkippedBefore (s : State) (f : Fld) (n i : Nat) : (s.addSat f n i).ssSkippedBefore = s.ssSkippedBefore := rfl
@[simp] theorem State.addSat_ssRecord (s : State) (f : Fld) (n i : Nat) : (s.addSat f n i).ssRecord = s.ssRecord := rfl
@[simp] theorem State.addSat_ssPending (s : State) (f : Fld) (n i : Nat) : (s.addSat f n i).ssPending = s.ssPending := rfl
@[simp] theorem State.addSat_mismatchHours (s : State) (f : Fld) (n i : Nat) : (s.addSat f n i).mismatchHours = s.mismatchHours := rfl

/-! ## An output -/

@[simp] theorem State.emit_pending (s : State) (o : Out) : (s.emit o).pending = s.pending := rfl
@[simp] theorem State.emit_now (s : State) (o : Out) : (s.emit o).now = s.now := rfl
@[simp] theorem State.emit_tick (s : State) (o : Out) : (s.emit o).tick = s.tick := rfl
@[simp] theorem State.emit_fresh (s : State) (o : Out) : (s.emit o).fresh = s.fresh := rfl
@[simp] theorem State.emit_carried (s : State) (o : Out) : (s.emit o).carried = s.carried := rfl
@[simp] theorem State.emit_regs (s : State) (o : Out) : (s.emit o).regs = s.regs := rfl
@[simp] theorem State.emit_plane (s : State) (o : Out) : (s.emit o).plane = s.plane := rfl
@[simp] theorem State.emit_tray (s : State) (o : Out) : (s.emit o).tray = s.tray := rfl
@[simp] theorem State.emit_plan (s : State) (o : Out) : (s.emit o).plan = s.plan := rfl
@[simp] theorem State.emit_planLive (s : State) (o : Out) : (s.emit o).planLive = s.planLive := rfl
@[simp] theorem State.emit_planHash (s : State) (o : Out) : (s.emit o).planHash = s.planHash := rfl
@[simp] theorem State.emit_ports (s : State) (o : Out) : (s.emit o).ports = s.ports := rfl
@[simp] theorem State.emit_lanes (s : State) (o : Out) : (s.emit o).lanes = s.lanes := rfl
@[simp] theorem State.emit_tx (s : State) (o : Out) : (s.emit o).tx = s.tx := rfl
@[simp] theorem State.emit_lines (s : State) (o : Out) : (s.emit o).lines = s.lines := rfl
@[simp] theorem State.emit_rx (s : State) (o : Out) : (s.emit o).rx = s.rx := rfl
@[simp] theorem State.emit_inq (s : State) (o : Out) : (s.emit o).inq = s.inq := rfl
@[simp] theorem State.emit_outq (s : State) (o : Out) : (s.emit o).outq = s.outq := rfl
@[simp] theorem State.emit_vcbuf (s : State) (o : Out) : (s.emit o).vcbuf = s.vcbuf := rfl
@[simp] theorem State.emit_qcharge (s : State) (o : Out) : (s.emit o).qcharge = s.qcharge := rfl
@[simp] theorem State.emit_shared (s : State) (o : Out) : (s.emit o).shared = s.shared := rfl
@[simp] theorem State.emit_arb (s : State) (o : Out) : (s.emit o).arb = s.arb := rfl
@[simp] theorem State.emit_tables (s : State) (o : Out) : (s.emit o).tables = s.tables := rfl
@[simp] theorem State.emit_shadow (s : State) (o : Out) : (s.emit o).shadow = s.shadow := rfl
@[simp] theorem State.emit_escVia (s : State) (o : Out) : (s.emit o).escVia = s.escVia := rfl
@[simp] theorem State.emit_lfsr (s : State) (o : Out) : (s.emit o).lfsr = s.lfsr := rfl
@[simp] theorem State.emit_inFlows (s : State) (o : Out) : (s.emit o).inFlows = s.inFlows := rfl
@[simp] theorem State.emit_egFlows (s : State) (o : Out) : (s.emit o).egFlows = s.egFlows := rfl
@[simp] theorem State.emit_buckets (s : State) (o : Out) : (s.emit o).buckets = s.buckets := rfl
@[simp] theorem State.emit_local_ (s : State) (o : Out) : (s.emit o).local_ = s.local_ := rfl
@[simp] theorem State.emit_cellWait (s : State) (o : Out) : (s.emit o).cellWait = s.cellWait := rfl
@[simp] theorem State.emit_notices (s : State) (o : Out) : (s.emit o).notices = s.notices := rfl
@[simp] theorem State.emit_heldPkts (s : State) (o : Out) : (s.emit o).heldPkts = s.heldPkts := rfl
@[simp] theorem State.emit_unitEvents (s : State) (o : Out) : (s.emit o).unitEvents = s.unitEvents := rfl
@[simp] theorem State.emit_nextCast (s : State) (o : Out) : (s.emit o).nextCast = s.nextCast := rfl
@[simp] theorem State.emit_bindCount (s : State) (o : Out) : (s.emit o).bindCount = s.bindCount := rfl
@[simp] theorem State.emit_instCount (s : State) (o : Out) : (s.emit o).instCount = s.instCount := rfl
@[simp] theorem State.emit_topDown (s : State) (o : Out) : (s.emit o).topDown = s.topDown := rfl
@[simp] theorem State.emit_waitCmds (s : State) (o : Out) : (s.emit o).waitCmds = s.waitCmds := rfl
@[simp] theorem State.emit_restarting (s : State) (o : Out) : (s.emit o).restarting = s.restarting := rfl
@[simp] theorem State.emit_verifySlices (s : State) (o : Out) : (s.emit o).verifySlices = s.verifySlices := rfl
@[simp] theorem State.emit_groups (s : State) (o : Out) : (s.emit o).groups = s.groups := rfl
@[simp] theorem State.emit_slots (s : State) (o : Out) : (s.emit o).slots = s.slots := rfl
@[simp] theorem State.emit_bindWaits (s : State) (o : Out) : (s.emit o).bindWaits = s.bindWaits := rfl
@[simp] theorem State.emit_insts (s : State) (o : Out) : (s.emit o).insts = s.insts := rfl
@[simp] theorem State.emit_banks (s : State) (o : Out) : (s.emit o).banks = s.banks := rfl
@[simp] theorem State.emit_retired (s : State) (o : Out) : (s.emit o).retired = s.retired := rfl
@[simp] theorem State.emit_spares (s : State) (o : Out) : (s.emit o).spares = s.spares := rfl
@[simp] theorem State.emit_symTimes (s : State) (o : Out) : (s.emit o).symTimes = s.symTimes := rfl
@[simp] theorem State.emit_ueWords (s : State) (o : Out) : (s.emit o).ueWords = s.ueWords := rfl
@[simp] theorem State.emit_retireAsk (s : State) (o : Out) : (s.emit o).retireAsk = s.retireAsk := rfl
@[simp] theorem State.emit_recarve (s : State) (o : Out) : (s.emit o).recarve = s.recarve := rfl
@[simp] theorem State.emit_outOfService (s : State) (o : Out) : (s.emit o).outOfService = s.outOfService := rfl
@[simp] theorem State.emit_cdcOut (s : State) (o : Out) : (s.emit o).cdcOut = s.cdcOut := rfl
@[simp] theorem State.emit_dmaCount (s : State) (o : Out) : (s.emit o).dmaCount = s.dmaCount := rfl
@[simp] theorem State.emit_ctxs (s : State) (o : Out) : (s.emit o).ctxs = s.ctxs := rfl
@[simp] theorem State.emit_coreFenced (s : State) (o : Out) : (s.emit o).coreFenced = s.coreFenced := rfl
@[simp] theorem State.emit_rrCtx (s : State) (o : Out) : (s.emit o).rrCtx = s.rrCtx := rfl
@[simp] theorem State.emit_programs (s : State) (o : Out) : (s.emit o).programs = s.programs := rfl
@[simp] theorem State.emit_mem (s : State) (o : Out) : (s.emit o).mem = s.mem := rfl
@[simp] theorem State.emit_memPoison (s : State) (o : Out) : (s.emit o).memPoison = s.memPoison := rfl
@[simp] theorem State.emit_memReads (s : State) (o : Out) : (s.emit o).memReads = s.memReads := rfl
@[simp] theorem State.emit_nextMemTag (s : State) (o : Out) : (s.emit o).nextMemTag = s.nextMemTag := rfl
@[simp] theorem State.emit_ownReqs (s : State) (o : Out) : (s.emit o).ownReqs = s.ownReqs := rfl
@[simp] theorem State.emit_ownRsps (s : State) (o : Out) : (s.emit o).ownRsps = s.ownRsps := rfl
@[simp] theorem State.emit_scrubPos (s : State) (o : Out) : (s.emit o).scrubPos = s.scrubPos := rfl
@[simp] theorem State.emit_scrubClock (s : State) (o : Out) : (s.emit o).scrubClock = s.scrubClock := rfl
@[simp] theorem State.emit_scrubMark (s : State) (o : Out) : (s.emit o).scrubMark = s.scrubMark := rfl
@[simp] theorem State.emit_refreshes (s : State) (o : Out) : (s.emit o).refreshes = s.refreshes := rfl
@[simp] theorem State.emit_streams (s : State) (o : Out) : (s.emit o).streams = s.streams := rfl
@[simp] theorem State.emit_streamShadow (s : State) (o : Out) : (s.emit o).streamShadow = s.streamShadow := rfl
@[simp] theorem State.emit_runs (s : State) (o : Out) : (s.emit o).runs = s.runs := rfl
@[simp] theorem State.emit_sepoch (s : State) (o : Out) : (s.emit o).sepoch = s.sepoch := rfl
@[simp] theorem State.emit_streamSwitch (s : State) (o : Out) : (s.emit o).streamSwitch = s.streamSwitch := rfl
@[simp] theorem State.emit_streamHeld (s : State) (o : Out) : (s.emit o).streamHeld = s.streamHeld := rfl
@[simp] theorem State.emit_streamTurn (s : State) (o : Out) : (s.emit o).streamTurn = s.streamTurn := rfl
@[simp] theorem State.emit_eth (s : State) (o : Out) : (s.emit o).eth = s.eth := rfl
@[simp] theorem State.emit_ethAddr (s : State) (o : Out) : (s.emit o).ethAddr = s.ethAddr := rfl
@[simp] theorem State.emit_dmaIdx (s : State) (o : Out) : (s.emit o).dmaIdx = s.dmaIdx := rfl
@[simp] theorem State.emit_dmaRecheck (s : State) (o : Out) : (s.emit o).dmaRecheck = s.dmaRecheck := rfl
@[simp] theorem State.emit_msixTable (s : State) (o : Out) : (s.emit o).msixTable = s.msixTable := rfl
@[simp] theorem State.emit_pba (s : State) (o : Out) : (s.emit o).pba = s.pba := rfl
@[simp] theorem State.emit_mbx (s : State) (o : Out) : (s.emit o).mbx = s.mbx := rfl
@[simp] theorem State.emit_mbxImage (s : State) (o : Out) : (s.emit o).mbxImage = s.mbxImage := rfl
@[simp] theorem State.emit_stored (s : State) (o : Out) : (s.emit o).stored = s.stored := rfl
@[simp] theorem State.emit_hello (s : State) (o : Out) : (s.emit o).hello = s.hello := rfl
@[simp] theorem State.emit_grants (s : State) (o : Out) : (s.emit o).grants = s.grants := rfl
@[simp] theorem State.emit_stages (s : State) (o : Out) : (s.emit o).stages = s.stages := rfl
@[simp] theorem State.emit_recvCount (s : State) (o : Out) : (s.emit o).recvCount = s.recvCount := rfl
@[simp] theorem State.emit_errs (s : State) (o : Out) : (s.emit o).errs = s.errs := rfl
@[simp] theorem State.emit_rseq (s : State) (o : Out) : (s.emit o).rseq = s.rseq := rfl
@[simp] theorem State.emit_dice (s : State) (o : Out) : (s.emit o).dice = s.dice := rfl
@[simp] theorem State.emit_ledger (s : State) (o : Out) : (s.emit o).ledger = s.ledger := rfl
@[simp] theorem State.emit_trust (s : State) (o : Out) : (s.emit o).trust = s.trust := rfl
@[simp] theorem State.emit_cond (s : State) (o : Out) : (s.emit o).cond = s.cond := rfl
@[simp] theorem State.emit_ckpts (s : State) (o : Out) : (s.emit o).ckpts = s.ckpts := rfl
@[simp] theorem State.emit_pair (s : State) (o : Out) : (s.emit o).pair = s.pair := rfl
@[simp] theorem State.emit_agent (s : State) (o : Out) : (s.emit o).agent = s.agent := rfl
@[simp] theorem State.emit_power (s : State) (o : Out) : (s.emit o).power = s.power := rfl
@[simp] theorem State.emit_phys (s : State) (o : Out) : (s.emit o).phys = s.phys := rfl
@[simp] theorem State.emit_cnt (s : State) (o : Out) : (s.emit o).cnt = s.cnt := rfl
@[simp] theorem State.emit_mainSince (s : State) (o : Out) : (s.emit o).mainSince = s.mainSince := rfl
@[simp] theorem State.emit_cntHeld (s : State) (o : Out) : (s.emit o).cntHeld = s.cntHeld := rfl
@[simp] theorem State.emit_always (s : State) (o : Out) : (s.emit o).always = s.always := rfl
@[simp] theorem State.emit_linkCnt (s : State) (o : Out) : (s.emit o).linkCnt = s.linkCnt := rfl
@[simp] theorem State.emit_ssSeq (s : State) (o : Out) : (s.emit o).ssSeq = s.ssSeq := rfl
@[simp] theorem State.emit_ssBusy (s : State) (o : Out) : (s.emit o).ssBusy = s.ssBusy := rfl
@[simp] theorem State.emit_ssSkippedBefore (s : State) (o : Out) : (s.emit o).ssSkippedBefore = s.ssSkippedBefore := rfl
@[simp] theorem State.emit_ssRecord (s : State) (o : Out) : (s.emit o).ssRecord = s.ssRecord := rfl
@[simp] theorem State.emit_ssPending (s : State) (o : Out) : (s.emit o).ssPending = s.ssPending := rfl
@[simp] theorem State.emit_mismatchHours (s : State) (o : Out) : (s.emit o).mismatchHours = s.mismatchHours := rfl

/-! ## The entry of `ports` -/

@[simp] theorem State.putPort_pending (s : State) (k : Nat) (v : PortSt) : (s.putPort k v).pending = s.pending := rfl
@[simp] theorem State.putPort_now (s : State) (k : Nat) (v : PortSt) : (s.putPort k v).now = s.now := rfl
@[simp] theorem State.putPort_tick (s : State) (k : Nat) (v : PortSt) : (s.putPort k v).tick = s.tick := rfl
@[simp] theorem State.putPort_fresh (s : State) (k : Nat) (v : PortSt) : (s.putPort k v).fresh = s.fresh := rfl
@[simp] theorem State.putPort_out (s : State) (k : Nat) (v : PortSt) : (s.putPort k v).out = s.out := rfl
@[simp] theorem State.putPort_carried (s : State) (k : Nat) (v : PortSt) : (s.putPort k v).carried = s.carried := rfl
@[simp] theorem State.putPort_regs (s : State) (k : Nat) (v : PortSt) : (s.putPort k v).regs = s.regs := rfl
@[simp] theorem State.putPort_plane (s : State) (k : Nat) (v : PortSt) : (s.putPort k v).plane = s.plane := rfl
@[simp] theorem State.putPort_tray (s : State) (k : Nat) (v : PortSt) : (s.putPort k v).tray = s.tray := rfl
@[simp] theorem State.putPort_plan (s : State) (k : Nat) (v : PortSt) : (s.putPort k v).plan = s.plan := rfl
@[simp] theorem State.putPort_planLive (s : State) (k : Nat) (v : PortSt) : (s.putPort k v).planLive = s.planLive := rfl
@[simp] theorem State.putPort_planHash (s : State) (k : Nat) (v : PortSt) : (s.putPort k v).planHash = s.planHash := rfl
@[simp] theorem State.putPort_lanes (s : State) (k : Nat) (v : PortSt) : (s.putPort k v).lanes = s.lanes := rfl
@[simp] theorem State.putPort_tx (s : State) (k : Nat) (v : PortSt) : (s.putPort k v).tx = s.tx := rfl
@[simp] theorem State.putPort_lines (s : State) (k : Nat) (v : PortSt) : (s.putPort k v).lines = s.lines := rfl
@[simp] theorem State.putPort_rx (s : State) (k : Nat) (v : PortSt) : (s.putPort k v).rx = s.rx := rfl
@[simp] theorem State.putPort_inq (s : State) (k : Nat) (v : PortSt) : (s.putPort k v).inq = s.inq := rfl
@[simp] theorem State.putPort_outq (s : State) (k : Nat) (v : PortSt) : (s.putPort k v).outq = s.outq := rfl
@[simp] theorem State.putPort_vcbuf (s : State) (k : Nat) (v : PortSt) : (s.putPort k v).vcbuf = s.vcbuf := rfl
@[simp] theorem State.putPort_qcharge (s : State) (k : Nat) (v : PortSt) : (s.putPort k v).qcharge = s.qcharge := rfl
@[simp] theorem State.putPort_shared (s : State) (k : Nat) (v : PortSt) : (s.putPort k v).shared = s.shared := rfl
@[simp] theorem State.putPort_arb (s : State) (k : Nat) (v : PortSt) : (s.putPort k v).arb = s.arb := rfl
@[simp] theorem State.putPort_tables (s : State) (k : Nat) (v : PortSt) : (s.putPort k v).tables = s.tables := rfl
@[simp] theorem State.putPort_shadow (s : State) (k : Nat) (v : PortSt) : (s.putPort k v).shadow = s.shadow := rfl
@[simp] theorem State.putPort_escVia (s : State) (k : Nat) (v : PortSt) : (s.putPort k v).escVia = s.escVia := rfl
@[simp] theorem State.putPort_lfsr (s : State) (k : Nat) (v : PortSt) : (s.putPort k v).lfsr = s.lfsr := rfl
@[simp] theorem State.putPort_inFlows (s : State) (k : Nat) (v : PortSt) : (s.putPort k v).inFlows = s.inFlows := rfl
@[simp] theorem State.putPort_egFlows (s : State) (k : Nat) (v : PortSt) : (s.putPort k v).egFlows = s.egFlows := rfl
@[simp] theorem State.putPort_buckets (s : State) (k : Nat) (v : PortSt) : (s.putPort k v).buckets = s.buckets := rfl
@[simp] theorem State.putPort_local_ (s : State) (k : Nat) (v : PortSt) : (s.putPort k v).local_ = s.local_ := rfl
@[simp] theorem State.putPort_cellWait (s : State) (k : Nat) (v : PortSt) : (s.putPort k v).cellWait = s.cellWait := rfl
@[simp] theorem State.putPort_notices (s : State) (k : Nat) (v : PortSt) : (s.putPort k v).notices = s.notices := rfl
@[simp] theorem State.putPort_heldPkts (s : State) (k : Nat) (v : PortSt) : (s.putPort k v).heldPkts = s.heldPkts := rfl
@[simp] theorem State.putPort_unitEvents (s : State) (k : Nat) (v : PortSt) : (s.putPort k v).unitEvents = s.unitEvents := rfl
@[simp] theorem State.putPort_nextCast (s : State) (k : Nat) (v : PortSt) : (s.putPort k v).nextCast = s.nextCast := rfl
@[simp] theorem State.putPort_bindCount (s : State) (k : Nat) (v : PortSt) : (s.putPort k v).bindCount = s.bindCount := rfl
@[simp] theorem State.putPort_instCount (s : State) (k : Nat) (v : PortSt) : (s.putPort k v).instCount = s.instCount := rfl
@[simp] theorem State.putPort_topDown (s : State) (k : Nat) (v : PortSt) : (s.putPort k v).topDown = s.topDown := rfl
@[simp] theorem State.putPort_waitCmds (s : State) (k : Nat) (v : PortSt) : (s.putPort k v).waitCmds = s.waitCmds := rfl
@[simp] theorem State.putPort_restarting (s : State) (k : Nat) (v : PortSt) : (s.putPort k v).restarting = s.restarting := rfl
@[simp] theorem State.putPort_verifySlices (s : State) (k : Nat) (v : PortSt) : (s.putPort k v).verifySlices = s.verifySlices := rfl
@[simp] theorem State.putPort_groups (s : State) (k : Nat) (v : PortSt) : (s.putPort k v).groups = s.groups := rfl
@[simp] theorem State.putPort_slots (s : State) (k : Nat) (v : PortSt) : (s.putPort k v).slots = s.slots := rfl
@[simp] theorem State.putPort_bindWaits (s : State) (k : Nat) (v : PortSt) : (s.putPort k v).bindWaits = s.bindWaits := rfl
@[simp] theorem State.putPort_insts (s : State) (k : Nat) (v : PortSt) : (s.putPort k v).insts = s.insts := rfl
@[simp] theorem State.putPort_banks (s : State) (k : Nat) (v : PortSt) : (s.putPort k v).banks = s.banks := rfl
@[simp] theorem State.putPort_retired (s : State) (k : Nat) (v : PortSt) : (s.putPort k v).retired = s.retired := rfl
@[simp] theorem State.putPort_spares (s : State) (k : Nat) (v : PortSt) : (s.putPort k v).spares = s.spares := rfl
@[simp] theorem State.putPort_symTimes (s : State) (k : Nat) (v : PortSt) : (s.putPort k v).symTimes = s.symTimes := rfl
@[simp] theorem State.putPort_ueWords (s : State) (k : Nat) (v : PortSt) : (s.putPort k v).ueWords = s.ueWords := rfl
@[simp] theorem State.putPort_retireAsk (s : State) (k : Nat) (v : PortSt) : (s.putPort k v).retireAsk = s.retireAsk := rfl
@[simp] theorem State.putPort_recarve (s : State) (k : Nat) (v : PortSt) : (s.putPort k v).recarve = s.recarve := rfl
@[simp] theorem State.putPort_outOfService (s : State) (k : Nat) (v : PortSt) : (s.putPort k v).outOfService = s.outOfService := rfl
@[simp] theorem State.putPort_cdcOut (s : State) (k : Nat) (v : PortSt) : (s.putPort k v).cdcOut = s.cdcOut := rfl
@[simp] theorem State.putPort_dmaCount (s : State) (k : Nat) (v : PortSt) : (s.putPort k v).dmaCount = s.dmaCount := rfl
@[simp] theorem State.putPort_ctxs (s : State) (k : Nat) (v : PortSt) : (s.putPort k v).ctxs = s.ctxs := rfl
@[simp] theorem State.putPort_coreFenced (s : State) (k : Nat) (v : PortSt) : (s.putPort k v).coreFenced = s.coreFenced := rfl
@[simp] theorem State.putPort_rrCtx (s : State) (k : Nat) (v : PortSt) : (s.putPort k v).rrCtx = s.rrCtx := rfl
@[simp] theorem State.putPort_programs (s : State) (k : Nat) (v : PortSt) : (s.putPort k v).programs = s.programs := rfl
@[simp] theorem State.putPort_mem (s : State) (k : Nat) (v : PortSt) : (s.putPort k v).mem = s.mem := rfl
@[simp] theorem State.putPort_memPoison (s : State) (k : Nat) (v : PortSt) : (s.putPort k v).memPoison = s.memPoison := rfl
@[simp] theorem State.putPort_memReads (s : State) (k : Nat) (v : PortSt) : (s.putPort k v).memReads = s.memReads := rfl
@[simp] theorem State.putPort_nextMemTag (s : State) (k : Nat) (v : PortSt) : (s.putPort k v).nextMemTag = s.nextMemTag := rfl
@[simp] theorem State.putPort_ownReqs (s : State) (k : Nat) (v : PortSt) : (s.putPort k v).ownReqs = s.ownReqs := rfl
@[simp] theorem State.putPort_ownRsps (s : State) (k : Nat) (v : PortSt) : (s.putPort k v).ownRsps = s.ownRsps := rfl
@[simp] theorem State.putPort_scrubPos (s : State) (k : Nat) (v : PortSt) : (s.putPort k v).scrubPos = s.scrubPos := rfl
@[simp] theorem State.putPort_scrubClock (s : State) (k : Nat) (v : PortSt) : (s.putPort k v).scrubClock = s.scrubClock := rfl
@[simp] theorem State.putPort_scrubMark (s : State) (k : Nat) (v : PortSt) : (s.putPort k v).scrubMark = s.scrubMark := rfl
@[simp] theorem State.putPort_refreshes (s : State) (k : Nat) (v : PortSt) : (s.putPort k v).refreshes = s.refreshes := rfl
@[simp] theorem State.putPort_streams (s : State) (k : Nat) (v : PortSt) : (s.putPort k v).streams = s.streams := rfl
@[simp] theorem State.putPort_streamShadow (s : State) (k : Nat) (v : PortSt) : (s.putPort k v).streamShadow = s.streamShadow := rfl
@[simp] theorem State.putPort_runs (s : State) (k : Nat) (v : PortSt) : (s.putPort k v).runs = s.runs := rfl
@[simp] theorem State.putPort_sepoch (s : State) (k : Nat) (v : PortSt) : (s.putPort k v).sepoch = s.sepoch := rfl
@[simp] theorem State.putPort_streamSwitch (s : State) (k : Nat) (v : PortSt) : (s.putPort k v).streamSwitch = s.streamSwitch := rfl
@[simp] theorem State.putPort_streamHeld (s : State) (k : Nat) (v : PortSt) : (s.putPort k v).streamHeld = s.streamHeld := rfl
@[simp] theorem State.putPort_streamTurn (s : State) (k : Nat) (v : PortSt) : (s.putPort k v).streamTurn = s.streamTurn := rfl
@[simp] theorem State.putPort_eth (s : State) (k : Nat) (v : PortSt) : (s.putPort k v).eth = s.eth := rfl
@[simp] theorem State.putPort_ethAddr (s : State) (k : Nat) (v : PortSt) : (s.putPort k v).ethAddr = s.ethAddr := rfl
@[simp] theorem State.putPort_dmaIdx (s : State) (k : Nat) (v : PortSt) : (s.putPort k v).dmaIdx = s.dmaIdx := rfl
@[simp] theorem State.putPort_dmaRecheck (s : State) (k : Nat) (v : PortSt) : (s.putPort k v).dmaRecheck = s.dmaRecheck := rfl
@[simp] theorem State.putPort_msixTable (s : State) (k : Nat) (v : PortSt) : (s.putPort k v).msixTable = s.msixTable := rfl
@[simp] theorem State.putPort_pba (s : State) (k : Nat) (v : PortSt) : (s.putPort k v).pba = s.pba := rfl
@[simp] theorem State.putPort_mbx (s : State) (k : Nat) (v : PortSt) : (s.putPort k v).mbx = s.mbx := rfl
@[simp] theorem State.putPort_mbxImage (s : State) (k : Nat) (v : PortSt) : (s.putPort k v).mbxImage = s.mbxImage := rfl
@[simp] theorem State.putPort_stored (s : State) (k : Nat) (v : PortSt) : (s.putPort k v).stored = s.stored := rfl
@[simp] theorem State.putPort_hello (s : State) (k : Nat) (v : PortSt) : (s.putPort k v).hello = s.hello := rfl
@[simp] theorem State.putPort_grants (s : State) (k : Nat) (v : PortSt) : (s.putPort k v).grants = s.grants := rfl
@[simp] theorem State.putPort_stages (s : State) (k : Nat) (v : PortSt) : (s.putPort k v).stages = s.stages := rfl
@[simp] theorem State.putPort_recvCount (s : State) (k : Nat) (v : PortSt) : (s.putPort k v).recvCount = s.recvCount := rfl
@[simp] theorem State.putPort_errs (s : State) (k : Nat) (v : PortSt) : (s.putPort k v).errs = s.errs := rfl
@[simp] theorem State.putPort_rseq (s : State) (k : Nat) (v : PortSt) : (s.putPort k v).rseq = s.rseq := rfl
@[simp] theorem State.putPort_dice (s : State) (k : Nat) (v : PortSt) : (s.putPort k v).dice = s.dice := rfl
@[simp] theorem State.putPort_ledger (s : State) (k : Nat) (v : PortSt) : (s.putPort k v).ledger = s.ledger := rfl
@[simp] theorem State.putPort_trust (s : State) (k : Nat) (v : PortSt) : (s.putPort k v).trust = s.trust := rfl
@[simp] theorem State.putPort_cond (s : State) (k : Nat) (v : PortSt) : (s.putPort k v).cond = s.cond := rfl
@[simp] theorem State.putPort_ckpts (s : State) (k : Nat) (v : PortSt) : (s.putPort k v).ckpts = s.ckpts := rfl
@[simp] theorem State.putPort_pair (s : State) (k : Nat) (v : PortSt) : (s.putPort k v).pair = s.pair := rfl
@[simp] theorem State.putPort_agent (s : State) (k : Nat) (v : PortSt) : (s.putPort k v).agent = s.agent := rfl
@[simp] theorem State.putPort_power (s : State) (k : Nat) (v : PortSt) : (s.putPort k v).power = s.power := rfl
@[simp] theorem State.putPort_phys (s : State) (k : Nat) (v : PortSt) : (s.putPort k v).phys = s.phys := rfl
@[simp] theorem State.putPort_cnt (s : State) (k : Nat) (v : PortSt) : (s.putPort k v).cnt = s.cnt := rfl
@[simp] theorem State.putPort_mainSince (s : State) (k : Nat) (v : PortSt) : (s.putPort k v).mainSince = s.mainSince := rfl
@[simp] theorem State.putPort_cntHeld (s : State) (k : Nat) (v : PortSt) : (s.putPort k v).cntHeld = s.cntHeld := rfl
@[simp] theorem State.putPort_always (s : State) (k : Nat) (v : PortSt) : (s.putPort k v).always = s.always := rfl
@[simp] theorem State.putPort_linkCnt (s : State) (k : Nat) (v : PortSt) : (s.putPort k v).linkCnt = s.linkCnt := rfl
@[simp] theorem State.putPort_ssSeq (s : State) (k : Nat) (v : PortSt) : (s.putPort k v).ssSeq = s.ssSeq := rfl
@[simp] theorem State.putPort_ssBusy (s : State) (k : Nat) (v : PortSt) : (s.putPort k v).ssBusy = s.ssBusy := rfl
@[simp] theorem State.putPort_ssSkippedBefore (s : State) (k : Nat) (v : PortSt) : (s.putPort k v).ssSkippedBefore = s.ssSkippedBefore := rfl
@[simp] theorem State.putPort_ssRecord (s : State) (k : Nat) (v : PortSt) : (s.putPort k v).ssRecord = s.ssRecord := rfl
@[simp] theorem State.putPort_ssPending (s : State) (k : Nat) (v : PortSt) : (s.putPort k v).ssPending = s.ssPending := rfl
@[simp] theorem State.putPort_mismatchHours (s : State) (k : Nat) (v : PortSt) : (s.putPort k v).mismatchHours = s.mismatchHours := rfl

/-! ## The entry of `lanes` -/

@[simp] theorem State.putLane_pending (s : State) (k : Nat) (v : LaneSt) : (s.putLane k v).pending = s.pending := rfl
@[simp] theorem State.putLane_now (s : State) (k : Nat) (v : LaneSt) : (s.putLane k v).now = s.now := rfl
@[simp] theorem State.putLane_tick (s : State) (k : Nat) (v : LaneSt) : (s.putLane k v).tick = s.tick := rfl
@[simp] theorem State.putLane_fresh (s : State) (k : Nat) (v : LaneSt) : (s.putLane k v).fresh = s.fresh := rfl
@[simp] theorem State.putLane_out (s : State) (k : Nat) (v : LaneSt) : (s.putLane k v).out = s.out := rfl
@[simp] theorem State.putLane_carried (s : State) (k : Nat) (v : LaneSt) : (s.putLane k v).carried = s.carried := rfl
@[simp] theorem State.putLane_regs (s : State) (k : Nat) (v : LaneSt) : (s.putLane k v).regs = s.regs := rfl
@[simp] theorem State.putLane_plane (s : State) (k : Nat) (v : LaneSt) : (s.putLane k v).plane = s.plane := rfl
@[simp] theorem State.putLane_tray (s : State) (k : Nat) (v : LaneSt) : (s.putLane k v).tray = s.tray := rfl
@[simp] theorem State.putLane_plan (s : State) (k : Nat) (v : LaneSt) : (s.putLane k v).plan = s.plan := rfl
@[simp] theorem State.putLane_planLive (s : State) (k : Nat) (v : LaneSt) : (s.putLane k v).planLive = s.planLive := rfl
@[simp] theorem State.putLane_planHash (s : State) (k : Nat) (v : LaneSt) : (s.putLane k v).planHash = s.planHash := rfl
@[simp] theorem State.putLane_ports (s : State) (k : Nat) (v : LaneSt) : (s.putLane k v).ports = s.ports := rfl
@[simp] theorem State.putLane_tx (s : State) (k : Nat) (v : LaneSt) : (s.putLane k v).tx = s.tx := rfl
@[simp] theorem State.putLane_lines (s : State) (k : Nat) (v : LaneSt) : (s.putLane k v).lines = s.lines := rfl
@[simp] theorem State.putLane_rx (s : State) (k : Nat) (v : LaneSt) : (s.putLane k v).rx = s.rx := rfl
@[simp] theorem State.putLane_inq (s : State) (k : Nat) (v : LaneSt) : (s.putLane k v).inq = s.inq := rfl
@[simp] theorem State.putLane_outq (s : State) (k : Nat) (v : LaneSt) : (s.putLane k v).outq = s.outq := rfl
@[simp] theorem State.putLane_vcbuf (s : State) (k : Nat) (v : LaneSt) : (s.putLane k v).vcbuf = s.vcbuf := rfl
@[simp] theorem State.putLane_qcharge (s : State) (k : Nat) (v : LaneSt) : (s.putLane k v).qcharge = s.qcharge := rfl
@[simp] theorem State.putLane_shared (s : State) (k : Nat) (v : LaneSt) : (s.putLane k v).shared = s.shared := rfl
@[simp] theorem State.putLane_arb (s : State) (k : Nat) (v : LaneSt) : (s.putLane k v).arb = s.arb := rfl
@[simp] theorem State.putLane_tables (s : State) (k : Nat) (v : LaneSt) : (s.putLane k v).tables = s.tables := rfl
@[simp] theorem State.putLane_shadow (s : State) (k : Nat) (v : LaneSt) : (s.putLane k v).shadow = s.shadow := rfl
@[simp] theorem State.putLane_escVia (s : State) (k : Nat) (v : LaneSt) : (s.putLane k v).escVia = s.escVia := rfl
@[simp] theorem State.putLane_lfsr (s : State) (k : Nat) (v : LaneSt) : (s.putLane k v).lfsr = s.lfsr := rfl
@[simp] theorem State.putLane_inFlows (s : State) (k : Nat) (v : LaneSt) : (s.putLane k v).inFlows = s.inFlows := rfl
@[simp] theorem State.putLane_egFlows (s : State) (k : Nat) (v : LaneSt) : (s.putLane k v).egFlows = s.egFlows := rfl
@[simp] theorem State.putLane_buckets (s : State) (k : Nat) (v : LaneSt) : (s.putLane k v).buckets = s.buckets := rfl
@[simp] theorem State.putLane_local_ (s : State) (k : Nat) (v : LaneSt) : (s.putLane k v).local_ = s.local_ := rfl
@[simp] theorem State.putLane_cellWait (s : State) (k : Nat) (v : LaneSt) : (s.putLane k v).cellWait = s.cellWait := rfl
@[simp] theorem State.putLane_notices (s : State) (k : Nat) (v : LaneSt) : (s.putLane k v).notices = s.notices := rfl
@[simp] theorem State.putLane_heldPkts (s : State) (k : Nat) (v : LaneSt) : (s.putLane k v).heldPkts = s.heldPkts := rfl
@[simp] theorem State.putLane_unitEvents (s : State) (k : Nat) (v : LaneSt) : (s.putLane k v).unitEvents = s.unitEvents := rfl
@[simp] theorem State.putLane_nextCast (s : State) (k : Nat) (v : LaneSt) : (s.putLane k v).nextCast = s.nextCast := rfl
@[simp] theorem State.putLane_bindCount (s : State) (k : Nat) (v : LaneSt) : (s.putLane k v).bindCount = s.bindCount := rfl
@[simp] theorem State.putLane_instCount (s : State) (k : Nat) (v : LaneSt) : (s.putLane k v).instCount = s.instCount := rfl
@[simp] theorem State.putLane_topDown (s : State) (k : Nat) (v : LaneSt) : (s.putLane k v).topDown = s.topDown := rfl
@[simp] theorem State.putLane_waitCmds (s : State) (k : Nat) (v : LaneSt) : (s.putLane k v).waitCmds = s.waitCmds := rfl
@[simp] theorem State.putLane_restarting (s : State) (k : Nat) (v : LaneSt) : (s.putLane k v).restarting = s.restarting := rfl
@[simp] theorem State.putLane_verifySlices (s : State) (k : Nat) (v : LaneSt) : (s.putLane k v).verifySlices = s.verifySlices := rfl
@[simp] theorem State.putLane_groups (s : State) (k : Nat) (v : LaneSt) : (s.putLane k v).groups = s.groups := rfl
@[simp] theorem State.putLane_slots (s : State) (k : Nat) (v : LaneSt) : (s.putLane k v).slots = s.slots := rfl
@[simp] theorem State.putLane_bindWaits (s : State) (k : Nat) (v : LaneSt) : (s.putLane k v).bindWaits = s.bindWaits := rfl
@[simp] theorem State.putLane_insts (s : State) (k : Nat) (v : LaneSt) : (s.putLane k v).insts = s.insts := rfl
@[simp] theorem State.putLane_banks (s : State) (k : Nat) (v : LaneSt) : (s.putLane k v).banks = s.banks := rfl
@[simp] theorem State.putLane_retired (s : State) (k : Nat) (v : LaneSt) : (s.putLane k v).retired = s.retired := rfl
@[simp] theorem State.putLane_spares (s : State) (k : Nat) (v : LaneSt) : (s.putLane k v).spares = s.spares := rfl
@[simp] theorem State.putLane_symTimes (s : State) (k : Nat) (v : LaneSt) : (s.putLane k v).symTimes = s.symTimes := rfl
@[simp] theorem State.putLane_ueWords (s : State) (k : Nat) (v : LaneSt) : (s.putLane k v).ueWords = s.ueWords := rfl
@[simp] theorem State.putLane_retireAsk (s : State) (k : Nat) (v : LaneSt) : (s.putLane k v).retireAsk = s.retireAsk := rfl
@[simp] theorem State.putLane_recarve (s : State) (k : Nat) (v : LaneSt) : (s.putLane k v).recarve = s.recarve := rfl
@[simp] theorem State.putLane_outOfService (s : State) (k : Nat) (v : LaneSt) : (s.putLane k v).outOfService = s.outOfService := rfl
@[simp] theorem State.putLane_cdcOut (s : State) (k : Nat) (v : LaneSt) : (s.putLane k v).cdcOut = s.cdcOut := rfl
@[simp] theorem State.putLane_dmaCount (s : State) (k : Nat) (v : LaneSt) : (s.putLane k v).dmaCount = s.dmaCount := rfl
@[simp] theorem State.putLane_ctxs (s : State) (k : Nat) (v : LaneSt) : (s.putLane k v).ctxs = s.ctxs := rfl
@[simp] theorem State.putLane_coreFenced (s : State) (k : Nat) (v : LaneSt) : (s.putLane k v).coreFenced = s.coreFenced := rfl
@[simp] theorem State.putLane_rrCtx (s : State) (k : Nat) (v : LaneSt) : (s.putLane k v).rrCtx = s.rrCtx := rfl
@[simp] theorem State.putLane_programs (s : State) (k : Nat) (v : LaneSt) : (s.putLane k v).programs = s.programs := rfl
@[simp] theorem State.putLane_mem (s : State) (k : Nat) (v : LaneSt) : (s.putLane k v).mem = s.mem := rfl
@[simp] theorem State.putLane_memPoison (s : State) (k : Nat) (v : LaneSt) : (s.putLane k v).memPoison = s.memPoison := rfl
@[simp] theorem State.putLane_memReads (s : State) (k : Nat) (v : LaneSt) : (s.putLane k v).memReads = s.memReads := rfl
@[simp] theorem State.putLane_nextMemTag (s : State) (k : Nat) (v : LaneSt) : (s.putLane k v).nextMemTag = s.nextMemTag := rfl
@[simp] theorem State.putLane_ownReqs (s : State) (k : Nat) (v : LaneSt) : (s.putLane k v).ownReqs = s.ownReqs := rfl
@[simp] theorem State.putLane_ownRsps (s : State) (k : Nat) (v : LaneSt) : (s.putLane k v).ownRsps = s.ownRsps := rfl
@[simp] theorem State.putLane_scrubPos (s : State) (k : Nat) (v : LaneSt) : (s.putLane k v).scrubPos = s.scrubPos := rfl
@[simp] theorem State.putLane_scrubClock (s : State) (k : Nat) (v : LaneSt) : (s.putLane k v).scrubClock = s.scrubClock := rfl
@[simp] theorem State.putLane_scrubMark (s : State) (k : Nat) (v : LaneSt) : (s.putLane k v).scrubMark = s.scrubMark := rfl
@[simp] theorem State.putLane_refreshes (s : State) (k : Nat) (v : LaneSt) : (s.putLane k v).refreshes = s.refreshes := rfl
@[simp] theorem State.putLane_streams (s : State) (k : Nat) (v : LaneSt) : (s.putLane k v).streams = s.streams := rfl
@[simp] theorem State.putLane_streamShadow (s : State) (k : Nat) (v : LaneSt) : (s.putLane k v).streamShadow = s.streamShadow := rfl
@[simp] theorem State.putLane_runs (s : State) (k : Nat) (v : LaneSt) : (s.putLane k v).runs = s.runs := rfl
@[simp] theorem State.putLane_sepoch (s : State) (k : Nat) (v : LaneSt) : (s.putLane k v).sepoch = s.sepoch := rfl
@[simp] theorem State.putLane_streamSwitch (s : State) (k : Nat) (v : LaneSt) : (s.putLane k v).streamSwitch = s.streamSwitch := rfl
@[simp] theorem State.putLane_streamHeld (s : State) (k : Nat) (v : LaneSt) : (s.putLane k v).streamHeld = s.streamHeld := rfl
@[simp] theorem State.putLane_streamTurn (s : State) (k : Nat) (v : LaneSt) : (s.putLane k v).streamTurn = s.streamTurn := rfl
@[simp] theorem State.putLane_eth (s : State) (k : Nat) (v : LaneSt) : (s.putLane k v).eth = s.eth := rfl
@[simp] theorem State.putLane_ethAddr (s : State) (k : Nat) (v : LaneSt) : (s.putLane k v).ethAddr = s.ethAddr := rfl
@[simp] theorem State.putLane_dmaIdx (s : State) (k : Nat) (v : LaneSt) : (s.putLane k v).dmaIdx = s.dmaIdx := rfl
@[simp] theorem State.putLane_dmaRecheck (s : State) (k : Nat) (v : LaneSt) : (s.putLane k v).dmaRecheck = s.dmaRecheck := rfl
@[simp] theorem State.putLane_msixTable (s : State) (k : Nat) (v : LaneSt) : (s.putLane k v).msixTable = s.msixTable := rfl
@[simp] theorem State.putLane_pba (s : State) (k : Nat) (v : LaneSt) : (s.putLane k v).pba = s.pba := rfl
@[simp] theorem State.putLane_mbx (s : State) (k : Nat) (v : LaneSt) : (s.putLane k v).mbx = s.mbx := rfl
@[simp] theorem State.putLane_mbxImage (s : State) (k : Nat) (v : LaneSt) : (s.putLane k v).mbxImage = s.mbxImage := rfl
@[simp] theorem State.putLane_stored (s : State) (k : Nat) (v : LaneSt) : (s.putLane k v).stored = s.stored := rfl
@[simp] theorem State.putLane_hello (s : State) (k : Nat) (v : LaneSt) : (s.putLane k v).hello = s.hello := rfl
@[simp] theorem State.putLane_grants (s : State) (k : Nat) (v : LaneSt) : (s.putLane k v).grants = s.grants := rfl
@[simp] theorem State.putLane_stages (s : State) (k : Nat) (v : LaneSt) : (s.putLane k v).stages = s.stages := rfl
@[simp] theorem State.putLane_recvCount (s : State) (k : Nat) (v : LaneSt) : (s.putLane k v).recvCount = s.recvCount := rfl
@[simp] theorem State.putLane_errs (s : State) (k : Nat) (v : LaneSt) : (s.putLane k v).errs = s.errs := rfl
@[simp] theorem State.putLane_rseq (s : State) (k : Nat) (v : LaneSt) : (s.putLane k v).rseq = s.rseq := rfl
@[simp] theorem State.putLane_dice (s : State) (k : Nat) (v : LaneSt) : (s.putLane k v).dice = s.dice := rfl
@[simp] theorem State.putLane_ledger (s : State) (k : Nat) (v : LaneSt) : (s.putLane k v).ledger = s.ledger := rfl
@[simp] theorem State.putLane_trust (s : State) (k : Nat) (v : LaneSt) : (s.putLane k v).trust = s.trust := rfl
@[simp] theorem State.putLane_cond (s : State) (k : Nat) (v : LaneSt) : (s.putLane k v).cond = s.cond := rfl
@[simp] theorem State.putLane_ckpts (s : State) (k : Nat) (v : LaneSt) : (s.putLane k v).ckpts = s.ckpts := rfl
@[simp] theorem State.putLane_pair (s : State) (k : Nat) (v : LaneSt) : (s.putLane k v).pair = s.pair := rfl
@[simp] theorem State.putLane_agent (s : State) (k : Nat) (v : LaneSt) : (s.putLane k v).agent = s.agent := rfl
@[simp] theorem State.putLane_power (s : State) (k : Nat) (v : LaneSt) : (s.putLane k v).power = s.power := rfl
@[simp] theorem State.putLane_phys (s : State) (k : Nat) (v : LaneSt) : (s.putLane k v).phys = s.phys := rfl
@[simp] theorem State.putLane_cnt (s : State) (k : Nat) (v : LaneSt) : (s.putLane k v).cnt = s.cnt := rfl
@[simp] theorem State.putLane_mainSince (s : State) (k : Nat) (v : LaneSt) : (s.putLane k v).mainSince = s.mainSince := rfl
@[simp] theorem State.putLane_cntHeld (s : State) (k : Nat) (v : LaneSt) : (s.putLane k v).cntHeld = s.cntHeld := rfl
@[simp] theorem State.putLane_always (s : State) (k : Nat) (v : LaneSt) : (s.putLane k v).always = s.always := rfl
@[simp] theorem State.putLane_linkCnt (s : State) (k : Nat) (v : LaneSt) : (s.putLane k v).linkCnt = s.linkCnt := rfl
@[simp] theorem State.putLane_ssSeq (s : State) (k : Nat) (v : LaneSt) : (s.putLane k v).ssSeq = s.ssSeq := rfl
@[simp] theorem State.putLane_ssBusy (s : State) (k : Nat) (v : LaneSt) : (s.putLane k v).ssBusy = s.ssBusy := rfl
@[simp] theorem State.putLane_ssSkippedBefore (s : State) (k : Nat) (v : LaneSt) : (s.putLane k v).ssSkippedBefore = s.ssSkippedBefore := rfl
@[simp] theorem State.putLane_ssRecord (s : State) (k : Nat) (v : LaneSt) : (s.putLane k v).ssRecord = s.ssRecord := rfl
@[simp] theorem State.putLane_ssPending (s : State) (k : Nat) (v : LaneSt) : (s.putLane k v).ssPending = s.ssPending := rfl
@[simp] theorem State.putLane_mismatchHours (s : State) (k : Nat) (v : LaneSt) : (s.putLane k v).mismatchHours = s.mismatchHours := rfl

/-! ## The entry of `tx` -/

@[simp] theorem State.putTxOf_pending (s : State) (k : Nat) (v : LinkTx) : (s.putTxOf k v).pending = s.pending := rfl
@[simp] theorem State.putTxOf_now (s : State) (k : Nat) (v : LinkTx) : (s.putTxOf k v).now = s.now := rfl
@[simp] theorem State.putTxOf_tick (s : State) (k : Nat) (v : LinkTx) : (s.putTxOf k v).tick = s.tick := rfl
@[simp] theorem State.putTxOf_fresh (s : State) (k : Nat) (v : LinkTx) : (s.putTxOf k v).fresh = s.fresh := rfl
@[simp] theorem State.putTxOf_out (s : State) (k : Nat) (v : LinkTx) : (s.putTxOf k v).out = s.out := rfl
@[simp] theorem State.putTxOf_carried (s : State) (k : Nat) (v : LinkTx) : (s.putTxOf k v).carried = s.carried := rfl
@[simp] theorem State.putTxOf_regs (s : State) (k : Nat) (v : LinkTx) : (s.putTxOf k v).regs = s.regs := rfl
@[simp] theorem State.putTxOf_plane (s : State) (k : Nat) (v : LinkTx) : (s.putTxOf k v).plane = s.plane := rfl
@[simp] theorem State.putTxOf_tray (s : State) (k : Nat) (v : LinkTx) : (s.putTxOf k v).tray = s.tray := rfl
@[simp] theorem State.putTxOf_plan (s : State) (k : Nat) (v : LinkTx) : (s.putTxOf k v).plan = s.plan := rfl
@[simp] theorem State.putTxOf_planLive (s : State) (k : Nat) (v : LinkTx) : (s.putTxOf k v).planLive = s.planLive := rfl
@[simp] theorem State.putTxOf_planHash (s : State) (k : Nat) (v : LinkTx) : (s.putTxOf k v).planHash = s.planHash := rfl
@[simp] theorem State.putTxOf_ports (s : State) (k : Nat) (v : LinkTx) : (s.putTxOf k v).ports = s.ports := rfl
@[simp] theorem State.putTxOf_lanes (s : State) (k : Nat) (v : LinkTx) : (s.putTxOf k v).lanes = s.lanes := rfl
@[simp] theorem State.putTxOf_lines (s : State) (k : Nat) (v : LinkTx) : (s.putTxOf k v).lines = s.lines := rfl
@[simp] theorem State.putTxOf_rx (s : State) (k : Nat) (v : LinkTx) : (s.putTxOf k v).rx = s.rx := rfl
@[simp] theorem State.putTxOf_inq (s : State) (k : Nat) (v : LinkTx) : (s.putTxOf k v).inq = s.inq := rfl
@[simp] theorem State.putTxOf_outq (s : State) (k : Nat) (v : LinkTx) : (s.putTxOf k v).outq = s.outq := rfl
@[simp] theorem State.putTxOf_vcbuf (s : State) (k : Nat) (v : LinkTx) : (s.putTxOf k v).vcbuf = s.vcbuf := rfl
@[simp] theorem State.putTxOf_qcharge (s : State) (k : Nat) (v : LinkTx) : (s.putTxOf k v).qcharge = s.qcharge := rfl
@[simp] theorem State.putTxOf_shared (s : State) (k : Nat) (v : LinkTx) : (s.putTxOf k v).shared = s.shared := rfl
@[simp] theorem State.putTxOf_arb (s : State) (k : Nat) (v : LinkTx) : (s.putTxOf k v).arb = s.arb := rfl
@[simp] theorem State.putTxOf_tables (s : State) (k : Nat) (v : LinkTx) : (s.putTxOf k v).tables = s.tables := rfl
@[simp] theorem State.putTxOf_shadow (s : State) (k : Nat) (v : LinkTx) : (s.putTxOf k v).shadow = s.shadow := rfl
@[simp] theorem State.putTxOf_escVia (s : State) (k : Nat) (v : LinkTx) : (s.putTxOf k v).escVia = s.escVia := rfl
@[simp] theorem State.putTxOf_lfsr (s : State) (k : Nat) (v : LinkTx) : (s.putTxOf k v).lfsr = s.lfsr := rfl
@[simp] theorem State.putTxOf_inFlows (s : State) (k : Nat) (v : LinkTx) : (s.putTxOf k v).inFlows = s.inFlows := rfl
@[simp] theorem State.putTxOf_egFlows (s : State) (k : Nat) (v : LinkTx) : (s.putTxOf k v).egFlows = s.egFlows := rfl
@[simp] theorem State.putTxOf_buckets (s : State) (k : Nat) (v : LinkTx) : (s.putTxOf k v).buckets = s.buckets := rfl
@[simp] theorem State.putTxOf_local_ (s : State) (k : Nat) (v : LinkTx) : (s.putTxOf k v).local_ = s.local_ := rfl
@[simp] theorem State.putTxOf_cellWait (s : State) (k : Nat) (v : LinkTx) : (s.putTxOf k v).cellWait = s.cellWait := rfl
@[simp] theorem State.putTxOf_notices (s : State) (k : Nat) (v : LinkTx) : (s.putTxOf k v).notices = s.notices := rfl
@[simp] theorem State.putTxOf_heldPkts (s : State) (k : Nat) (v : LinkTx) : (s.putTxOf k v).heldPkts = s.heldPkts := rfl
@[simp] theorem State.putTxOf_unitEvents (s : State) (k : Nat) (v : LinkTx) : (s.putTxOf k v).unitEvents = s.unitEvents := rfl
@[simp] theorem State.putTxOf_nextCast (s : State) (k : Nat) (v : LinkTx) : (s.putTxOf k v).nextCast = s.nextCast := rfl
@[simp] theorem State.putTxOf_bindCount (s : State) (k : Nat) (v : LinkTx) : (s.putTxOf k v).bindCount = s.bindCount := rfl
@[simp] theorem State.putTxOf_instCount (s : State) (k : Nat) (v : LinkTx) : (s.putTxOf k v).instCount = s.instCount := rfl
@[simp] theorem State.putTxOf_topDown (s : State) (k : Nat) (v : LinkTx) : (s.putTxOf k v).topDown = s.topDown := rfl
@[simp] theorem State.putTxOf_waitCmds (s : State) (k : Nat) (v : LinkTx) : (s.putTxOf k v).waitCmds = s.waitCmds := rfl
@[simp] theorem State.putTxOf_restarting (s : State) (k : Nat) (v : LinkTx) : (s.putTxOf k v).restarting = s.restarting := rfl
@[simp] theorem State.putTxOf_verifySlices (s : State) (k : Nat) (v : LinkTx) : (s.putTxOf k v).verifySlices = s.verifySlices := rfl
@[simp] theorem State.putTxOf_groups (s : State) (k : Nat) (v : LinkTx) : (s.putTxOf k v).groups = s.groups := rfl
@[simp] theorem State.putTxOf_slots (s : State) (k : Nat) (v : LinkTx) : (s.putTxOf k v).slots = s.slots := rfl
@[simp] theorem State.putTxOf_bindWaits (s : State) (k : Nat) (v : LinkTx) : (s.putTxOf k v).bindWaits = s.bindWaits := rfl
@[simp] theorem State.putTxOf_insts (s : State) (k : Nat) (v : LinkTx) : (s.putTxOf k v).insts = s.insts := rfl
@[simp] theorem State.putTxOf_banks (s : State) (k : Nat) (v : LinkTx) : (s.putTxOf k v).banks = s.banks := rfl
@[simp] theorem State.putTxOf_retired (s : State) (k : Nat) (v : LinkTx) : (s.putTxOf k v).retired = s.retired := rfl
@[simp] theorem State.putTxOf_spares (s : State) (k : Nat) (v : LinkTx) : (s.putTxOf k v).spares = s.spares := rfl
@[simp] theorem State.putTxOf_symTimes (s : State) (k : Nat) (v : LinkTx) : (s.putTxOf k v).symTimes = s.symTimes := rfl
@[simp] theorem State.putTxOf_ueWords (s : State) (k : Nat) (v : LinkTx) : (s.putTxOf k v).ueWords = s.ueWords := rfl
@[simp] theorem State.putTxOf_retireAsk (s : State) (k : Nat) (v : LinkTx) : (s.putTxOf k v).retireAsk = s.retireAsk := rfl
@[simp] theorem State.putTxOf_recarve (s : State) (k : Nat) (v : LinkTx) : (s.putTxOf k v).recarve = s.recarve := rfl
@[simp] theorem State.putTxOf_outOfService (s : State) (k : Nat) (v : LinkTx) : (s.putTxOf k v).outOfService = s.outOfService := rfl
@[simp] theorem State.putTxOf_cdcOut (s : State) (k : Nat) (v : LinkTx) : (s.putTxOf k v).cdcOut = s.cdcOut := rfl
@[simp] theorem State.putTxOf_dmaCount (s : State) (k : Nat) (v : LinkTx) : (s.putTxOf k v).dmaCount = s.dmaCount := rfl
@[simp] theorem State.putTxOf_ctxs (s : State) (k : Nat) (v : LinkTx) : (s.putTxOf k v).ctxs = s.ctxs := rfl
@[simp] theorem State.putTxOf_coreFenced (s : State) (k : Nat) (v : LinkTx) : (s.putTxOf k v).coreFenced = s.coreFenced := rfl
@[simp] theorem State.putTxOf_rrCtx (s : State) (k : Nat) (v : LinkTx) : (s.putTxOf k v).rrCtx = s.rrCtx := rfl
@[simp] theorem State.putTxOf_programs (s : State) (k : Nat) (v : LinkTx) : (s.putTxOf k v).programs = s.programs := rfl
@[simp] theorem State.putTxOf_mem (s : State) (k : Nat) (v : LinkTx) : (s.putTxOf k v).mem = s.mem := rfl
@[simp] theorem State.putTxOf_memPoison (s : State) (k : Nat) (v : LinkTx) : (s.putTxOf k v).memPoison = s.memPoison := rfl
@[simp] theorem State.putTxOf_memReads (s : State) (k : Nat) (v : LinkTx) : (s.putTxOf k v).memReads = s.memReads := rfl
@[simp] theorem State.putTxOf_nextMemTag (s : State) (k : Nat) (v : LinkTx) : (s.putTxOf k v).nextMemTag = s.nextMemTag := rfl
@[simp] theorem State.putTxOf_ownReqs (s : State) (k : Nat) (v : LinkTx) : (s.putTxOf k v).ownReqs = s.ownReqs := rfl
@[simp] theorem State.putTxOf_ownRsps (s : State) (k : Nat) (v : LinkTx) : (s.putTxOf k v).ownRsps = s.ownRsps := rfl
@[simp] theorem State.putTxOf_scrubPos (s : State) (k : Nat) (v : LinkTx) : (s.putTxOf k v).scrubPos = s.scrubPos := rfl
@[simp] theorem State.putTxOf_scrubClock (s : State) (k : Nat) (v : LinkTx) : (s.putTxOf k v).scrubClock = s.scrubClock := rfl
@[simp] theorem State.putTxOf_scrubMark (s : State) (k : Nat) (v : LinkTx) : (s.putTxOf k v).scrubMark = s.scrubMark := rfl
@[simp] theorem State.putTxOf_refreshes (s : State) (k : Nat) (v : LinkTx) : (s.putTxOf k v).refreshes = s.refreshes := rfl
@[simp] theorem State.putTxOf_streams (s : State) (k : Nat) (v : LinkTx) : (s.putTxOf k v).streams = s.streams := rfl
@[simp] theorem State.putTxOf_streamShadow (s : State) (k : Nat) (v : LinkTx) : (s.putTxOf k v).streamShadow = s.streamShadow := rfl
@[simp] theorem State.putTxOf_runs (s : State) (k : Nat) (v : LinkTx) : (s.putTxOf k v).runs = s.runs := rfl
@[simp] theorem State.putTxOf_sepoch (s : State) (k : Nat) (v : LinkTx) : (s.putTxOf k v).sepoch = s.sepoch := rfl
@[simp] theorem State.putTxOf_streamSwitch (s : State) (k : Nat) (v : LinkTx) : (s.putTxOf k v).streamSwitch = s.streamSwitch := rfl
@[simp] theorem State.putTxOf_streamHeld (s : State) (k : Nat) (v : LinkTx) : (s.putTxOf k v).streamHeld = s.streamHeld := rfl
@[simp] theorem State.putTxOf_streamTurn (s : State) (k : Nat) (v : LinkTx) : (s.putTxOf k v).streamTurn = s.streamTurn := rfl
@[simp] theorem State.putTxOf_eth (s : State) (k : Nat) (v : LinkTx) : (s.putTxOf k v).eth = s.eth := rfl
@[simp] theorem State.putTxOf_ethAddr (s : State) (k : Nat) (v : LinkTx) : (s.putTxOf k v).ethAddr = s.ethAddr := rfl
@[simp] theorem State.putTxOf_dmaIdx (s : State) (k : Nat) (v : LinkTx) : (s.putTxOf k v).dmaIdx = s.dmaIdx := rfl
@[simp] theorem State.putTxOf_dmaRecheck (s : State) (k : Nat) (v : LinkTx) : (s.putTxOf k v).dmaRecheck = s.dmaRecheck := rfl
@[simp] theorem State.putTxOf_msixTable (s : State) (k : Nat) (v : LinkTx) : (s.putTxOf k v).msixTable = s.msixTable := rfl
@[simp] theorem State.putTxOf_pba (s : State) (k : Nat) (v : LinkTx) : (s.putTxOf k v).pba = s.pba := rfl
@[simp] theorem State.putTxOf_mbx (s : State) (k : Nat) (v : LinkTx) : (s.putTxOf k v).mbx = s.mbx := rfl
@[simp] theorem State.putTxOf_mbxImage (s : State) (k : Nat) (v : LinkTx) : (s.putTxOf k v).mbxImage = s.mbxImage := rfl
@[simp] theorem State.putTxOf_stored (s : State) (k : Nat) (v : LinkTx) : (s.putTxOf k v).stored = s.stored := rfl
@[simp] theorem State.putTxOf_hello (s : State) (k : Nat) (v : LinkTx) : (s.putTxOf k v).hello = s.hello := rfl
@[simp] theorem State.putTxOf_grants (s : State) (k : Nat) (v : LinkTx) : (s.putTxOf k v).grants = s.grants := rfl
@[simp] theorem State.putTxOf_stages (s : State) (k : Nat) (v : LinkTx) : (s.putTxOf k v).stages = s.stages := rfl
@[simp] theorem State.putTxOf_recvCount (s : State) (k : Nat) (v : LinkTx) : (s.putTxOf k v).recvCount = s.recvCount := rfl
@[simp] theorem State.putTxOf_errs (s : State) (k : Nat) (v : LinkTx) : (s.putTxOf k v).errs = s.errs := rfl
@[simp] theorem State.putTxOf_rseq (s : State) (k : Nat) (v : LinkTx) : (s.putTxOf k v).rseq = s.rseq := rfl
@[simp] theorem State.putTxOf_dice (s : State) (k : Nat) (v : LinkTx) : (s.putTxOf k v).dice = s.dice := rfl
@[simp] theorem State.putTxOf_ledger (s : State) (k : Nat) (v : LinkTx) : (s.putTxOf k v).ledger = s.ledger := rfl
@[simp] theorem State.putTxOf_trust (s : State) (k : Nat) (v : LinkTx) : (s.putTxOf k v).trust = s.trust := rfl
@[simp] theorem State.putTxOf_cond (s : State) (k : Nat) (v : LinkTx) : (s.putTxOf k v).cond = s.cond := rfl
@[simp] theorem State.putTxOf_ckpts (s : State) (k : Nat) (v : LinkTx) : (s.putTxOf k v).ckpts = s.ckpts := rfl
@[simp] theorem State.putTxOf_pair (s : State) (k : Nat) (v : LinkTx) : (s.putTxOf k v).pair = s.pair := rfl
@[simp] theorem State.putTxOf_agent (s : State) (k : Nat) (v : LinkTx) : (s.putTxOf k v).agent = s.agent := rfl
@[simp] theorem State.putTxOf_power (s : State) (k : Nat) (v : LinkTx) : (s.putTxOf k v).power = s.power := rfl
@[simp] theorem State.putTxOf_phys (s : State) (k : Nat) (v : LinkTx) : (s.putTxOf k v).phys = s.phys := rfl
@[simp] theorem State.putTxOf_cnt (s : State) (k : Nat) (v : LinkTx) : (s.putTxOf k v).cnt = s.cnt := rfl
@[simp] theorem State.putTxOf_mainSince (s : State) (k : Nat) (v : LinkTx) : (s.putTxOf k v).mainSince = s.mainSince := rfl
@[simp] theorem State.putTxOf_cntHeld (s : State) (k : Nat) (v : LinkTx) : (s.putTxOf k v).cntHeld = s.cntHeld := rfl
@[simp] theorem State.putTxOf_always (s : State) (k : Nat) (v : LinkTx) : (s.putTxOf k v).always = s.always := rfl
@[simp] theorem State.putTxOf_linkCnt (s : State) (k : Nat) (v : LinkTx) : (s.putTxOf k v).linkCnt = s.linkCnt := rfl
@[simp] theorem State.putTxOf_ssSeq (s : State) (k : Nat) (v : LinkTx) : (s.putTxOf k v).ssSeq = s.ssSeq := rfl
@[simp] theorem State.putTxOf_ssBusy (s : State) (k : Nat) (v : LinkTx) : (s.putTxOf k v).ssBusy = s.ssBusy := rfl
@[simp] theorem State.putTxOf_ssSkippedBefore (s : State) (k : Nat) (v : LinkTx) : (s.putTxOf k v).ssSkippedBefore = s.ssSkippedBefore := rfl
@[simp] theorem State.putTxOf_ssRecord (s : State) (k : Nat) (v : LinkTx) : (s.putTxOf k v).ssRecord = s.ssRecord := rfl
@[simp] theorem State.putTxOf_ssPending (s : State) (k : Nat) (v : LinkTx) : (s.putTxOf k v).ssPending = s.ssPending := rfl
@[simp] theorem State.putTxOf_mismatchHours (s : State) (k : Nat) (v : LinkTx) : (s.putTxOf k v).mismatchHours = s.mismatchHours := rfl

/-! ## The entry of `rx` -/

@[simp] theorem State.putRxOf_pending (s : State) (k : Nat) (v : LinkRx) : (s.putRxOf k v).pending = s.pending := rfl
@[simp] theorem State.putRxOf_now (s : State) (k : Nat) (v : LinkRx) : (s.putRxOf k v).now = s.now := rfl
@[simp] theorem State.putRxOf_tick (s : State) (k : Nat) (v : LinkRx) : (s.putRxOf k v).tick = s.tick := rfl
@[simp] theorem State.putRxOf_fresh (s : State) (k : Nat) (v : LinkRx) : (s.putRxOf k v).fresh = s.fresh := rfl
@[simp] theorem State.putRxOf_out (s : State) (k : Nat) (v : LinkRx) : (s.putRxOf k v).out = s.out := rfl
@[simp] theorem State.putRxOf_carried (s : State) (k : Nat) (v : LinkRx) : (s.putRxOf k v).carried = s.carried := rfl
@[simp] theorem State.putRxOf_regs (s : State) (k : Nat) (v : LinkRx) : (s.putRxOf k v).regs = s.regs := rfl
@[simp] theorem State.putRxOf_plane (s : State) (k : Nat) (v : LinkRx) : (s.putRxOf k v).plane = s.plane := rfl
@[simp] theorem State.putRxOf_tray (s : State) (k : Nat) (v : LinkRx) : (s.putRxOf k v).tray = s.tray := rfl
@[simp] theorem State.putRxOf_plan (s : State) (k : Nat) (v : LinkRx) : (s.putRxOf k v).plan = s.plan := rfl
@[simp] theorem State.putRxOf_planLive (s : State) (k : Nat) (v : LinkRx) : (s.putRxOf k v).planLive = s.planLive := rfl
@[simp] theorem State.putRxOf_planHash (s : State) (k : Nat) (v : LinkRx) : (s.putRxOf k v).planHash = s.planHash := rfl
@[simp] theorem State.putRxOf_ports (s : State) (k : Nat) (v : LinkRx) : (s.putRxOf k v).ports = s.ports := rfl
@[simp] theorem State.putRxOf_lanes (s : State) (k : Nat) (v : LinkRx) : (s.putRxOf k v).lanes = s.lanes := rfl
@[simp] theorem State.putRxOf_tx (s : State) (k : Nat) (v : LinkRx) : (s.putRxOf k v).tx = s.tx := rfl
@[simp] theorem State.putRxOf_lines (s : State) (k : Nat) (v : LinkRx) : (s.putRxOf k v).lines = s.lines := rfl
@[simp] theorem State.putRxOf_inq (s : State) (k : Nat) (v : LinkRx) : (s.putRxOf k v).inq = s.inq := rfl
@[simp] theorem State.putRxOf_outq (s : State) (k : Nat) (v : LinkRx) : (s.putRxOf k v).outq = s.outq := rfl
@[simp] theorem State.putRxOf_vcbuf (s : State) (k : Nat) (v : LinkRx) : (s.putRxOf k v).vcbuf = s.vcbuf := rfl
@[simp] theorem State.putRxOf_qcharge (s : State) (k : Nat) (v : LinkRx) : (s.putRxOf k v).qcharge = s.qcharge := rfl
@[simp] theorem State.putRxOf_shared (s : State) (k : Nat) (v : LinkRx) : (s.putRxOf k v).shared = s.shared := rfl
@[simp] theorem State.putRxOf_arb (s : State) (k : Nat) (v : LinkRx) : (s.putRxOf k v).arb = s.arb := rfl
@[simp] theorem State.putRxOf_tables (s : State) (k : Nat) (v : LinkRx) : (s.putRxOf k v).tables = s.tables := rfl
@[simp] theorem State.putRxOf_shadow (s : State) (k : Nat) (v : LinkRx) : (s.putRxOf k v).shadow = s.shadow := rfl
@[simp] theorem State.putRxOf_escVia (s : State) (k : Nat) (v : LinkRx) : (s.putRxOf k v).escVia = s.escVia := rfl
@[simp] theorem State.putRxOf_lfsr (s : State) (k : Nat) (v : LinkRx) : (s.putRxOf k v).lfsr = s.lfsr := rfl
@[simp] theorem State.putRxOf_inFlows (s : State) (k : Nat) (v : LinkRx) : (s.putRxOf k v).inFlows = s.inFlows := rfl
@[simp] theorem State.putRxOf_egFlows (s : State) (k : Nat) (v : LinkRx) : (s.putRxOf k v).egFlows = s.egFlows := rfl
@[simp] theorem State.putRxOf_buckets (s : State) (k : Nat) (v : LinkRx) : (s.putRxOf k v).buckets = s.buckets := rfl
@[simp] theorem State.putRxOf_local_ (s : State) (k : Nat) (v : LinkRx) : (s.putRxOf k v).local_ = s.local_ := rfl
@[simp] theorem State.putRxOf_cellWait (s : State) (k : Nat) (v : LinkRx) : (s.putRxOf k v).cellWait = s.cellWait := rfl
@[simp] theorem State.putRxOf_notices (s : State) (k : Nat) (v : LinkRx) : (s.putRxOf k v).notices = s.notices := rfl
@[simp] theorem State.putRxOf_heldPkts (s : State) (k : Nat) (v : LinkRx) : (s.putRxOf k v).heldPkts = s.heldPkts := rfl
@[simp] theorem State.putRxOf_unitEvents (s : State) (k : Nat) (v : LinkRx) : (s.putRxOf k v).unitEvents = s.unitEvents := rfl
@[simp] theorem State.putRxOf_nextCast (s : State) (k : Nat) (v : LinkRx) : (s.putRxOf k v).nextCast = s.nextCast := rfl
@[simp] theorem State.putRxOf_bindCount (s : State) (k : Nat) (v : LinkRx) : (s.putRxOf k v).bindCount = s.bindCount := rfl
@[simp] theorem State.putRxOf_instCount (s : State) (k : Nat) (v : LinkRx) : (s.putRxOf k v).instCount = s.instCount := rfl
@[simp] theorem State.putRxOf_topDown (s : State) (k : Nat) (v : LinkRx) : (s.putRxOf k v).topDown = s.topDown := rfl
@[simp] theorem State.putRxOf_waitCmds (s : State) (k : Nat) (v : LinkRx) : (s.putRxOf k v).waitCmds = s.waitCmds := rfl
@[simp] theorem State.putRxOf_restarting (s : State) (k : Nat) (v : LinkRx) : (s.putRxOf k v).restarting = s.restarting := rfl
@[simp] theorem State.putRxOf_verifySlices (s : State) (k : Nat) (v : LinkRx) : (s.putRxOf k v).verifySlices = s.verifySlices := rfl
@[simp] theorem State.putRxOf_groups (s : State) (k : Nat) (v : LinkRx) : (s.putRxOf k v).groups = s.groups := rfl
@[simp] theorem State.putRxOf_slots (s : State) (k : Nat) (v : LinkRx) : (s.putRxOf k v).slots = s.slots := rfl
@[simp] theorem State.putRxOf_bindWaits (s : State) (k : Nat) (v : LinkRx) : (s.putRxOf k v).bindWaits = s.bindWaits := rfl
@[simp] theorem State.putRxOf_insts (s : State) (k : Nat) (v : LinkRx) : (s.putRxOf k v).insts = s.insts := rfl
@[simp] theorem State.putRxOf_banks (s : State) (k : Nat) (v : LinkRx) : (s.putRxOf k v).banks = s.banks := rfl
@[simp] theorem State.putRxOf_retired (s : State) (k : Nat) (v : LinkRx) : (s.putRxOf k v).retired = s.retired := rfl
@[simp] theorem State.putRxOf_spares (s : State) (k : Nat) (v : LinkRx) : (s.putRxOf k v).spares = s.spares := rfl
@[simp] theorem State.putRxOf_symTimes (s : State) (k : Nat) (v : LinkRx) : (s.putRxOf k v).symTimes = s.symTimes := rfl
@[simp] theorem State.putRxOf_ueWords (s : State) (k : Nat) (v : LinkRx) : (s.putRxOf k v).ueWords = s.ueWords := rfl
@[simp] theorem State.putRxOf_retireAsk (s : State) (k : Nat) (v : LinkRx) : (s.putRxOf k v).retireAsk = s.retireAsk := rfl
@[simp] theorem State.putRxOf_recarve (s : State) (k : Nat) (v : LinkRx) : (s.putRxOf k v).recarve = s.recarve := rfl
@[simp] theorem State.putRxOf_outOfService (s : State) (k : Nat) (v : LinkRx) : (s.putRxOf k v).outOfService = s.outOfService := rfl
@[simp] theorem State.putRxOf_cdcOut (s : State) (k : Nat) (v : LinkRx) : (s.putRxOf k v).cdcOut = s.cdcOut := rfl
@[simp] theorem State.putRxOf_dmaCount (s : State) (k : Nat) (v : LinkRx) : (s.putRxOf k v).dmaCount = s.dmaCount := rfl
@[simp] theorem State.putRxOf_ctxs (s : State) (k : Nat) (v : LinkRx) : (s.putRxOf k v).ctxs = s.ctxs := rfl
@[simp] theorem State.putRxOf_coreFenced (s : State) (k : Nat) (v : LinkRx) : (s.putRxOf k v).coreFenced = s.coreFenced := rfl
@[simp] theorem State.putRxOf_rrCtx (s : State) (k : Nat) (v : LinkRx) : (s.putRxOf k v).rrCtx = s.rrCtx := rfl
@[simp] theorem State.putRxOf_programs (s : State) (k : Nat) (v : LinkRx) : (s.putRxOf k v).programs = s.programs := rfl
@[simp] theorem State.putRxOf_mem (s : State) (k : Nat) (v : LinkRx) : (s.putRxOf k v).mem = s.mem := rfl
@[simp] theorem State.putRxOf_memPoison (s : State) (k : Nat) (v : LinkRx) : (s.putRxOf k v).memPoison = s.memPoison := rfl
@[simp] theorem State.putRxOf_memReads (s : State) (k : Nat) (v : LinkRx) : (s.putRxOf k v).memReads = s.memReads := rfl
@[simp] theorem State.putRxOf_nextMemTag (s : State) (k : Nat) (v : LinkRx) : (s.putRxOf k v).nextMemTag = s.nextMemTag := rfl
@[simp] theorem State.putRxOf_ownReqs (s : State) (k : Nat) (v : LinkRx) : (s.putRxOf k v).ownReqs = s.ownReqs := rfl
@[simp] theorem State.putRxOf_ownRsps (s : State) (k : Nat) (v : LinkRx) : (s.putRxOf k v).ownRsps = s.ownRsps := rfl
@[simp] theorem State.putRxOf_scrubPos (s : State) (k : Nat) (v : LinkRx) : (s.putRxOf k v).scrubPos = s.scrubPos := rfl
@[simp] theorem State.putRxOf_scrubClock (s : State) (k : Nat) (v : LinkRx) : (s.putRxOf k v).scrubClock = s.scrubClock := rfl
@[simp] theorem State.putRxOf_scrubMark (s : State) (k : Nat) (v : LinkRx) : (s.putRxOf k v).scrubMark = s.scrubMark := rfl
@[simp] theorem State.putRxOf_refreshes (s : State) (k : Nat) (v : LinkRx) : (s.putRxOf k v).refreshes = s.refreshes := rfl
@[simp] theorem State.putRxOf_streams (s : State) (k : Nat) (v : LinkRx) : (s.putRxOf k v).streams = s.streams := rfl
@[simp] theorem State.putRxOf_streamShadow (s : State) (k : Nat) (v : LinkRx) : (s.putRxOf k v).streamShadow = s.streamShadow := rfl
@[simp] theorem State.putRxOf_runs (s : State) (k : Nat) (v : LinkRx) : (s.putRxOf k v).runs = s.runs := rfl
@[simp] theorem State.putRxOf_sepoch (s : State) (k : Nat) (v : LinkRx) : (s.putRxOf k v).sepoch = s.sepoch := rfl
@[simp] theorem State.putRxOf_streamSwitch (s : State) (k : Nat) (v : LinkRx) : (s.putRxOf k v).streamSwitch = s.streamSwitch := rfl
@[simp] theorem State.putRxOf_streamHeld (s : State) (k : Nat) (v : LinkRx) : (s.putRxOf k v).streamHeld = s.streamHeld := rfl
@[simp] theorem State.putRxOf_streamTurn (s : State) (k : Nat) (v : LinkRx) : (s.putRxOf k v).streamTurn = s.streamTurn := rfl
@[simp] theorem State.putRxOf_eth (s : State) (k : Nat) (v : LinkRx) : (s.putRxOf k v).eth = s.eth := rfl
@[simp] theorem State.putRxOf_ethAddr (s : State) (k : Nat) (v : LinkRx) : (s.putRxOf k v).ethAddr = s.ethAddr := rfl
@[simp] theorem State.putRxOf_dmaIdx (s : State) (k : Nat) (v : LinkRx) : (s.putRxOf k v).dmaIdx = s.dmaIdx := rfl
@[simp] theorem State.putRxOf_dmaRecheck (s : State) (k : Nat) (v : LinkRx) : (s.putRxOf k v).dmaRecheck = s.dmaRecheck := rfl
@[simp] theorem State.putRxOf_msixTable (s : State) (k : Nat) (v : LinkRx) : (s.putRxOf k v).msixTable = s.msixTable := rfl
@[simp] theorem State.putRxOf_pba (s : State) (k : Nat) (v : LinkRx) : (s.putRxOf k v).pba = s.pba := rfl
@[simp] theorem State.putRxOf_mbx (s : State) (k : Nat) (v : LinkRx) : (s.putRxOf k v).mbx = s.mbx := rfl
@[simp] theorem State.putRxOf_mbxImage (s : State) (k : Nat) (v : LinkRx) : (s.putRxOf k v).mbxImage = s.mbxImage := rfl
@[simp] theorem State.putRxOf_stored (s : State) (k : Nat) (v : LinkRx) : (s.putRxOf k v).stored = s.stored := rfl
@[simp] theorem State.putRxOf_hello (s : State) (k : Nat) (v : LinkRx) : (s.putRxOf k v).hello = s.hello := rfl
@[simp] theorem State.putRxOf_grants (s : State) (k : Nat) (v : LinkRx) : (s.putRxOf k v).grants = s.grants := rfl
@[simp] theorem State.putRxOf_stages (s : State) (k : Nat) (v : LinkRx) : (s.putRxOf k v).stages = s.stages := rfl
@[simp] theorem State.putRxOf_recvCount (s : State) (k : Nat) (v : LinkRx) : (s.putRxOf k v).recvCount = s.recvCount := rfl
@[simp] theorem State.putRxOf_errs (s : State) (k : Nat) (v : LinkRx) : (s.putRxOf k v).errs = s.errs := rfl
@[simp] theorem State.putRxOf_rseq (s : State) (k : Nat) (v : LinkRx) : (s.putRxOf k v).rseq = s.rseq := rfl
@[simp] theorem State.putRxOf_dice (s : State) (k : Nat) (v : LinkRx) : (s.putRxOf k v).dice = s.dice := rfl
@[simp] theorem State.putRxOf_ledger (s : State) (k : Nat) (v : LinkRx) : (s.putRxOf k v).ledger = s.ledger := rfl
@[simp] theorem State.putRxOf_trust (s : State) (k : Nat) (v : LinkRx) : (s.putRxOf k v).trust = s.trust := rfl
@[simp] theorem State.putRxOf_cond (s : State) (k : Nat) (v : LinkRx) : (s.putRxOf k v).cond = s.cond := rfl
@[simp] theorem State.putRxOf_ckpts (s : State) (k : Nat) (v : LinkRx) : (s.putRxOf k v).ckpts = s.ckpts := rfl
@[simp] theorem State.putRxOf_pair (s : State) (k : Nat) (v : LinkRx) : (s.putRxOf k v).pair = s.pair := rfl
@[simp] theorem State.putRxOf_agent (s : State) (k : Nat) (v : LinkRx) : (s.putRxOf k v).agent = s.agent := rfl
@[simp] theorem State.putRxOf_power (s : State) (k : Nat) (v : LinkRx) : (s.putRxOf k v).power = s.power := rfl
@[simp] theorem State.putRxOf_phys (s : State) (k : Nat) (v : LinkRx) : (s.putRxOf k v).phys = s.phys := rfl
@[simp] theorem State.putRxOf_cnt (s : State) (k : Nat) (v : LinkRx) : (s.putRxOf k v).cnt = s.cnt := rfl
@[simp] theorem State.putRxOf_mainSince (s : State) (k : Nat) (v : LinkRx) : (s.putRxOf k v).mainSince = s.mainSince := rfl
@[simp] theorem State.putRxOf_cntHeld (s : State) (k : Nat) (v : LinkRx) : (s.putRxOf k v).cntHeld = s.cntHeld := rfl
@[simp] theorem State.putRxOf_always (s : State) (k : Nat) (v : LinkRx) : (s.putRxOf k v).always = s.always := rfl
@[simp] theorem State.putRxOf_linkCnt (s : State) (k : Nat) (v : LinkRx) : (s.putRxOf k v).linkCnt = s.linkCnt := rfl
@[simp] theorem State.putRxOf_ssSeq (s : State) (k : Nat) (v : LinkRx) : (s.putRxOf k v).ssSeq = s.ssSeq := rfl
@[simp] theorem State.putRxOf_ssBusy (s : State) (k : Nat) (v : LinkRx) : (s.putRxOf k v).ssBusy = s.ssBusy := rfl
@[simp] theorem State.putRxOf_ssSkippedBefore (s : State) (k : Nat) (v : LinkRx) : (s.putRxOf k v).ssSkippedBefore = s.ssSkippedBefore := rfl
@[simp] theorem State.putRxOf_ssRecord (s : State) (k : Nat) (v : LinkRx) : (s.putRxOf k v).ssRecord = s.ssRecord := rfl
@[simp] theorem State.putRxOf_ssPending (s : State) (k : Nat) (v : LinkRx) : (s.putRxOf k v).ssPending = s.ssPending := rfl
@[simp] theorem State.putRxOf_mismatchHours (s : State) (k : Nat) (v : LinkRx) : (s.putRxOf k v).mismatchHours = s.mismatchHours := rfl

/-! ## The entry of `inq` -/

@[simp] theorem State.putInqOf_pending (s : State) (k : Nat) (v : List InPkt) : (s.putInqOf k v).pending = s.pending := rfl
@[simp] theorem State.putInqOf_now (s : State) (k : Nat) (v : List InPkt) : (s.putInqOf k v).now = s.now := rfl
@[simp] theorem State.putInqOf_tick (s : State) (k : Nat) (v : List InPkt) : (s.putInqOf k v).tick = s.tick := rfl
@[simp] theorem State.putInqOf_fresh (s : State) (k : Nat) (v : List InPkt) : (s.putInqOf k v).fresh = s.fresh := rfl
@[simp] theorem State.putInqOf_out (s : State) (k : Nat) (v : List InPkt) : (s.putInqOf k v).out = s.out := rfl
@[simp] theorem State.putInqOf_carried (s : State) (k : Nat) (v : List InPkt) : (s.putInqOf k v).carried = s.carried := rfl
@[simp] theorem State.putInqOf_regs (s : State) (k : Nat) (v : List InPkt) : (s.putInqOf k v).regs = s.regs := rfl
@[simp] theorem State.putInqOf_plane (s : State) (k : Nat) (v : List InPkt) : (s.putInqOf k v).plane = s.plane := rfl
@[simp] theorem State.putInqOf_tray (s : State) (k : Nat) (v : List InPkt) : (s.putInqOf k v).tray = s.tray := rfl
@[simp] theorem State.putInqOf_plan (s : State) (k : Nat) (v : List InPkt) : (s.putInqOf k v).plan = s.plan := rfl
@[simp] theorem State.putInqOf_planLive (s : State) (k : Nat) (v : List InPkt) : (s.putInqOf k v).planLive = s.planLive := rfl
@[simp] theorem State.putInqOf_planHash (s : State) (k : Nat) (v : List InPkt) : (s.putInqOf k v).planHash = s.planHash := rfl
@[simp] theorem State.putInqOf_ports (s : State) (k : Nat) (v : List InPkt) : (s.putInqOf k v).ports = s.ports := rfl
@[simp] theorem State.putInqOf_lanes (s : State) (k : Nat) (v : List InPkt) : (s.putInqOf k v).lanes = s.lanes := rfl
@[simp] theorem State.putInqOf_tx (s : State) (k : Nat) (v : List InPkt) : (s.putInqOf k v).tx = s.tx := rfl
@[simp] theorem State.putInqOf_lines (s : State) (k : Nat) (v : List InPkt) : (s.putInqOf k v).lines = s.lines := rfl
@[simp] theorem State.putInqOf_rx (s : State) (k : Nat) (v : List InPkt) : (s.putInqOf k v).rx = s.rx := rfl
@[simp] theorem State.putInqOf_outq (s : State) (k : Nat) (v : List InPkt) : (s.putInqOf k v).outq = s.outq := rfl
@[simp] theorem State.putInqOf_vcbuf (s : State) (k : Nat) (v : List InPkt) : (s.putInqOf k v).vcbuf = s.vcbuf := rfl
@[simp] theorem State.putInqOf_qcharge (s : State) (k : Nat) (v : List InPkt) : (s.putInqOf k v).qcharge = s.qcharge := rfl
@[simp] theorem State.putInqOf_shared (s : State) (k : Nat) (v : List InPkt) : (s.putInqOf k v).shared = s.shared := rfl
@[simp] theorem State.putInqOf_arb (s : State) (k : Nat) (v : List InPkt) : (s.putInqOf k v).arb = s.arb := rfl
@[simp] theorem State.putInqOf_tables (s : State) (k : Nat) (v : List InPkt) : (s.putInqOf k v).tables = s.tables := rfl
@[simp] theorem State.putInqOf_shadow (s : State) (k : Nat) (v : List InPkt) : (s.putInqOf k v).shadow = s.shadow := rfl
@[simp] theorem State.putInqOf_escVia (s : State) (k : Nat) (v : List InPkt) : (s.putInqOf k v).escVia = s.escVia := rfl
@[simp] theorem State.putInqOf_lfsr (s : State) (k : Nat) (v : List InPkt) : (s.putInqOf k v).lfsr = s.lfsr := rfl
@[simp] theorem State.putInqOf_inFlows (s : State) (k : Nat) (v : List InPkt) : (s.putInqOf k v).inFlows = s.inFlows := rfl
@[simp] theorem State.putInqOf_egFlows (s : State) (k : Nat) (v : List InPkt) : (s.putInqOf k v).egFlows = s.egFlows := rfl
@[simp] theorem State.putInqOf_buckets (s : State) (k : Nat) (v : List InPkt) : (s.putInqOf k v).buckets = s.buckets := rfl
@[simp] theorem State.putInqOf_local_ (s : State) (k : Nat) (v : List InPkt) : (s.putInqOf k v).local_ = s.local_ := rfl
@[simp] theorem State.putInqOf_cellWait (s : State) (k : Nat) (v : List InPkt) : (s.putInqOf k v).cellWait = s.cellWait := rfl
@[simp] theorem State.putInqOf_notices (s : State) (k : Nat) (v : List InPkt) : (s.putInqOf k v).notices = s.notices := rfl
@[simp] theorem State.putInqOf_heldPkts (s : State) (k : Nat) (v : List InPkt) : (s.putInqOf k v).heldPkts = s.heldPkts := rfl
@[simp] theorem State.putInqOf_unitEvents (s : State) (k : Nat) (v : List InPkt) : (s.putInqOf k v).unitEvents = s.unitEvents := rfl
@[simp] theorem State.putInqOf_nextCast (s : State) (k : Nat) (v : List InPkt) : (s.putInqOf k v).nextCast = s.nextCast := rfl
@[simp] theorem State.putInqOf_bindCount (s : State) (k : Nat) (v : List InPkt) : (s.putInqOf k v).bindCount = s.bindCount := rfl
@[simp] theorem State.putInqOf_instCount (s : State) (k : Nat) (v : List InPkt) : (s.putInqOf k v).instCount = s.instCount := rfl
@[simp] theorem State.putInqOf_topDown (s : State) (k : Nat) (v : List InPkt) : (s.putInqOf k v).topDown = s.topDown := rfl
@[simp] theorem State.putInqOf_waitCmds (s : State) (k : Nat) (v : List InPkt) : (s.putInqOf k v).waitCmds = s.waitCmds := rfl
@[simp] theorem State.putInqOf_restarting (s : State) (k : Nat) (v : List InPkt) : (s.putInqOf k v).restarting = s.restarting := rfl
@[simp] theorem State.putInqOf_verifySlices (s : State) (k : Nat) (v : List InPkt) : (s.putInqOf k v).verifySlices = s.verifySlices := rfl
@[simp] theorem State.putInqOf_groups (s : State) (k : Nat) (v : List InPkt) : (s.putInqOf k v).groups = s.groups := rfl
@[simp] theorem State.putInqOf_slots (s : State) (k : Nat) (v : List InPkt) : (s.putInqOf k v).slots = s.slots := rfl
@[simp] theorem State.putInqOf_bindWaits (s : State) (k : Nat) (v : List InPkt) : (s.putInqOf k v).bindWaits = s.bindWaits := rfl
@[simp] theorem State.putInqOf_insts (s : State) (k : Nat) (v : List InPkt) : (s.putInqOf k v).insts = s.insts := rfl
@[simp] theorem State.putInqOf_banks (s : State) (k : Nat) (v : List InPkt) : (s.putInqOf k v).banks = s.banks := rfl
@[simp] theorem State.putInqOf_retired (s : State) (k : Nat) (v : List InPkt) : (s.putInqOf k v).retired = s.retired := rfl
@[simp] theorem State.putInqOf_spares (s : State) (k : Nat) (v : List InPkt) : (s.putInqOf k v).spares = s.spares := rfl
@[simp] theorem State.putInqOf_symTimes (s : State) (k : Nat) (v : List InPkt) : (s.putInqOf k v).symTimes = s.symTimes := rfl
@[simp] theorem State.putInqOf_ueWords (s : State) (k : Nat) (v : List InPkt) : (s.putInqOf k v).ueWords = s.ueWords := rfl
@[simp] theorem State.putInqOf_retireAsk (s : State) (k : Nat) (v : List InPkt) : (s.putInqOf k v).retireAsk = s.retireAsk := rfl
@[simp] theorem State.putInqOf_recarve (s : State) (k : Nat) (v : List InPkt) : (s.putInqOf k v).recarve = s.recarve := rfl
@[simp] theorem State.putInqOf_outOfService (s : State) (k : Nat) (v : List InPkt) : (s.putInqOf k v).outOfService = s.outOfService := rfl
@[simp] theorem State.putInqOf_cdcOut (s : State) (k : Nat) (v : List InPkt) : (s.putInqOf k v).cdcOut = s.cdcOut := rfl
@[simp] theorem State.putInqOf_dmaCount (s : State) (k : Nat) (v : List InPkt) : (s.putInqOf k v).dmaCount = s.dmaCount := rfl
@[simp] theorem State.putInqOf_ctxs (s : State) (k : Nat) (v : List InPkt) : (s.putInqOf k v).ctxs = s.ctxs := rfl
@[simp] theorem State.putInqOf_coreFenced (s : State) (k : Nat) (v : List InPkt) : (s.putInqOf k v).coreFenced = s.coreFenced := rfl
@[simp] theorem State.putInqOf_rrCtx (s : State) (k : Nat) (v : List InPkt) : (s.putInqOf k v).rrCtx = s.rrCtx := rfl
@[simp] theorem State.putInqOf_programs (s : State) (k : Nat) (v : List InPkt) : (s.putInqOf k v).programs = s.programs := rfl
@[simp] theorem State.putInqOf_mem (s : State) (k : Nat) (v : List InPkt) : (s.putInqOf k v).mem = s.mem := rfl
@[simp] theorem State.putInqOf_memPoison (s : State) (k : Nat) (v : List InPkt) : (s.putInqOf k v).memPoison = s.memPoison := rfl
@[simp] theorem State.putInqOf_memReads (s : State) (k : Nat) (v : List InPkt) : (s.putInqOf k v).memReads = s.memReads := rfl
@[simp] theorem State.putInqOf_nextMemTag (s : State) (k : Nat) (v : List InPkt) : (s.putInqOf k v).nextMemTag = s.nextMemTag := rfl
@[simp] theorem State.putInqOf_ownReqs (s : State) (k : Nat) (v : List InPkt) : (s.putInqOf k v).ownReqs = s.ownReqs := rfl
@[simp] theorem State.putInqOf_ownRsps (s : State) (k : Nat) (v : List InPkt) : (s.putInqOf k v).ownRsps = s.ownRsps := rfl
@[simp] theorem State.putInqOf_scrubPos (s : State) (k : Nat) (v : List InPkt) : (s.putInqOf k v).scrubPos = s.scrubPos := rfl
@[simp] theorem State.putInqOf_scrubClock (s : State) (k : Nat) (v : List InPkt) : (s.putInqOf k v).scrubClock = s.scrubClock := rfl
@[simp] theorem State.putInqOf_scrubMark (s : State) (k : Nat) (v : List InPkt) : (s.putInqOf k v).scrubMark = s.scrubMark := rfl
@[simp] theorem State.putInqOf_refreshes (s : State) (k : Nat) (v : List InPkt) : (s.putInqOf k v).refreshes = s.refreshes := rfl
@[simp] theorem State.putInqOf_streams (s : State) (k : Nat) (v : List InPkt) : (s.putInqOf k v).streams = s.streams := rfl
@[simp] theorem State.putInqOf_streamShadow (s : State) (k : Nat) (v : List InPkt) : (s.putInqOf k v).streamShadow = s.streamShadow := rfl
@[simp] theorem State.putInqOf_runs (s : State) (k : Nat) (v : List InPkt) : (s.putInqOf k v).runs = s.runs := rfl
@[simp] theorem State.putInqOf_sepoch (s : State) (k : Nat) (v : List InPkt) : (s.putInqOf k v).sepoch = s.sepoch := rfl
@[simp] theorem State.putInqOf_streamSwitch (s : State) (k : Nat) (v : List InPkt) : (s.putInqOf k v).streamSwitch = s.streamSwitch := rfl
@[simp] theorem State.putInqOf_streamHeld (s : State) (k : Nat) (v : List InPkt) : (s.putInqOf k v).streamHeld = s.streamHeld := rfl
@[simp] theorem State.putInqOf_streamTurn (s : State) (k : Nat) (v : List InPkt) : (s.putInqOf k v).streamTurn = s.streamTurn := rfl
@[simp] theorem State.putInqOf_eth (s : State) (k : Nat) (v : List InPkt) : (s.putInqOf k v).eth = s.eth := rfl
@[simp] theorem State.putInqOf_ethAddr (s : State) (k : Nat) (v : List InPkt) : (s.putInqOf k v).ethAddr = s.ethAddr := rfl
@[simp] theorem State.putInqOf_dmaIdx (s : State) (k : Nat) (v : List InPkt) : (s.putInqOf k v).dmaIdx = s.dmaIdx := rfl
@[simp] theorem State.putInqOf_dmaRecheck (s : State) (k : Nat) (v : List InPkt) : (s.putInqOf k v).dmaRecheck = s.dmaRecheck := rfl
@[simp] theorem State.putInqOf_msixTable (s : State) (k : Nat) (v : List InPkt) : (s.putInqOf k v).msixTable = s.msixTable := rfl
@[simp] theorem State.putInqOf_pba (s : State) (k : Nat) (v : List InPkt) : (s.putInqOf k v).pba = s.pba := rfl
@[simp] theorem State.putInqOf_mbx (s : State) (k : Nat) (v : List InPkt) : (s.putInqOf k v).mbx = s.mbx := rfl
@[simp] theorem State.putInqOf_mbxImage (s : State) (k : Nat) (v : List InPkt) : (s.putInqOf k v).mbxImage = s.mbxImage := rfl
@[simp] theorem State.putInqOf_stored (s : State) (k : Nat) (v : List InPkt) : (s.putInqOf k v).stored = s.stored := rfl
@[simp] theorem State.putInqOf_hello (s : State) (k : Nat) (v : List InPkt) : (s.putInqOf k v).hello = s.hello := rfl
@[simp] theorem State.putInqOf_grants (s : State) (k : Nat) (v : List InPkt) : (s.putInqOf k v).grants = s.grants := rfl
@[simp] theorem State.putInqOf_stages (s : State) (k : Nat) (v : List InPkt) : (s.putInqOf k v).stages = s.stages := rfl
@[simp] theorem State.putInqOf_recvCount (s : State) (k : Nat) (v : List InPkt) : (s.putInqOf k v).recvCount = s.recvCount := rfl
@[simp] theorem State.putInqOf_errs (s : State) (k : Nat) (v : List InPkt) : (s.putInqOf k v).errs = s.errs := rfl
@[simp] theorem State.putInqOf_rseq (s : State) (k : Nat) (v : List InPkt) : (s.putInqOf k v).rseq = s.rseq := rfl
@[simp] theorem State.putInqOf_dice (s : State) (k : Nat) (v : List InPkt) : (s.putInqOf k v).dice = s.dice := rfl
@[simp] theorem State.putInqOf_ledger (s : State) (k : Nat) (v : List InPkt) : (s.putInqOf k v).ledger = s.ledger := rfl
@[simp] theorem State.putInqOf_trust (s : State) (k : Nat) (v : List InPkt) : (s.putInqOf k v).trust = s.trust := rfl
@[simp] theorem State.putInqOf_cond (s : State) (k : Nat) (v : List InPkt) : (s.putInqOf k v).cond = s.cond := rfl
@[simp] theorem State.putInqOf_ckpts (s : State) (k : Nat) (v : List InPkt) : (s.putInqOf k v).ckpts = s.ckpts := rfl
@[simp] theorem State.putInqOf_pair (s : State) (k : Nat) (v : List InPkt) : (s.putInqOf k v).pair = s.pair := rfl
@[simp] theorem State.putInqOf_agent (s : State) (k : Nat) (v : List InPkt) : (s.putInqOf k v).agent = s.agent := rfl
@[simp] theorem State.putInqOf_power (s : State) (k : Nat) (v : List InPkt) : (s.putInqOf k v).power = s.power := rfl
@[simp] theorem State.putInqOf_phys (s : State) (k : Nat) (v : List InPkt) : (s.putInqOf k v).phys = s.phys := rfl
@[simp] theorem State.putInqOf_cnt (s : State) (k : Nat) (v : List InPkt) : (s.putInqOf k v).cnt = s.cnt := rfl
@[simp] theorem State.putInqOf_mainSince (s : State) (k : Nat) (v : List InPkt) : (s.putInqOf k v).mainSince = s.mainSince := rfl
@[simp] theorem State.putInqOf_cntHeld (s : State) (k : Nat) (v : List InPkt) : (s.putInqOf k v).cntHeld = s.cntHeld := rfl
@[simp] theorem State.putInqOf_always (s : State) (k : Nat) (v : List InPkt) : (s.putInqOf k v).always = s.always := rfl
@[simp] theorem State.putInqOf_linkCnt (s : State) (k : Nat) (v : List InPkt) : (s.putInqOf k v).linkCnt = s.linkCnt := rfl
@[simp] theorem State.putInqOf_ssSeq (s : State) (k : Nat) (v : List InPkt) : (s.putInqOf k v).ssSeq = s.ssSeq := rfl
@[simp] theorem State.putInqOf_ssBusy (s : State) (k : Nat) (v : List InPkt) : (s.putInqOf k v).ssBusy = s.ssBusy := rfl
@[simp] theorem State.putInqOf_ssSkippedBefore (s : State) (k : Nat) (v : List InPkt) : (s.putInqOf k v).ssSkippedBefore = s.ssSkippedBefore := rfl
@[simp] theorem State.putInqOf_ssRecord (s : State) (k : Nat) (v : List InPkt) : (s.putInqOf k v).ssRecord = s.ssRecord := rfl
@[simp] theorem State.putInqOf_ssPending (s : State) (k : Nat) (v : List InPkt) : (s.putInqOf k v).ssPending = s.ssPending := rfl
@[simp] theorem State.putInqOf_mismatchHours (s : State) (k : Nat) (v : List InPkt) : (s.putInqOf k v).mismatchHours = s.mismatchHours := rfl

/-! ## The entry of `outq` -/

@[simp] theorem State.putOutqOf_pending (s : State) (k : Nat) (v : List OutPkt) : (s.putOutqOf k v).pending = s.pending := rfl
@[simp] theorem State.putOutqOf_now (s : State) (k : Nat) (v : List OutPkt) : (s.putOutqOf k v).now = s.now := rfl
@[simp] theorem State.putOutqOf_tick (s : State) (k : Nat) (v : List OutPkt) : (s.putOutqOf k v).tick = s.tick := rfl
@[simp] theorem State.putOutqOf_fresh (s : State) (k : Nat) (v : List OutPkt) : (s.putOutqOf k v).fresh = s.fresh := rfl
@[simp] theorem State.putOutqOf_out (s : State) (k : Nat) (v : List OutPkt) : (s.putOutqOf k v).out = s.out := rfl
@[simp] theorem State.putOutqOf_carried (s : State) (k : Nat) (v : List OutPkt) : (s.putOutqOf k v).carried = s.carried := rfl
@[simp] theorem State.putOutqOf_regs (s : State) (k : Nat) (v : List OutPkt) : (s.putOutqOf k v).regs = s.regs := rfl
@[simp] theorem State.putOutqOf_plane (s : State) (k : Nat) (v : List OutPkt) : (s.putOutqOf k v).plane = s.plane := rfl
@[simp] theorem State.putOutqOf_tray (s : State) (k : Nat) (v : List OutPkt) : (s.putOutqOf k v).tray = s.tray := rfl
@[simp] theorem State.putOutqOf_plan (s : State) (k : Nat) (v : List OutPkt) : (s.putOutqOf k v).plan = s.plan := rfl
@[simp] theorem State.putOutqOf_planLive (s : State) (k : Nat) (v : List OutPkt) : (s.putOutqOf k v).planLive = s.planLive := rfl
@[simp] theorem State.putOutqOf_planHash (s : State) (k : Nat) (v : List OutPkt) : (s.putOutqOf k v).planHash = s.planHash := rfl
@[simp] theorem State.putOutqOf_ports (s : State) (k : Nat) (v : List OutPkt) : (s.putOutqOf k v).ports = s.ports := rfl
@[simp] theorem State.putOutqOf_lanes (s : State) (k : Nat) (v : List OutPkt) : (s.putOutqOf k v).lanes = s.lanes := rfl
@[simp] theorem State.putOutqOf_tx (s : State) (k : Nat) (v : List OutPkt) : (s.putOutqOf k v).tx = s.tx := rfl
@[simp] theorem State.putOutqOf_lines (s : State) (k : Nat) (v : List OutPkt) : (s.putOutqOf k v).lines = s.lines := rfl
@[simp] theorem State.putOutqOf_rx (s : State) (k : Nat) (v : List OutPkt) : (s.putOutqOf k v).rx = s.rx := rfl
@[simp] theorem State.putOutqOf_inq (s : State) (k : Nat) (v : List OutPkt) : (s.putOutqOf k v).inq = s.inq := rfl
@[simp] theorem State.putOutqOf_vcbuf (s : State) (k : Nat) (v : List OutPkt) : (s.putOutqOf k v).vcbuf = s.vcbuf := rfl
@[simp] theorem State.putOutqOf_qcharge (s : State) (k : Nat) (v : List OutPkt) : (s.putOutqOf k v).qcharge = s.qcharge := rfl
@[simp] theorem State.putOutqOf_shared (s : State) (k : Nat) (v : List OutPkt) : (s.putOutqOf k v).shared = s.shared := rfl
@[simp] theorem State.putOutqOf_arb (s : State) (k : Nat) (v : List OutPkt) : (s.putOutqOf k v).arb = s.arb := rfl
@[simp] theorem State.putOutqOf_tables (s : State) (k : Nat) (v : List OutPkt) : (s.putOutqOf k v).tables = s.tables := rfl
@[simp] theorem State.putOutqOf_shadow (s : State) (k : Nat) (v : List OutPkt) : (s.putOutqOf k v).shadow = s.shadow := rfl
@[simp] theorem State.putOutqOf_escVia (s : State) (k : Nat) (v : List OutPkt) : (s.putOutqOf k v).escVia = s.escVia := rfl
@[simp] theorem State.putOutqOf_lfsr (s : State) (k : Nat) (v : List OutPkt) : (s.putOutqOf k v).lfsr = s.lfsr := rfl
@[simp] theorem State.putOutqOf_inFlows (s : State) (k : Nat) (v : List OutPkt) : (s.putOutqOf k v).inFlows = s.inFlows := rfl
@[simp] theorem State.putOutqOf_egFlows (s : State) (k : Nat) (v : List OutPkt) : (s.putOutqOf k v).egFlows = s.egFlows := rfl
@[simp] theorem State.putOutqOf_buckets (s : State) (k : Nat) (v : List OutPkt) : (s.putOutqOf k v).buckets = s.buckets := rfl
@[simp] theorem State.putOutqOf_local_ (s : State) (k : Nat) (v : List OutPkt) : (s.putOutqOf k v).local_ = s.local_ := rfl
@[simp] theorem State.putOutqOf_cellWait (s : State) (k : Nat) (v : List OutPkt) : (s.putOutqOf k v).cellWait = s.cellWait := rfl
@[simp] theorem State.putOutqOf_notices (s : State) (k : Nat) (v : List OutPkt) : (s.putOutqOf k v).notices = s.notices := rfl
@[simp] theorem State.putOutqOf_heldPkts (s : State) (k : Nat) (v : List OutPkt) : (s.putOutqOf k v).heldPkts = s.heldPkts := rfl
@[simp] theorem State.putOutqOf_unitEvents (s : State) (k : Nat) (v : List OutPkt) : (s.putOutqOf k v).unitEvents = s.unitEvents := rfl
@[simp] theorem State.putOutqOf_nextCast (s : State) (k : Nat) (v : List OutPkt) : (s.putOutqOf k v).nextCast = s.nextCast := rfl
@[simp] theorem State.putOutqOf_bindCount (s : State) (k : Nat) (v : List OutPkt) : (s.putOutqOf k v).bindCount = s.bindCount := rfl
@[simp] theorem State.putOutqOf_instCount (s : State) (k : Nat) (v : List OutPkt) : (s.putOutqOf k v).instCount = s.instCount := rfl
@[simp] theorem State.putOutqOf_topDown (s : State) (k : Nat) (v : List OutPkt) : (s.putOutqOf k v).topDown = s.topDown := rfl
@[simp] theorem State.putOutqOf_waitCmds (s : State) (k : Nat) (v : List OutPkt) : (s.putOutqOf k v).waitCmds = s.waitCmds := rfl
@[simp] theorem State.putOutqOf_restarting (s : State) (k : Nat) (v : List OutPkt) : (s.putOutqOf k v).restarting = s.restarting := rfl
@[simp] theorem State.putOutqOf_verifySlices (s : State) (k : Nat) (v : List OutPkt) : (s.putOutqOf k v).verifySlices = s.verifySlices := rfl
@[simp] theorem State.putOutqOf_groups (s : State) (k : Nat) (v : List OutPkt) : (s.putOutqOf k v).groups = s.groups := rfl
@[simp] theorem State.putOutqOf_slots (s : State) (k : Nat) (v : List OutPkt) : (s.putOutqOf k v).slots = s.slots := rfl
@[simp] theorem State.putOutqOf_bindWaits (s : State) (k : Nat) (v : List OutPkt) : (s.putOutqOf k v).bindWaits = s.bindWaits := rfl
@[simp] theorem State.putOutqOf_insts (s : State) (k : Nat) (v : List OutPkt) : (s.putOutqOf k v).insts = s.insts := rfl
@[simp] theorem State.putOutqOf_banks (s : State) (k : Nat) (v : List OutPkt) : (s.putOutqOf k v).banks = s.banks := rfl
@[simp] theorem State.putOutqOf_retired (s : State) (k : Nat) (v : List OutPkt) : (s.putOutqOf k v).retired = s.retired := rfl
@[simp] theorem State.putOutqOf_spares (s : State) (k : Nat) (v : List OutPkt) : (s.putOutqOf k v).spares = s.spares := rfl
@[simp] theorem State.putOutqOf_symTimes (s : State) (k : Nat) (v : List OutPkt) : (s.putOutqOf k v).symTimes = s.symTimes := rfl
@[simp] theorem State.putOutqOf_ueWords (s : State) (k : Nat) (v : List OutPkt) : (s.putOutqOf k v).ueWords = s.ueWords := rfl
@[simp] theorem State.putOutqOf_retireAsk (s : State) (k : Nat) (v : List OutPkt) : (s.putOutqOf k v).retireAsk = s.retireAsk := rfl
@[simp] theorem State.putOutqOf_recarve (s : State) (k : Nat) (v : List OutPkt) : (s.putOutqOf k v).recarve = s.recarve := rfl
@[simp] theorem State.putOutqOf_outOfService (s : State) (k : Nat) (v : List OutPkt) : (s.putOutqOf k v).outOfService = s.outOfService := rfl
@[simp] theorem State.putOutqOf_cdcOut (s : State) (k : Nat) (v : List OutPkt) : (s.putOutqOf k v).cdcOut = s.cdcOut := rfl
@[simp] theorem State.putOutqOf_dmaCount (s : State) (k : Nat) (v : List OutPkt) : (s.putOutqOf k v).dmaCount = s.dmaCount := rfl
@[simp] theorem State.putOutqOf_ctxs (s : State) (k : Nat) (v : List OutPkt) : (s.putOutqOf k v).ctxs = s.ctxs := rfl
@[simp] theorem State.putOutqOf_coreFenced (s : State) (k : Nat) (v : List OutPkt) : (s.putOutqOf k v).coreFenced = s.coreFenced := rfl
@[simp] theorem State.putOutqOf_rrCtx (s : State) (k : Nat) (v : List OutPkt) : (s.putOutqOf k v).rrCtx = s.rrCtx := rfl
@[simp] theorem State.putOutqOf_programs (s : State) (k : Nat) (v : List OutPkt) : (s.putOutqOf k v).programs = s.programs := rfl
@[simp] theorem State.putOutqOf_mem (s : State) (k : Nat) (v : List OutPkt) : (s.putOutqOf k v).mem = s.mem := rfl
@[simp] theorem State.putOutqOf_memPoison (s : State) (k : Nat) (v : List OutPkt) : (s.putOutqOf k v).memPoison = s.memPoison := rfl
@[simp] theorem State.putOutqOf_memReads (s : State) (k : Nat) (v : List OutPkt) : (s.putOutqOf k v).memReads = s.memReads := rfl
@[simp] theorem State.putOutqOf_nextMemTag (s : State) (k : Nat) (v : List OutPkt) : (s.putOutqOf k v).nextMemTag = s.nextMemTag := rfl
@[simp] theorem State.putOutqOf_ownReqs (s : State) (k : Nat) (v : List OutPkt) : (s.putOutqOf k v).ownReqs = s.ownReqs := rfl
@[simp] theorem State.putOutqOf_ownRsps (s : State) (k : Nat) (v : List OutPkt) : (s.putOutqOf k v).ownRsps = s.ownRsps := rfl
@[simp] theorem State.putOutqOf_scrubPos (s : State) (k : Nat) (v : List OutPkt) : (s.putOutqOf k v).scrubPos = s.scrubPos := rfl
@[simp] theorem State.putOutqOf_scrubClock (s : State) (k : Nat) (v : List OutPkt) : (s.putOutqOf k v).scrubClock = s.scrubClock := rfl
@[simp] theorem State.putOutqOf_scrubMark (s : State) (k : Nat) (v : List OutPkt) : (s.putOutqOf k v).scrubMark = s.scrubMark := rfl
@[simp] theorem State.putOutqOf_refreshes (s : State) (k : Nat) (v : List OutPkt) : (s.putOutqOf k v).refreshes = s.refreshes := rfl
@[simp] theorem State.putOutqOf_streams (s : State) (k : Nat) (v : List OutPkt) : (s.putOutqOf k v).streams = s.streams := rfl
@[simp] theorem State.putOutqOf_streamShadow (s : State) (k : Nat) (v : List OutPkt) : (s.putOutqOf k v).streamShadow = s.streamShadow := rfl
@[simp] theorem State.putOutqOf_runs (s : State) (k : Nat) (v : List OutPkt) : (s.putOutqOf k v).runs = s.runs := rfl
@[simp] theorem State.putOutqOf_sepoch (s : State) (k : Nat) (v : List OutPkt) : (s.putOutqOf k v).sepoch = s.sepoch := rfl
@[simp] theorem State.putOutqOf_streamSwitch (s : State) (k : Nat) (v : List OutPkt) : (s.putOutqOf k v).streamSwitch = s.streamSwitch := rfl
@[simp] theorem State.putOutqOf_streamHeld (s : State) (k : Nat) (v : List OutPkt) : (s.putOutqOf k v).streamHeld = s.streamHeld := rfl
@[simp] theorem State.putOutqOf_streamTurn (s : State) (k : Nat) (v : List OutPkt) : (s.putOutqOf k v).streamTurn = s.streamTurn := rfl
@[simp] theorem State.putOutqOf_eth (s : State) (k : Nat) (v : List OutPkt) : (s.putOutqOf k v).eth = s.eth := rfl
@[simp] theorem State.putOutqOf_ethAddr (s : State) (k : Nat) (v : List OutPkt) : (s.putOutqOf k v).ethAddr = s.ethAddr := rfl
@[simp] theorem State.putOutqOf_dmaIdx (s : State) (k : Nat) (v : List OutPkt) : (s.putOutqOf k v).dmaIdx = s.dmaIdx := rfl
@[simp] theorem State.putOutqOf_dmaRecheck (s : State) (k : Nat) (v : List OutPkt) : (s.putOutqOf k v).dmaRecheck = s.dmaRecheck := rfl
@[simp] theorem State.putOutqOf_msixTable (s : State) (k : Nat) (v : List OutPkt) : (s.putOutqOf k v).msixTable = s.msixTable := rfl
@[simp] theorem State.putOutqOf_pba (s : State) (k : Nat) (v : List OutPkt) : (s.putOutqOf k v).pba = s.pba := rfl
@[simp] theorem State.putOutqOf_mbx (s : State) (k : Nat) (v : List OutPkt) : (s.putOutqOf k v).mbx = s.mbx := rfl
@[simp] theorem State.putOutqOf_mbxImage (s : State) (k : Nat) (v : List OutPkt) : (s.putOutqOf k v).mbxImage = s.mbxImage := rfl
@[simp] theorem State.putOutqOf_stored (s : State) (k : Nat) (v : List OutPkt) : (s.putOutqOf k v).stored = s.stored := rfl
@[simp] theorem State.putOutqOf_hello (s : State) (k : Nat) (v : List OutPkt) : (s.putOutqOf k v).hello = s.hello := rfl
@[simp] theorem State.putOutqOf_grants (s : State) (k : Nat) (v : List OutPkt) : (s.putOutqOf k v).grants = s.grants := rfl
@[simp] theorem State.putOutqOf_stages (s : State) (k : Nat) (v : List OutPkt) : (s.putOutqOf k v).stages = s.stages := rfl
@[simp] theorem State.putOutqOf_recvCount (s : State) (k : Nat) (v : List OutPkt) : (s.putOutqOf k v).recvCount = s.recvCount := rfl
@[simp] theorem State.putOutqOf_errs (s : State) (k : Nat) (v : List OutPkt) : (s.putOutqOf k v).errs = s.errs := rfl
@[simp] theorem State.putOutqOf_rseq (s : State) (k : Nat) (v : List OutPkt) : (s.putOutqOf k v).rseq = s.rseq := rfl
@[simp] theorem State.putOutqOf_dice (s : State) (k : Nat) (v : List OutPkt) : (s.putOutqOf k v).dice = s.dice := rfl
@[simp] theorem State.putOutqOf_ledger (s : State) (k : Nat) (v : List OutPkt) : (s.putOutqOf k v).ledger = s.ledger := rfl
@[simp] theorem State.putOutqOf_trust (s : State) (k : Nat) (v : List OutPkt) : (s.putOutqOf k v).trust = s.trust := rfl
@[simp] theorem State.putOutqOf_cond (s : State) (k : Nat) (v : List OutPkt) : (s.putOutqOf k v).cond = s.cond := rfl
@[simp] theorem State.putOutqOf_ckpts (s : State) (k : Nat) (v : List OutPkt) : (s.putOutqOf k v).ckpts = s.ckpts := rfl
@[simp] theorem State.putOutqOf_pair (s : State) (k : Nat) (v : List OutPkt) : (s.putOutqOf k v).pair = s.pair := rfl
@[simp] theorem State.putOutqOf_agent (s : State) (k : Nat) (v : List OutPkt) : (s.putOutqOf k v).agent = s.agent := rfl
@[simp] theorem State.putOutqOf_power (s : State) (k : Nat) (v : List OutPkt) : (s.putOutqOf k v).power = s.power := rfl
@[simp] theorem State.putOutqOf_phys (s : State) (k : Nat) (v : List OutPkt) : (s.putOutqOf k v).phys = s.phys := rfl
@[simp] theorem State.putOutqOf_cnt (s : State) (k : Nat) (v : List OutPkt) : (s.putOutqOf k v).cnt = s.cnt := rfl
@[simp] theorem State.putOutqOf_mainSince (s : State) (k : Nat) (v : List OutPkt) : (s.putOutqOf k v).mainSince = s.mainSince := rfl
@[simp] theorem State.putOutqOf_cntHeld (s : State) (k : Nat) (v : List OutPkt) : (s.putOutqOf k v).cntHeld = s.cntHeld := rfl
@[simp] theorem State.putOutqOf_always (s : State) (k : Nat) (v : List OutPkt) : (s.putOutqOf k v).always = s.always := rfl
@[simp] theorem State.putOutqOf_linkCnt (s : State) (k : Nat) (v : List OutPkt) : (s.putOutqOf k v).linkCnt = s.linkCnt := rfl
@[simp] theorem State.putOutqOf_ssSeq (s : State) (k : Nat) (v : List OutPkt) : (s.putOutqOf k v).ssSeq = s.ssSeq := rfl
@[simp] theorem State.putOutqOf_ssBusy (s : State) (k : Nat) (v : List OutPkt) : (s.putOutqOf k v).ssBusy = s.ssBusy := rfl
@[simp] theorem State.putOutqOf_ssSkippedBefore (s : State) (k : Nat) (v : List OutPkt) : (s.putOutqOf k v).ssSkippedBefore = s.ssSkippedBefore := rfl
@[simp] theorem State.putOutqOf_ssRecord (s : State) (k : Nat) (v : List OutPkt) : (s.putOutqOf k v).ssRecord = s.ssRecord := rfl
@[simp] theorem State.putOutqOf_ssPending (s : State) (k : Nat) (v : List OutPkt) : (s.putOutqOf k v).ssPending = s.ssPending := rfl
@[simp] theorem State.putOutqOf_mismatchHours (s : State) (k : Nat) (v : List OutPkt) : (s.putOutqOf k v).mismatchHours = s.mismatchHours := rfl

/-! ## The entry of `vcbuf` -/

@[simp] theorem State.putVcb_pending (s : State) (k : Nat) (v : VcBuf) : (s.putVcb k v).pending = s.pending := rfl
@[simp] theorem State.putVcb_now (s : State) (k : Nat) (v : VcBuf) : (s.putVcb k v).now = s.now := rfl
@[simp] theorem State.putVcb_tick (s : State) (k : Nat) (v : VcBuf) : (s.putVcb k v).tick = s.tick := rfl
@[simp] theorem State.putVcb_fresh (s : State) (k : Nat) (v : VcBuf) : (s.putVcb k v).fresh = s.fresh := rfl
@[simp] theorem State.putVcb_out (s : State) (k : Nat) (v : VcBuf) : (s.putVcb k v).out = s.out := rfl
@[simp] theorem State.putVcb_carried (s : State) (k : Nat) (v : VcBuf) : (s.putVcb k v).carried = s.carried := rfl
@[simp] theorem State.putVcb_regs (s : State) (k : Nat) (v : VcBuf) : (s.putVcb k v).regs = s.regs := rfl
@[simp] theorem State.putVcb_plane (s : State) (k : Nat) (v : VcBuf) : (s.putVcb k v).plane = s.plane := rfl
@[simp] theorem State.putVcb_tray (s : State) (k : Nat) (v : VcBuf) : (s.putVcb k v).tray = s.tray := rfl
@[simp] theorem State.putVcb_plan (s : State) (k : Nat) (v : VcBuf) : (s.putVcb k v).plan = s.plan := rfl
@[simp] theorem State.putVcb_planLive (s : State) (k : Nat) (v : VcBuf) : (s.putVcb k v).planLive = s.planLive := rfl
@[simp] theorem State.putVcb_planHash (s : State) (k : Nat) (v : VcBuf) : (s.putVcb k v).planHash = s.planHash := rfl
@[simp] theorem State.putVcb_ports (s : State) (k : Nat) (v : VcBuf) : (s.putVcb k v).ports = s.ports := rfl
@[simp] theorem State.putVcb_lanes (s : State) (k : Nat) (v : VcBuf) : (s.putVcb k v).lanes = s.lanes := rfl
@[simp] theorem State.putVcb_tx (s : State) (k : Nat) (v : VcBuf) : (s.putVcb k v).tx = s.tx := rfl
@[simp] theorem State.putVcb_lines (s : State) (k : Nat) (v : VcBuf) : (s.putVcb k v).lines = s.lines := rfl
@[simp] theorem State.putVcb_rx (s : State) (k : Nat) (v : VcBuf) : (s.putVcb k v).rx = s.rx := rfl
@[simp] theorem State.putVcb_inq (s : State) (k : Nat) (v : VcBuf) : (s.putVcb k v).inq = s.inq := rfl
@[simp] theorem State.putVcb_outq (s : State) (k : Nat) (v : VcBuf) : (s.putVcb k v).outq = s.outq := rfl
@[simp] theorem State.putVcb_qcharge (s : State) (k : Nat) (v : VcBuf) : (s.putVcb k v).qcharge = s.qcharge := rfl
@[simp] theorem State.putVcb_shared (s : State) (k : Nat) (v : VcBuf) : (s.putVcb k v).shared = s.shared := rfl
@[simp] theorem State.putVcb_arb (s : State) (k : Nat) (v : VcBuf) : (s.putVcb k v).arb = s.arb := rfl
@[simp] theorem State.putVcb_tables (s : State) (k : Nat) (v : VcBuf) : (s.putVcb k v).tables = s.tables := rfl
@[simp] theorem State.putVcb_shadow (s : State) (k : Nat) (v : VcBuf) : (s.putVcb k v).shadow = s.shadow := rfl
@[simp] theorem State.putVcb_escVia (s : State) (k : Nat) (v : VcBuf) : (s.putVcb k v).escVia = s.escVia := rfl
@[simp] theorem State.putVcb_lfsr (s : State) (k : Nat) (v : VcBuf) : (s.putVcb k v).lfsr = s.lfsr := rfl
@[simp] theorem State.putVcb_inFlows (s : State) (k : Nat) (v : VcBuf) : (s.putVcb k v).inFlows = s.inFlows := rfl
@[simp] theorem State.putVcb_egFlows (s : State) (k : Nat) (v : VcBuf) : (s.putVcb k v).egFlows = s.egFlows := rfl
@[simp] theorem State.putVcb_buckets (s : State) (k : Nat) (v : VcBuf) : (s.putVcb k v).buckets = s.buckets := rfl
@[simp] theorem State.putVcb_local_ (s : State) (k : Nat) (v : VcBuf) : (s.putVcb k v).local_ = s.local_ := rfl
@[simp] theorem State.putVcb_cellWait (s : State) (k : Nat) (v : VcBuf) : (s.putVcb k v).cellWait = s.cellWait := rfl
@[simp] theorem State.putVcb_notices (s : State) (k : Nat) (v : VcBuf) : (s.putVcb k v).notices = s.notices := rfl
@[simp] theorem State.putVcb_heldPkts (s : State) (k : Nat) (v : VcBuf) : (s.putVcb k v).heldPkts = s.heldPkts := rfl
@[simp] theorem State.putVcb_unitEvents (s : State) (k : Nat) (v : VcBuf) : (s.putVcb k v).unitEvents = s.unitEvents := rfl
@[simp] theorem State.putVcb_nextCast (s : State) (k : Nat) (v : VcBuf) : (s.putVcb k v).nextCast = s.nextCast := rfl
@[simp] theorem State.putVcb_bindCount (s : State) (k : Nat) (v : VcBuf) : (s.putVcb k v).bindCount = s.bindCount := rfl
@[simp] theorem State.putVcb_instCount (s : State) (k : Nat) (v : VcBuf) : (s.putVcb k v).instCount = s.instCount := rfl
@[simp] theorem State.putVcb_topDown (s : State) (k : Nat) (v : VcBuf) : (s.putVcb k v).topDown = s.topDown := rfl
@[simp] theorem State.putVcb_waitCmds (s : State) (k : Nat) (v : VcBuf) : (s.putVcb k v).waitCmds = s.waitCmds := rfl
@[simp] theorem State.putVcb_restarting (s : State) (k : Nat) (v : VcBuf) : (s.putVcb k v).restarting = s.restarting := rfl
@[simp] theorem State.putVcb_verifySlices (s : State) (k : Nat) (v : VcBuf) : (s.putVcb k v).verifySlices = s.verifySlices := rfl
@[simp] theorem State.putVcb_groups (s : State) (k : Nat) (v : VcBuf) : (s.putVcb k v).groups = s.groups := rfl
@[simp] theorem State.putVcb_slots (s : State) (k : Nat) (v : VcBuf) : (s.putVcb k v).slots = s.slots := rfl
@[simp] theorem State.putVcb_bindWaits (s : State) (k : Nat) (v : VcBuf) : (s.putVcb k v).bindWaits = s.bindWaits := rfl
@[simp] theorem State.putVcb_insts (s : State) (k : Nat) (v : VcBuf) : (s.putVcb k v).insts = s.insts := rfl
@[simp] theorem State.putVcb_banks (s : State) (k : Nat) (v : VcBuf) : (s.putVcb k v).banks = s.banks := rfl
@[simp] theorem State.putVcb_retired (s : State) (k : Nat) (v : VcBuf) : (s.putVcb k v).retired = s.retired := rfl
@[simp] theorem State.putVcb_spares (s : State) (k : Nat) (v : VcBuf) : (s.putVcb k v).spares = s.spares := rfl
@[simp] theorem State.putVcb_symTimes (s : State) (k : Nat) (v : VcBuf) : (s.putVcb k v).symTimes = s.symTimes := rfl
@[simp] theorem State.putVcb_ueWords (s : State) (k : Nat) (v : VcBuf) : (s.putVcb k v).ueWords = s.ueWords := rfl
@[simp] theorem State.putVcb_retireAsk (s : State) (k : Nat) (v : VcBuf) : (s.putVcb k v).retireAsk = s.retireAsk := rfl
@[simp] theorem State.putVcb_recarve (s : State) (k : Nat) (v : VcBuf) : (s.putVcb k v).recarve = s.recarve := rfl
@[simp] theorem State.putVcb_outOfService (s : State) (k : Nat) (v : VcBuf) : (s.putVcb k v).outOfService = s.outOfService := rfl
@[simp] theorem State.putVcb_cdcOut (s : State) (k : Nat) (v : VcBuf) : (s.putVcb k v).cdcOut = s.cdcOut := rfl
@[simp] theorem State.putVcb_dmaCount (s : State) (k : Nat) (v : VcBuf) : (s.putVcb k v).dmaCount = s.dmaCount := rfl
@[simp] theorem State.putVcb_ctxs (s : State) (k : Nat) (v : VcBuf) : (s.putVcb k v).ctxs = s.ctxs := rfl
@[simp] theorem State.putVcb_coreFenced (s : State) (k : Nat) (v : VcBuf) : (s.putVcb k v).coreFenced = s.coreFenced := rfl
@[simp] theorem State.putVcb_rrCtx (s : State) (k : Nat) (v : VcBuf) : (s.putVcb k v).rrCtx = s.rrCtx := rfl
@[simp] theorem State.putVcb_programs (s : State) (k : Nat) (v : VcBuf) : (s.putVcb k v).programs = s.programs := rfl
@[simp] theorem State.putVcb_mem (s : State) (k : Nat) (v : VcBuf) : (s.putVcb k v).mem = s.mem := rfl
@[simp] theorem State.putVcb_memPoison (s : State) (k : Nat) (v : VcBuf) : (s.putVcb k v).memPoison = s.memPoison := rfl
@[simp] theorem State.putVcb_memReads (s : State) (k : Nat) (v : VcBuf) : (s.putVcb k v).memReads = s.memReads := rfl
@[simp] theorem State.putVcb_nextMemTag (s : State) (k : Nat) (v : VcBuf) : (s.putVcb k v).nextMemTag = s.nextMemTag := rfl
@[simp] theorem State.putVcb_ownReqs (s : State) (k : Nat) (v : VcBuf) : (s.putVcb k v).ownReqs = s.ownReqs := rfl
@[simp] theorem State.putVcb_ownRsps (s : State) (k : Nat) (v : VcBuf) : (s.putVcb k v).ownRsps = s.ownRsps := rfl
@[simp] theorem State.putVcb_scrubPos (s : State) (k : Nat) (v : VcBuf) : (s.putVcb k v).scrubPos = s.scrubPos := rfl
@[simp] theorem State.putVcb_scrubClock (s : State) (k : Nat) (v : VcBuf) : (s.putVcb k v).scrubClock = s.scrubClock := rfl
@[simp] theorem State.putVcb_scrubMark (s : State) (k : Nat) (v : VcBuf) : (s.putVcb k v).scrubMark = s.scrubMark := rfl
@[simp] theorem State.putVcb_refreshes (s : State) (k : Nat) (v : VcBuf) : (s.putVcb k v).refreshes = s.refreshes := rfl
@[simp] theorem State.putVcb_streams (s : State) (k : Nat) (v : VcBuf) : (s.putVcb k v).streams = s.streams := rfl
@[simp] theorem State.putVcb_streamShadow (s : State) (k : Nat) (v : VcBuf) : (s.putVcb k v).streamShadow = s.streamShadow := rfl
@[simp] theorem State.putVcb_runs (s : State) (k : Nat) (v : VcBuf) : (s.putVcb k v).runs = s.runs := rfl
@[simp] theorem State.putVcb_sepoch (s : State) (k : Nat) (v : VcBuf) : (s.putVcb k v).sepoch = s.sepoch := rfl
@[simp] theorem State.putVcb_streamSwitch (s : State) (k : Nat) (v : VcBuf) : (s.putVcb k v).streamSwitch = s.streamSwitch := rfl
@[simp] theorem State.putVcb_streamHeld (s : State) (k : Nat) (v : VcBuf) : (s.putVcb k v).streamHeld = s.streamHeld := rfl
@[simp] theorem State.putVcb_streamTurn (s : State) (k : Nat) (v : VcBuf) : (s.putVcb k v).streamTurn = s.streamTurn := rfl
@[simp] theorem State.putVcb_eth (s : State) (k : Nat) (v : VcBuf) : (s.putVcb k v).eth = s.eth := rfl
@[simp] theorem State.putVcb_ethAddr (s : State) (k : Nat) (v : VcBuf) : (s.putVcb k v).ethAddr = s.ethAddr := rfl
@[simp] theorem State.putVcb_dmaIdx (s : State) (k : Nat) (v : VcBuf) : (s.putVcb k v).dmaIdx = s.dmaIdx := rfl
@[simp] theorem State.putVcb_dmaRecheck (s : State) (k : Nat) (v : VcBuf) : (s.putVcb k v).dmaRecheck = s.dmaRecheck := rfl
@[simp] theorem State.putVcb_msixTable (s : State) (k : Nat) (v : VcBuf) : (s.putVcb k v).msixTable = s.msixTable := rfl
@[simp] theorem State.putVcb_pba (s : State) (k : Nat) (v : VcBuf) : (s.putVcb k v).pba = s.pba := rfl
@[simp] theorem State.putVcb_mbx (s : State) (k : Nat) (v : VcBuf) : (s.putVcb k v).mbx = s.mbx := rfl
@[simp] theorem State.putVcb_mbxImage (s : State) (k : Nat) (v : VcBuf) : (s.putVcb k v).mbxImage = s.mbxImage := rfl
@[simp] theorem State.putVcb_stored (s : State) (k : Nat) (v : VcBuf) : (s.putVcb k v).stored = s.stored := rfl
@[simp] theorem State.putVcb_hello (s : State) (k : Nat) (v : VcBuf) : (s.putVcb k v).hello = s.hello := rfl
@[simp] theorem State.putVcb_grants (s : State) (k : Nat) (v : VcBuf) : (s.putVcb k v).grants = s.grants := rfl
@[simp] theorem State.putVcb_stages (s : State) (k : Nat) (v : VcBuf) : (s.putVcb k v).stages = s.stages := rfl
@[simp] theorem State.putVcb_recvCount (s : State) (k : Nat) (v : VcBuf) : (s.putVcb k v).recvCount = s.recvCount := rfl
@[simp] theorem State.putVcb_errs (s : State) (k : Nat) (v : VcBuf) : (s.putVcb k v).errs = s.errs := rfl
@[simp] theorem State.putVcb_rseq (s : State) (k : Nat) (v : VcBuf) : (s.putVcb k v).rseq = s.rseq := rfl
@[simp] theorem State.putVcb_dice (s : State) (k : Nat) (v : VcBuf) : (s.putVcb k v).dice = s.dice := rfl
@[simp] theorem State.putVcb_ledger (s : State) (k : Nat) (v : VcBuf) : (s.putVcb k v).ledger = s.ledger := rfl
@[simp] theorem State.putVcb_trust (s : State) (k : Nat) (v : VcBuf) : (s.putVcb k v).trust = s.trust := rfl
@[simp] theorem State.putVcb_cond (s : State) (k : Nat) (v : VcBuf) : (s.putVcb k v).cond = s.cond := rfl
@[simp] theorem State.putVcb_ckpts (s : State) (k : Nat) (v : VcBuf) : (s.putVcb k v).ckpts = s.ckpts := rfl
@[simp] theorem State.putVcb_pair (s : State) (k : Nat) (v : VcBuf) : (s.putVcb k v).pair = s.pair := rfl
@[simp] theorem State.putVcb_agent (s : State) (k : Nat) (v : VcBuf) : (s.putVcb k v).agent = s.agent := rfl
@[simp] theorem State.putVcb_power (s : State) (k : Nat) (v : VcBuf) : (s.putVcb k v).power = s.power := rfl
@[simp] theorem State.putVcb_phys (s : State) (k : Nat) (v : VcBuf) : (s.putVcb k v).phys = s.phys := rfl
@[simp] theorem State.putVcb_cnt (s : State) (k : Nat) (v : VcBuf) : (s.putVcb k v).cnt = s.cnt := rfl
@[simp] theorem State.putVcb_mainSince (s : State) (k : Nat) (v : VcBuf) : (s.putVcb k v).mainSince = s.mainSince := rfl
@[simp] theorem State.putVcb_cntHeld (s : State) (k : Nat) (v : VcBuf) : (s.putVcb k v).cntHeld = s.cntHeld := rfl
@[simp] theorem State.putVcb_always (s : State) (k : Nat) (v : VcBuf) : (s.putVcb k v).always = s.always := rfl
@[simp] theorem State.putVcb_linkCnt (s : State) (k : Nat) (v : VcBuf) : (s.putVcb k v).linkCnt = s.linkCnt := rfl
@[simp] theorem State.putVcb_ssSeq (s : State) (k : Nat) (v : VcBuf) : (s.putVcb k v).ssSeq = s.ssSeq := rfl
@[simp] theorem State.putVcb_ssBusy (s : State) (k : Nat) (v : VcBuf) : (s.putVcb k v).ssBusy = s.ssBusy := rfl
@[simp] theorem State.putVcb_ssSkippedBefore (s : State) (k : Nat) (v : VcBuf) : (s.putVcb k v).ssSkippedBefore = s.ssSkippedBefore := rfl
@[simp] theorem State.putVcb_ssRecord (s : State) (k : Nat) (v : VcBuf) : (s.putVcb k v).ssRecord = s.ssRecord := rfl
@[simp] theorem State.putVcb_ssPending (s : State) (k : Nat) (v : VcBuf) : (s.putVcb k v).ssPending = s.ssPending := rfl
@[simp] theorem State.putVcb_mismatchHours (s : State) (k : Nat) (v : VcBuf) : (s.putVcb k v).mismatchHours = s.mismatchHours := rfl

/-! ## The entry of `inFlows` -/

@[simp] theorem State.putInFlow_pending (s : State) (k : Nat) (v : InFlow) : (s.putInFlow k v).pending = s.pending := rfl
@[simp] theorem State.putInFlow_now (s : State) (k : Nat) (v : InFlow) : (s.putInFlow k v).now = s.now := rfl
@[simp] theorem State.putInFlow_tick (s : State) (k : Nat) (v : InFlow) : (s.putInFlow k v).tick = s.tick := rfl
@[simp] theorem State.putInFlow_fresh (s : State) (k : Nat) (v : InFlow) : (s.putInFlow k v).fresh = s.fresh := rfl
@[simp] theorem State.putInFlow_out (s : State) (k : Nat) (v : InFlow) : (s.putInFlow k v).out = s.out := rfl
@[simp] theorem State.putInFlow_carried (s : State) (k : Nat) (v : InFlow) : (s.putInFlow k v).carried = s.carried := rfl
@[simp] theorem State.putInFlow_regs (s : State) (k : Nat) (v : InFlow) : (s.putInFlow k v).regs = s.regs := rfl
@[simp] theorem State.putInFlow_plane (s : State) (k : Nat) (v : InFlow) : (s.putInFlow k v).plane = s.plane := rfl
@[simp] theorem State.putInFlow_tray (s : State) (k : Nat) (v : InFlow) : (s.putInFlow k v).tray = s.tray := rfl
@[simp] theorem State.putInFlow_plan (s : State) (k : Nat) (v : InFlow) : (s.putInFlow k v).plan = s.plan := rfl
@[simp] theorem State.putInFlow_planLive (s : State) (k : Nat) (v : InFlow) : (s.putInFlow k v).planLive = s.planLive := rfl
@[simp] theorem State.putInFlow_planHash (s : State) (k : Nat) (v : InFlow) : (s.putInFlow k v).planHash = s.planHash := rfl
@[simp] theorem State.putInFlow_ports (s : State) (k : Nat) (v : InFlow) : (s.putInFlow k v).ports = s.ports := rfl
@[simp] theorem State.putInFlow_lanes (s : State) (k : Nat) (v : InFlow) : (s.putInFlow k v).lanes = s.lanes := rfl
@[simp] theorem State.putInFlow_tx (s : State) (k : Nat) (v : InFlow) : (s.putInFlow k v).tx = s.tx := rfl
@[simp] theorem State.putInFlow_lines (s : State) (k : Nat) (v : InFlow) : (s.putInFlow k v).lines = s.lines := rfl
@[simp] theorem State.putInFlow_rx (s : State) (k : Nat) (v : InFlow) : (s.putInFlow k v).rx = s.rx := rfl
@[simp] theorem State.putInFlow_inq (s : State) (k : Nat) (v : InFlow) : (s.putInFlow k v).inq = s.inq := rfl
@[simp] theorem State.putInFlow_outq (s : State) (k : Nat) (v : InFlow) : (s.putInFlow k v).outq = s.outq := rfl
@[simp] theorem State.putInFlow_vcbuf (s : State) (k : Nat) (v : InFlow) : (s.putInFlow k v).vcbuf = s.vcbuf := rfl
@[simp] theorem State.putInFlow_qcharge (s : State) (k : Nat) (v : InFlow) : (s.putInFlow k v).qcharge = s.qcharge := rfl
@[simp] theorem State.putInFlow_shared (s : State) (k : Nat) (v : InFlow) : (s.putInFlow k v).shared = s.shared := rfl
@[simp] theorem State.putInFlow_arb (s : State) (k : Nat) (v : InFlow) : (s.putInFlow k v).arb = s.arb := rfl
@[simp] theorem State.putInFlow_tables (s : State) (k : Nat) (v : InFlow) : (s.putInFlow k v).tables = s.tables := rfl
@[simp] theorem State.putInFlow_shadow (s : State) (k : Nat) (v : InFlow) : (s.putInFlow k v).shadow = s.shadow := rfl
@[simp] theorem State.putInFlow_escVia (s : State) (k : Nat) (v : InFlow) : (s.putInFlow k v).escVia = s.escVia := rfl
@[simp] theorem State.putInFlow_lfsr (s : State) (k : Nat) (v : InFlow) : (s.putInFlow k v).lfsr = s.lfsr := rfl
@[simp] theorem State.putInFlow_egFlows (s : State) (k : Nat) (v : InFlow) : (s.putInFlow k v).egFlows = s.egFlows := rfl
@[simp] theorem State.putInFlow_buckets (s : State) (k : Nat) (v : InFlow) : (s.putInFlow k v).buckets = s.buckets := rfl
@[simp] theorem State.putInFlow_local_ (s : State) (k : Nat) (v : InFlow) : (s.putInFlow k v).local_ = s.local_ := rfl
@[simp] theorem State.putInFlow_cellWait (s : State) (k : Nat) (v : InFlow) : (s.putInFlow k v).cellWait = s.cellWait := rfl
@[simp] theorem State.putInFlow_notices (s : State) (k : Nat) (v : InFlow) : (s.putInFlow k v).notices = s.notices := rfl
@[simp] theorem State.putInFlow_heldPkts (s : State) (k : Nat) (v : InFlow) : (s.putInFlow k v).heldPkts = s.heldPkts := rfl
@[simp] theorem State.putInFlow_unitEvents (s : State) (k : Nat) (v : InFlow) : (s.putInFlow k v).unitEvents = s.unitEvents := rfl
@[simp] theorem State.putInFlow_nextCast (s : State) (k : Nat) (v : InFlow) : (s.putInFlow k v).nextCast = s.nextCast := rfl
@[simp] theorem State.putInFlow_bindCount (s : State) (k : Nat) (v : InFlow) : (s.putInFlow k v).bindCount = s.bindCount := rfl
@[simp] theorem State.putInFlow_instCount (s : State) (k : Nat) (v : InFlow) : (s.putInFlow k v).instCount = s.instCount := rfl
@[simp] theorem State.putInFlow_topDown (s : State) (k : Nat) (v : InFlow) : (s.putInFlow k v).topDown = s.topDown := rfl
@[simp] theorem State.putInFlow_waitCmds (s : State) (k : Nat) (v : InFlow) : (s.putInFlow k v).waitCmds = s.waitCmds := rfl
@[simp] theorem State.putInFlow_restarting (s : State) (k : Nat) (v : InFlow) : (s.putInFlow k v).restarting = s.restarting := rfl
@[simp] theorem State.putInFlow_verifySlices (s : State) (k : Nat) (v : InFlow) : (s.putInFlow k v).verifySlices = s.verifySlices := rfl
@[simp] theorem State.putInFlow_groups (s : State) (k : Nat) (v : InFlow) : (s.putInFlow k v).groups = s.groups := rfl
@[simp] theorem State.putInFlow_slots (s : State) (k : Nat) (v : InFlow) : (s.putInFlow k v).slots = s.slots := rfl
@[simp] theorem State.putInFlow_bindWaits (s : State) (k : Nat) (v : InFlow) : (s.putInFlow k v).bindWaits = s.bindWaits := rfl
@[simp] theorem State.putInFlow_insts (s : State) (k : Nat) (v : InFlow) : (s.putInFlow k v).insts = s.insts := rfl
@[simp] theorem State.putInFlow_banks (s : State) (k : Nat) (v : InFlow) : (s.putInFlow k v).banks = s.banks := rfl
@[simp] theorem State.putInFlow_retired (s : State) (k : Nat) (v : InFlow) : (s.putInFlow k v).retired = s.retired := rfl
@[simp] theorem State.putInFlow_spares (s : State) (k : Nat) (v : InFlow) : (s.putInFlow k v).spares = s.spares := rfl
@[simp] theorem State.putInFlow_symTimes (s : State) (k : Nat) (v : InFlow) : (s.putInFlow k v).symTimes = s.symTimes := rfl
@[simp] theorem State.putInFlow_ueWords (s : State) (k : Nat) (v : InFlow) : (s.putInFlow k v).ueWords = s.ueWords := rfl
@[simp] theorem State.putInFlow_retireAsk (s : State) (k : Nat) (v : InFlow) : (s.putInFlow k v).retireAsk = s.retireAsk := rfl
@[simp] theorem State.putInFlow_recarve (s : State) (k : Nat) (v : InFlow) : (s.putInFlow k v).recarve = s.recarve := rfl
@[simp] theorem State.putInFlow_outOfService (s : State) (k : Nat) (v : InFlow) : (s.putInFlow k v).outOfService = s.outOfService := rfl
@[simp] theorem State.putInFlow_cdcOut (s : State) (k : Nat) (v : InFlow) : (s.putInFlow k v).cdcOut = s.cdcOut := rfl
@[simp] theorem State.putInFlow_dmaCount (s : State) (k : Nat) (v : InFlow) : (s.putInFlow k v).dmaCount = s.dmaCount := rfl
@[simp] theorem State.putInFlow_ctxs (s : State) (k : Nat) (v : InFlow) : (s.putInFlow k v).ctxs = s.ctxs := rfl
@[simp] theorem State.putInFlow_coreFenced (s : State) (k : Nat) (v : InFlow) : (s.putInFlow k v).coreFenced = s.coreFenced := rfl
@[simp] theorem State.putInFlow_rrCtx (s : State) (k : Nat) (v : InFlow) : (s.putInFlow k v).rrCtx = s.rrCtx := rfl
@[simp] theorem State.putInFlow_programs (s : State) (k : Nat) (v : InFlow) : (s.putInFlow k v).programs = s.programs := rfl
@[simp] theorem State.putInFlow_mem (s : State) (k : Nat) (v : InFlow) : (s.putInFlow k v).mem = s.mem := rfl
@[simp] theorem State.putInFlow_memPoison (s : State) (k : Nat) (v : InFlow) : (s.putInFlow k v).memPoison = s.memPoison := rfl
@[simp] theorem State.putInFlow_memReads (s : State) (k : Nat) (v : InFlow) : (s.putInFlow k v).memReads = s.memReads := rfl
@[simp] theorem State.putInFlow_nextMemTag (s : State) (k : Nat) (v : InFlow) : (s.putInFlow k v).nextMemTag = s.nextMemTag := rfl
@[simp] theorem State.putInFlow_ownReqs (s : State) (k : Nat) (v : InFlow) : (s.putInFlow k v).ownReqs = s.ownReqs := rfl
@[simp] theorem State.putInFlow_ownRsps (s : State) (k : Nat) (v : InFlow) : (s.putInFlow k v).ownRsps = s.ownRsps := rfl
@[simp] theorem State.putInFlow_scrubPos (s : State) (k : Nat) (v : InFlow) : (s.putInFlow k v).scrubPos = s.scrubPos := rfl
@[simp] theorem State.putInFlow_scrubClock (s : State) (k : Nat) (v : InFlow) : (s.putInFlow k v).scrubClock = s.scrubClock := rfl
@[simp] theorem State.putInFlow_scrubMark (s : State) (k : Nat) (v : InFlow) : (s.putInFlow k v).scrubMark = s.scrubMark := rfl
@[simp] theorem State.putInFlow_refreshes (s : State) (k : Nat) (v : InFlow) : (s.putInFlow k v).refreshes = s.refreshes := rfl
@[simp] theorem State.putInFlow_streams (s : State) (k : Nat) (v : InFlow) : (s.putInFlow k v).streams = s.streams := rfl
@[simp] theorem State.putInFlow_streamShadow (s : State) (k : Nat) (v : InFlow) : (s.putInFlow k v).streamShadow = s.streamShadow := rfl
@[simp] theorem State.putInFlow_runs (s : State) (k : Nat) (v : InFlow) : (s.putInFlow k v).runs = s.runs := rfl
@[simp] theorem State.putInFlow_sepoch (s : State) (k : Nat) (v : InFlow) : (s.putInFlow k v).sepoch = s.sepoch := rfl
@[simp] theorem State.putInFlow_streamSwitch (s : State) (k : Nat) (v : InFlow) : (s.putInFlow k v).streamSwitch = s.streamSwitch := rfl
@[simp] theorem State.putInFlow_streamHeld (s : State) (k : Nat) (v : InFlow) : (s.putInFlow k v).streamHeld = s.streamHeld := rfl
@[simp] theorem State.putInFlow_streamTurn (s : State) (k : Nat) (v : InFlow) : (s.putInFlow k v).streamTurn = s.streamTurn := rfl
@[simp] theorem State.putInFlow_eth (s : State) (k : Nat) (v : InFlow) : (s.putInFlow k v).eth = s.eth := rfl
@[simp] theorem State.putInFlow_ethAddr (s : State) (k : Nat) (v : InFlow) : (s.putInFlow k v).ethAddr = s.ethAddr := rfl
@[simp] theorem State.putInFlow_dmaIdx (s : State) (k : Nat) (v : InFlow) : (s.putInFlow k v).dmaIdx = s.dmaIdx := rfl
@[simp] theorem State.putInFlow_dmaRecheck (s : State) (k : Nat) (v : InFlow) : (s.putInFlow k v).dmaRecheck = s.dmaRecheck := rfl
@[simp] theorem State.putInFlow_msixTable (s : State) (k : Nat) (v : InFlow) : (s.putInFlow k v).msixTable = s.msixTable := rfl
@[simp] theorem State.putInFlow_pba (s : State) (k : Nat) (v : InFlow) : (s.putInFlow k v).pba = s.pba := rfl
@[simp] theorem State.putInFlow_mbx (s : State) (k : Nat) (v : InFlow) : (s.putInFlow k v).mbx = s.mbx := rfl
@[simp] theorem State.putInFlow_mbxImage (s : State) (k : Nat) (v : InFlow) : (s.putInFlow k v).mbxImage = s.mbxImage := rfl
@[simp] theorem State.putInFlow_stored (s : State) (k : Nat) (v : InFlow) : (s.putInFlow k v).stored = s.stored := rfl
@[simp] theorem State.putInFlow_hello (s : State) (k : Nat) (v : InFlow) : (s.putInFlow k v).hello = s.hello := rfl
@[simp] theorem State.putInFlow_grants (s : State) (k : Nat) (v : InFlow) : (s.putInFlow k v).grants = s.grants := rfl
@[simp] theorem State.putInFlow_stages (s : State) (k : Nat) (v : InFlow) : (s.putInFlow k v).stages = s.stages := rfl
@[simp] theorem State.putInFlow_recvCount (s : State) (k : Nat) (v : InFlow) : (s.putInFlow k v).recvCount = s.recvCount := rfl
@[simp] theorem State.putInFlow_errs (s : State) (k : Nat) (v : InFlow) : (s.putInFlow k v).errs = s.errs := rfl
@[simp] theorem State.putInFlow_rseq (s : State) (k : Nat) (v : InFlow) : (s.putInFlow k v).rseq = s.rseq := rfl
@[simp] theorem State.putInFlow_dice (s : State) (k : Nat) (v : InFlow) : (s.putInFlow k v).dice = s.dice := rfl
@[simp] theorem State.putInFlow_ledger (s : State) (k : Nat) (v : InFlow) : (s.putInFlow k v).ledger = s.ledger := rfl
@[simp] theorem State.putInFlow_trust (s : State) (k : Nat) (v : InFlow) : (s.putInFlow k v).trust = s.trust := rfl
@[simp] theorem State.putInFlow_cond (s : State) (k : Nat) (v : InFlow) : (s.putInFlow k v).cond = s.cond := rfl
@[simp] theorem State.putInFlow_ckpts (s : State) (k : Nat) (v : InFlow) : (s.putInFlow k v).ckpts = s.ckpts := rfl
@[simp] theorem State.putInFlow_pair (s : State) (k : Nat) (v : InFlow) : (s.putInFlow k v).pair = s.pair := rfl
@[simp] theorem State.putInFlow_agent (s : State) (k : Nat) (v : InFlow) : (s.putInFlow k v).agent = s.agent := rfl
@[simp] theorem State.putInFlow_power (s : State) (k : Nat) (v : InFlow) : (s.putInFlow k v).power = s.power := rfl
@[simp] theorem State.putInFlow_phys (s : State) (k : Nat) (v : InFlow) : (s.putInFlow k v).phys = s.phys := rfl
@[simp] theorem State.putInFlow_cnt (s : State) (k : Nat) (v : InFlow) : (s.putInFlow k v).cnt = s.cnt := rfl
@[simp] theorem State.putInFlow_mainSince (s : State) (k : Nat) (v : InFlow) : (s.putInFlow k v).mainSince = s.mainSince := rfl
@[simp] theorem State.putInFlow_cntHeld (s : State) (k : Nat) (v : InFlow) : (s.putInFlow k v).cntHeld = s.cntHeld := rfl
@[simp] theorem State.putInFlow_always (s : State) (k : Nat) (v : InFlow) : (s.putInFlow k v).always = s.always := rfl
@[simp] theorem State.putInFlow_linkCnt (s : State) (k : Nat) (v : InFlow) : (s.putInFlow k v).linkCnt = s.linkCnt := rfl
@[simp] theorem State.putInFlow_ssSeq (s : State) (k : Nat) (v : InFlow) : (s.putInFlow k v).ssSeq = s.ssSeq := rfl
@[simp] theorem State.putInFlow_ssBusy (s : State) (k : Nat) (v : InFlow) : (s.putInFlow k v).ssBusy = s.ssBusy := rfl
@[simp] theorem State.putInFlow_ssSkippedBefore (s : State) (k : Nat) (v : InFlow) : (s.putInFlow k v).ssSkippedBefore = s.ssSkippedBefore := rfl
@[simp] theorem State.putInFlow_ssRecord (s : State) (k : Nat) (v : InFlow) : (s.putInFlow k v).ssRecord = s.ssRecord := rfl
@[simp] theorem State.putInFlow_ssPending (s : State) (k : Nat) (v : InFlow) : (s.putInFlow k v).ssPending = s.ssPending := rfl
@[simp] theorem State.putInFlow_mismatchHours (s : State) (k : Nat) (v : InFlow) : (s.putInFlow k v).mismatchHours = s.mismatchHours := rfl

/-! ## The entry of `egFlows` -/

@[simp] theorem State.putEgFlow_pending (s : State) (k : Nat) (v : EgFlow) : (s.putEgFlow k v).pending = s.pending := rfl
@[simp] theorem State.putEgFlow_now (s : State) (k : Nat) (v : EgFlow) : (s.putEgFlow k v).now = s.now := rfl
@[simp] theorem State.putEgFlow_tick (s : State) (k : Nat) (v : EgFlow) : (s.putEgFlow k v).tick = s.tick := rfl
@[simp] theorem State.putEgFlow_fresh (s : State) (k : Nat) (v : EgFlow) : (s.putEgFlow k v).fresh = s.fresh := rfl
@[simp] theorem State.putEgFlow_out (s : State) (k : Nat) (v : EgFlow) : (s.putEgFlow k v).out = s.out := rfl
@[simp] theorem State.putEgFlow_carried (s : State) (k : Nat) (v : EgFlow) : (s.putEgFlow k v).carried = s.carried := rfl
@[simp] theorem State.putEgFlow_regs (s : State) (k : Nat) (v : EgFlow) : (s.putEgFlow k v).regs = s.regs := rfl
@[simp] theorem State.putEgFlow_plane (s : State) (k : Nat) (v : EgFlow) : (s.putEgFlow k v).plane = s.plane := rfl
@[simp] theorem State.putEgFlow_tray (s : State) (k : Nat) (v : EgFlow) : (s.putEgFlow k v).tray = s.tray := rfl
@[simp] theorem State.putEgFlow_plan (s : State) (k : Nat) (v : EgFlow) : (s.putEgFlow k v).plan = s.plan := rfl
@[simp] theorem State.putEgFlow_planLive (s : State) (k : Nat) (v : EgFlow) : (s.putEgFlow k v).planLive = s.planLive := rfl
@[simp] theorem State.putEgFlow_planHash (s : State) (k : Nat) (v : EgFlow) : (s.putEgFlow k v).planHash = s.planHash := rfl
@[simp] theorem State.putEgFlow_ports (s : State) (k : Nat) (v : EgFlow) : (s.putEgFlow k v).ports = s.ports := rfl
@[simp] theorem State.putEgFlow_lanes (s : State) (k : Nat) (v : EgFlow) : (s.putEgFlow k v).lanes = s.lanes := rfl
@[simp] theorem State.putEgFlow_tx (s : State) (k : Nat) (v : EgFlow) : (s.putEgFlow k v).tx = s.tx := rfl
@[simp] theorem State.putEgFlow_lines (s : State) (k : Nat) (v : EgFlow) : (s.putEgFlow k v).lines = s.lines := rfl
@[simp] theorem State.putEgFlow_rx (s : State) (k : Nat) (v : EgFlow) : (s.putEgFlow k v).rx = s.rx := rfl
@[simp] theorem State.putEgFlow_inq (s : State) (k : Nat) (v : EgFlow) : (s.putEgFlow k v).inq = s.inq := rfl
@[simp] theorem State.putEgFlow_outq (s : State) (k : Nat) (v : EgFlow) : (s.putEgFlow k v).outq = s.outq := rfl
@[simp] theorem State.putEgFlow_vcbuf (s : State) (k : Nat) (v : EgFlow) : (s.putEgFlow k v).vcbuf = s.vcbuf := rfl
@[simp] theorem State.putEgFlow_qcharge (s : State) (k : Nat) (v : EgFlow) : (s.putEgFlow k v).qcharge = s.qcharge := rfl
@[simp] theorem State.putEgFlow_shared (s : State) (k : Nat) (v : EgFlow) : (s.putEgFlow k v).shared = s.shared := rfl
@[simp] theorem State.putEgFlow_arb (s : State) (k : Nat) (v : EgFlow) : (s.putEgFlow k v).arb = s.arb := rfl
@[simp] theorem State.putEgFlow_tables (s : State) (k : Nat) (v : EgFlow) : (s.putEgFlow k v).tables = s.tables := rfl
@[simp] theorem State.putEgFlow_shadow (s : State) (k : Nat) (v : EgFlow) : (s.putEgFlow k v).shadow = s.shadow := rfl
@[simp] theorem State.putEgFlow_escVia (s : State) (k : Nat) (v : EgFlow) : (s.putEgFlow k v).escVia = s.escVia := rfl
@[simp] theorem State.putEgFlow_lfsr (s : State) (k : Nat) (v : EgFlow) : (s.putEgFlow k v).lfsr = s.lfsr := rfl
@[simp] theorem State.putEgFlow_inFlows (s : State) (k : Nat) (v : EgFlow) : (s.putEgFlow k v).inFlows = s.inFlows := rfl
@[simp] theorem State.putEgFlow_buckets (s : State) (k : Nat) (v : EgFlow) : (s.putEgFlow k v).buckets = s.buckets := rfl
@[simp] theorem State.putEgFlow_local_ (s : State) (k : Nat) (v : EgFlow) : (s.putEgFlow k v).local_ = s.local_ := rfl
@[simp] theorem State.putEgFlow_cellWait (s : State) (k : Nat) (v : EgFlow) : (s.putEgFlow k v).cellWait = s.cellWait := rfl
@[simp] theorem State.putEgFlow_notices (s : State) (k : Nat) (v : EgFlow) : (s.putEgFlow k v).notices = s.notices := rfl
@[simp] theorem State.putEgFlow_heldPkts (s : State) (k : Nat) (v : EgFlow) : (s.putEgFlow k v).heldPkts = s.heldPkts := rfl
@[simp] theorem State.putEgFlow_unitEvents (s : State) (k : Nat) (v : EgFlow) : (s.putEgFlow k v).unitEvents = s.unitEvents := rfl
@[simp] theorem State.putEgFlow_nextCast (s : State) (k : Nat) (v : EgFlow) : (s.putEgFlow k v).nextCast = s.nextCast := rfl
@[simp] theorem State.putEgFlow_bindCount (s : State) (k : Nat) (v : EgFlow) : (s.putEgFlow k v).bindCount = s.bindCount := rfl
@[simp] theorem State.putEgFlow_instCount (s : State) (k : Nat) (v : EgFlow) : (s.putEgFlow k v).instCount = s.instCount := rfl
@[simp] theorem State.putEgFlow_topDown (s : State) (k : Nat) (v : EgFlow) : (s.putEgFlow k v).topDown = s.topDown := rfl
@[simp] theorem State.putEgFlow_waitCmds (s : State) (k : Nat) (v : EgFlow) : (s.putEgFlow k v).waitCmds = s.waitCmds := rfl
@[simp] theorem State.putEgFlow_restarting (s : State) (k : Nat) (v : EgFlow) : (s.putEgFlow k v).restarting = s.restarting := rfl
@[simp] theorem State.putEgFlow_verifySlices (s : State) (k : Nat) (v : EgFlow) : (s.putEgFlow k v).verifySlices = s.verifySlices := rfl
@[simp] theorem State.putEgFlow_groups (s : State) (k : Nat) (v : EgFlow) : (s.putEgFlow k v).groups = s.groups := rfl
@[simp] theorem State.putEgFlow_slots (s : State) (k : Nat) (v : EgFlow) : (s.putEgFlow k v).slots = s.slots := rfl
@[simp] theorem State.putEgFlow_bindWaits (s : State) (k : Nat) (v : EgFlow) : (s.putEgFlow k v).bindWaits = s.bindWaits := rfl
@[simp] theorem State.putEgFlow_insts (s : State) (k : Nat) (v : EgFlow) : (s.putEgFlow k v).insts = s.insts := rfl
@[simp] theorem State.putEgFlow_banks (s : State) (k : Nat) (v : EgFlow) : (s.putEgFlow k v).banks = s.banks := rfl
@[simp] theorem State.putEgFlow_retired (s : State) (k : Nat) (v : EgFlow) : (s.putEgFlow k v).retired = s.retired := rfl
@[simp] theorem State.putEgFlow_spares (s : State) (k : Nat) (v : EgFlow) : (s.putEgFlow k v).spares = s.spares := rfl
@[simp] theorem State.putEgFlow_symTimes (s : State) (k : Nat) (v : EgFlow) : (s.putEgFlow k v).symTimes = s.symTimes := rfl
@[simp] theorem State.putEgFlow_ueWords (s : State) (k : Nat) (v : EgFlow) : (s.putEgFlow k v).ueWords = s.ueWords := rfl
@[simp] theorem State.putEgFlow_retireAsk (s : State) (k : Nat) (v : EgFlow) : (s.putEgFlow k v).retireAsk = s.retireAsk := rfl
@[simp] theorem State.putEgFlow_recarve (s : State) (k : Nat) (v : EgFlow) : (s.putEgFlow k v).recarve = s.recarve := rfl
@[simp] theorem State.putEgFlow_outOfService (s : State) (k : Nat) (v : EgFlow) : (s.putEgFlow k v).outOfService = s.outOfService := rfl
@[simp] theorem State.putEgFlow_cdcOut (s : State) (k : Nat) (v : EgFlow) : (s.putEgFlow k v).cdcOut = s.cdcOut := rfl
@[simp] theorem State.putEgFlow_dmaCount (s : State) (k : Nat) (v : EgFlow) : (s.putEgFlow k v).dmaCount = s.dmaCount := rfl
@[simp] theorem State.putEgFlow_ctxs (s : State) (k : Nat) (v : EgFlow) : (s.putEgFlow k v).ctxs = s.ctxs := rfl
@[simp] theorem State.putEgFlow_coreFenced (s : State) (k : Nat) (v : EgFlow) : (s.putEgFlow k v).coreFenced = s.coreFenced := rfl
@[simp] theorem State.putEgFlow_rrCtx (s : State) (k : Nat) (v : EgFlow) : (s.putEgFlow k v).rrCtx = s.rrCtx := rfl
@[simp] theorem State.putEgFlow_programs (s : State) (k : Nat) (v : EgFlow) : (s.putEgFlow k v).programs = s.programs := rfl
@[simp] theorem State.putEgFlow_mem (s : State) (k : Nat) (v : EgFlow) : (s.putEgFlow k v).mem = s.mem := rfl
@[simp] theorem State.putEgFlow_memPoison (s : State) (k : Nat) (v : EgFlow) : (s.putEgFlow k v).memPoison = s.memPoison := rfl
@[simp] theorem State.putEgFlow_memReads (s : State) (k : Nat) (v : EgFlow) : (s.putEgFlow k v).memReads = s.memReads := rfl
@[simp] theorem State.putEgFlow_nextMemTag (s : State) (k : Nat) (v : EgFlow) : (s.putEgFlow k v).nextMemTag = s.nextMemTag := rfl
@[simp] theorem State.putEgFlow_ownReqs (s : State) (k : Nat) (v : EgFlow) : (s.putEgFlow k v).ownReqs = s.ownReqs := rfl
@[simp] theorem State.putEgFlow_ownRsps (s : State) (k : Nat) (v : EgFlow) : (s.putEgFlow k v).ownRsps = s.ownRsps := rfl
@[simp] theorem State.putEgFlow_scrubPos (s : State) (k : Nat) (v : EgFlow) : (s.putEgFlow k v).scrubPos = s.scrubPos := rfl
@[simp] theorem State.putEgFlow_scrubClock (s : State) (k : Nat) (v : EgFlow) : (s.putEgFlow k v).scrubClock = s.scrubClock := rfl
@[simp] theorem State.putEgFlow_scrubMark (s : State) (k : Nat) (v : EgFlow) : (s.putEgFlow k v).scrubMark = s.scrubMark := rfl
@[simp] theorem State.putEgFlow_refreshes (s : State) (k : Nat) (v : EgFlow) : (s.putEgFlow k v).refreshes = s.refreshes := rfl
@[simp] theorem State.putEgFlow_streams (s : State) (k : Nat) (v : EgFlow) : (s.putEgFlow k v).streams = s.streams := rfl
@[simp] theorem State.putEgFlow_streamShadow (s : State) (k : Nat) (v : EgFlow) : (s.putEgFlow k v).streamShadow = s.streamShadow := rfl
@[simp] theorem State.putEgFlow_runs (s : State) (k : Nat) (v : EgFlow) : (s.putEgFlow k v).runs = s.runs := rfl
@[simp] theorem State.putEgFlow_sepoch (s : State) (k : Nat) (v : EgFlow) : (s.putEgFlow k v).sepoch = s.sepoch := rfl
@[simp] theorem State.putEgFlow_streamSwitch (s : State) (k : Nat) (v : EgFlow) : (s.putEgFlow k v).streamSwitch = s.streamSwitch := rfl
@[simp] theorem State.putEgFlow_streamHeld (s : State) (k : Nat) (v : EgFlow) : (s.putEgFlow k v).streamHeld = s.streamHeld := rfl
@[simp] theorem State.putEgFlow_streamTurn (s : State) (k : Nat) (v : EgFlow) : (s.putEgFlow k v).streamTurn = s.streamTurn := rfl
@[simp] theorem State.putEgFlow_eth (s : State) (k : Nat) (v : EgFlow) : (s.putEgFlow k v).eth = s.eth := rfl
@[simp] theorem State.putEgFlow_ethAddr (s : State) (k : Nat) (v : EgFlow) : (s.putEgFlow k v).ethAddr = s.ethAddr := rfl
@[simp] theorem State.putEgFlow_dmaIdx (s : State) (k : Nat) (v : EgFlow) : (s.putEgFlow k v).dmaIdx = s.dmaIdx := rfl
@[simp] theorem State.putEgFlow_dmaRecheck (s : State) (k : Nat) (v : EgFlow) : (s.putEgFlow k v).dmaRecheck = s.dmaRecheck := rfl
@[simp] theorem State.putEgFlow_msixTable (s : State) (k : Nat) (v : EgFlow) : (s.putEgFlow k v).msixTable = s.msixTable := rfl
@[simp] theorem State.putEgFlow_pba (s : State) (k : Nat) (v : EgFlow) : (s.putEgFlow k v).pba = s.pba := rfl
@[simp] theorem State.putEgFlow_mbx (s : State) (k : Nat) (v : EgFlow) : (s.putEgFlow k v).mbx = s.mbx := rfl
@[simp] theorem State.putEgFlow_mbxImage (s : State) (k : Nat) (v : EgFlow) : (s.putEgFlow k v).mbxImage = s.mbxImage := rfl
@[simp] theorem State.putEgFlow_stored (s : State) (k : Nat) (v : EgFlow) : (s.putEgFlow k v).stored = s.stored := rfl
@[simp] theorem State.putEgFlow_hello (s : State) (k : Nat) (v : EgFlow) : (s.putEgFlow k v).hello = s.hello := rfl
@[simp] theorem State.putEgFlow_grants (s : State) (k : Nat) (v : EgFlow) : (s.putEgFlow k v).grants = s.grants := rfl
@[simp] theorem State.putEgFlow_stages (s : State) (k : Nat) (v : EgFlow) : (s.putEgFlow k v).stages = s.stages := rfl
@[simp] theorem State.putEgFlow_recvCount (s : State) (k : Nat) (v : EgFlow) : (s.putEgFlow k v).recvCount = s.recvCount := rfl
@[simp] theorem State.putEgFlow_errs (s : State) (k : Nat) (v : EgFlow) : (s.putEgFlow k v).errs = s.errs := rfl
@[simp] theorem State.putEgFlow_rseq (s : State) (k : Nat) (v : EgFlow) : (s.putEgFlow k v).rseq = s.rseq := rfl
@[simp] theorem State.putEgFlow_dice (s : State) (k : Nat) (v : EgFlow) : (s.putEgFlow k v).dice = s.dice := rfl
@[simp] theorem State.putEgFlow_ledger (s : State) (k : Nat) (v : EgFlow) : (s.putEgFlow k v).ledger = s.ledger := rfl
@[simp] theorem State.putEgFlow_trust (s : State) (k : Nat) (v : EgFlow) : (s.putEgFlow k v).trust = s.trust := rfl
@[simp] theorem State.putEgFlow_cond (s : State) (k : Nat) (v : EgFlow) : (s.putEgFlow k v).cond = s.cond := rfl
@[simp] theorem State.putEgFlow_ckpts (s : State) (k : Nat) (v : EgFlow) : (s.putEgFlow k v).ckpts = s.ckpts := rfl
@[simp] theorem State.putEgFlow_pair (s : State) (k : Nat) (v : EgFlow) : (s.putEgFlow k v).pair = s.pair := rfl
@[simp] theorem State.putEgFlow_agent (s : State) (k : Nat) (v : EgFlow) : (s.putEgFlow k v).agent = s.agent := rfl
@[simp] theorem State.putEgFlow_power (s : State) (k : Nat) (v : EgFlow) : (s.putEgFlow k v).power = s.power := rfl
@[simp] theorem State.putEgFlow_phys (s : State) (k : Nat) (v : EgFlow) : (s.putEgFlow k v).phys = s.phys := rfl
@[simp] theorem State.putEgFlow_cnt (s : State) (k : Nat) (v : EgFlow) : (s.putEgFlow k v).cnt = s.cnt := rfl
@[simp] theorem State.putEgFlow_mainSince (s : State) (k : Nat) (v : EgFlow) : (s.putEgFlow k v).mainSince = s.mainSince := rfl
@[simp] theorem State.putEgFlow_cntHeld (s : State) (k : Nat) (v : EgFlow) : (s.putEgFlow k v).cntHeld = s.cntHeld := rfl
@[simp] theorem State.putEgFlow_always (s : State) (k : Nat) (v : EgFlow) : (s.putEgFlow k v).always = s.always := rfl
@[simp] theorem State.putEgFlow_linkCnt (s : State) (k : Nat) (v : EgFlow) : (s.putEgFlow k v).linkCnt = s.linkCnt := rfl
@[simp] theorem State.putEgFlow_ssSeq (s : State) (k : Nat) (v : EgFlow) : (s.putEgFlow k v).ssSeq = s.ssSeq := rfl
@[simp] theorem State.putEgFlow_ssBusy (s : State) (k : Nat) (v : EgFlow) : (s.putEgFlow k v).ssBusy = s.ssBusy := rfl
@[simp] theorem State.putEgFlow_ssSkippedBefore (s : State) (k : Nat) (v : EgFlow) : (s.putEgFlow k v).ssSkippedBefore = s.ssSkippedBefore := rfl
@[simp] theorem State.putEgFlow_ssRecord (s : State) (k : Nat) (v : EgFlow) : (s.putEgFlow k v).ssRecord = s.ssRecord := rfl
@[simp] theorem State.putEgFlow_ssPending (s : State) (k : Nat) (v : EgFlow) : (s.putEgFlow k v).ssPending = s.ssPending := rfl
@[simp] theorem State.putEgFlow_mismatchHours (s : State) (k : Nat) (v : EgFlow) : (s.putEgFlow k v).mismatchHours = s.mismatchHours := rfl

/-! ## The entry of `buckets` -/

@[simp] theorem State.putBucket_pending (s : State) (k : Nat) (v : Buckets) : (s.putBucket k v).pending = s.pending := rfl
@[simp] theorem State.putBucket_now (s : State) (k : Nat) (v : Buckets) : (s.putBucket k v).now = s.now := rfl
@[simp] theorem State.putBucket_tick (s : State) (k : Nat) (v : Buckets) : (s.putBucket k v).tick = s.tick := rfl
@[simp] theorem State.putBucket_fresh (s : State) (k : Nat) (v : Buckets) : (s.putBucket k v).fresh = s.fresh := rfl
@[simp] theorem State.putBucket_out (s : State) (k : Nat) (v : Buckets) : (s.putBucket k v).out = s.out := rfl
@[simp] theorem State.putBucket_carried (s : State) (k : Nat) (v : Buckets) : (s.putBucket k v).carried = s.carried := rfl
@[simp] theorem State.putBucket_regs (s : State) (k : Nat) (v : Buckets) : (s.putBucket k v).regs = s.regs := rfl
@[simp] theorem State.putBucket_plane (s : State) (k : Nat) (v : Buckets) : (s.putBucket k v).plane = s.plane := rfl
@[simp] theorem State.putBucket_tray (s : State) (k : Nat) (v : Buckets) : (s.putBucket k v).tray = s.tray := rfl
@[simp] theorem State.putBucket_plan (s : State) (k : Nat) (v : Buckets) : (s.putBucket k v).plan = s.plan := rfl
@[simp] theorem State.putBucket_planLive (s : State) (k : Nat) (v : Buckets) : (s.putBucket k v).planLive = s.planLive := rfl
@[simp] theorem State.putBucket_planHash (s : State) (k : Nat) (v : Buckets) : (s.putBucket k v).planHash = s.planHash := rfl
@[simp] theorem State.putBucket_ports (s : State) (k : Nat) (v : Buckets) : (s.putBucket k v).ports = s.ports := rfl
@[simp] theorem State.putBucket_lanes (s : State) (k : Nat) (v : Buckets) : (s.putBucket k v).lanes = s.lanes := rfl
@[simp] theorem State.putBucket_tx (s : State) (k : Nat) (v : Buckets) : (s.putBucket k v).tx = s.tx := rfl
@[simp] theorem State.putBucket_lines (s : State) (k : Nat) (v : Buckets) : (s.putBucket k v).lines = s.lines := rfl
@[simp] theorem State.putBucket_rx (s : State) (k : Nat) (v : Buckets) : (s.putBucket k v).rx = s.rx := rfl
@[simp] theorem State.putBucket_inq (s : State) (k : Nat) (v : Buckets) : (s.putBucket k v).inq = s.inq := rfl
@[simp] theorem State.putBucket_outq (s : State) (k : Nat) (v : Buckets) : (s.putBucket k v).outq = s.outq := rfl
@[simp] theorem State.putBucket_vcbuf (s : State) (k : Nat) (v : Buckets) : (s.putBucket k v).vcbuf = s.vcbuf := rfl
@[simp] theorem State.putBucket_qcharge (s : State) (k : Nat) (v : Buckets) : (s.putBucket k v).qcharge = s.qcharge := rfl
@[simp] theorem State.putBucket_shared (s : State) (k : Nat) (v : Buckets) : (s.putBucket k v).shared = s.shared := rfl
@[simp] theorem State.putBucket_arb (s : State) (k : Nat) (v : Buckets) : (s.putBucket k v).arb = s.arb := rfl
@[simp] theorem State.putBucket_tables (s : State) (k : Nat) (v : Buckets) : (s.putBucket k v).tables = s.tables := rfl
@[simp] theorem State.putBucket_shadow (s : State) (k : Nat) (v : Buckets) : (s.putBucket k v).shadow = s.shadow := rfl
@[simp] theorem State.putBucket_escVia (s : State) (k : Nat) (v : Buckets) : (s.putBucket k v).escVia = s.escVia := rfl
@[simp] theorem State.putBucket_lfsr (s : State) (k : Nat) (v : Buckets) : (s.putBucket k v).lfsr = s.lfsr := rfl
@[simp] theorem State.putBucket_inFlows (s : State) (k : Nat) (v : Buckets) : (s.putBucket k v).inFlows = s.inFlows := rfl
@[simp] theorem State.putBucket_egFlows (s : State) (k : Nat) (v : Buckets) : (s.putBucket k v).egFlows = s.egFlows := rfl
@[simp] theorem State.putBucket_local_ (s : State) (k : Nat) (v : Buckets) : (s.putBucket k v).local_ = s.local_ := rfl
@[simp] theorem State.putBucket_cellWait (s : State) (k : Nat) (v : Buckets) : (s.putBucket k v).cellWait = s.cellWait := rfl
@[simp] theorem State.putBucket_notices (s : State) (k : Nat) (v : Buckets) : (s.putBucket k v).notices = s.notices := rfl
@[simp] theorem State.putBucket_heldPkts (s : State) (k : Nat) (v : Buckets) : (s.putBucket k v).heldPkts = s.heldPkts := rfl
@[simp] theorem State.putBucket_unitEvents (s : State) (k : Nat) (v : Buckets) : (s.putBucket k v).unitEvents = s.unitEvents := rfl
@[simp] theorem State.putBucket_nextCast (s : State) (k : Nat) (v : Buckets) : (s.putBucket k v).nextCast = s.nextCast := rfl
@[simp] theorem State.putBucket_bindCount (s : State) (k : Nat) (v : Buckets) : (s.putBucket k v).bindCount = s.bindCount := rfl
@[simp] theorem State.putBucket_instCount (s : State) (k : Nat) (v : Buckets) : (s.putBucket k v).instCount = s.instCount := rfl
@[simp] theorem State.putBucket_topDown (s : State) (k : Nat) (v : Buckets) : (s.putBucket k v).topDown = s.topDown := rfl
@[simp] theorem State.putBucket_waitCmds (s : State) (k : Nat) (v : Buckets) : (s.putBucket k v).waitCmds = s.waitCmds := rfl
@[simp] theorem State.putBucket_restarting (s : State) (k : Nat) (v : Buckets) : (s.putBucket k v).restarting = s.restarting := rfl
@[simp] theorem State.putBucket_verifySlices (s : State) (k : Nat) (v : Buckets) : (s.putBucket k v).verifySlices = s.verifySlices := rfl
@[simp] theorem State.putBucket_groups (s : State) (k : Nat) (v : Buckets) : (s.putBucket k v).groups = s.groups := rfl
@[simp] theorem State.putBucket_slots (s : State) (k : Nat) (v : Buckets) : (s.putBucket k v).slots = s.slots := rfl
@[simp] theorem State.putBucket_bindWaits (s : State) (k : Nat) (v : Buckets) : (s.putBucket k v).bindWaits = s.bindWaits := rfl
@[simp] theorem State.putBucket_insts (s : State) (k : Nat) (v : Buckets) : (s.putBucket k v).insts = s.insts := rfl
@[simp] theorem State.putBucket_banks (s : State) (k : Nat) (v : Buckets) : (s.putBucket k v).banks = s.banks := rfl
@[simp] theorem State.putBucket_retired (s : State) (k : Nat) (v : Buckets) : (s.putBucket k v).retired = s.retired := rfl
@[simp] theorem State.putBucket_spares (s : State) (k : Nat) (v : Buckets) : (s.putBucket k v).spares = s.spares := rfl
@[simp] theorem State.putBucket_symTimes (s : State) (k : Nat) (v : Buckets) : (s.putBucket k v).symTimes = s.symTimes := rfl
@[simp] theorem State.putBucket_ueWords (s : State) (k : Nat) (v : Buckets) : (s.putBucket k v).ueWords = s.ueWords := rfl
@[simp] theorem State.putBucket_retireAsk (s : State) (k : Nat) (v : Buckets) : (s.putBucket k v).retireAsk = s.retireAsk := rfl
@[simp] theorem State.putBucket_recarve (s : State) (k : Nat) (v : Buckets) : (s.putBucket k v).recarve = s.recarve := rfl
@[simp] theorem State.putBucket_outOfService (s : State) (k : Nat) (v : Buckets) : (s.putBucket k v).outOfService = s.outOfService := rfl
@[simp] theorem State.putBucket_cdcOut (s : State) (k : Nat) (v : Buckets) : (s.putBucket k v).cdcOut = s.cdcOut := rfl
@[simp] theorem State.putBucket_dmaCount (s : State) (k : Nat) (v : Buckets) : (s.putBucket k v).dmaCount = s.dmaCount := rfl
@[simp] theorem State.putBucket_ctxs (s : State) (k : Nat) (v : Buckets) : (s.putBucket k v).ctxs = s.ctxs := rfl
@[simp] theorem State.putBucket_coreFenced (s : State) (k : Nat) (v : Buckets) : (s.putBucket k v).coreFenced = s.coreFenced := rfl
@[simp] theorem State.putBucket_rrCtx (s : State) (k : Nat) (v : Buckets) : (s.putBucket k v).rrCtx = s.rrCtx := rfl
@[simp] theorem State.putBucket_programs (s : State) (k : Nat) (v : Buckets) : (s.putBucket k v).programs = s.programs := rfl
@[simp] theorem State.putBucket_mem (s : State) (k : Nat) (v : Buckets) : (s.putBucket k v).mem = s.mem := rfl
@[simp] theorem State.putBucket_memPoison (s : State) (k : Nat) (v : Buckets) : (s.putBucket k v).memPoison = s.memPoison := rfl
@[simp] theorem State.putBucket_memReads (s : State) (k : Nat) (v : Buckets) : (s.putBucket k v).memReads = s.memReads := rfl
@[simp] theorem State.putBucket_nextMemTag (s : State) (k : Nat) (v : Buckets) : (s.putBucket k v).nextMemTag = s.nextMemTag := rfl
@[simp] theorem State.putBucket_ownReqs (s : State) (k : Nat) (v : Buckets) : (s.putBucket k v).ownReqs = s.ownReqs := rfl
@[simp] theorem State.putBucket_ownRsps (s : State) (k : Nat) (v : Buckets) : (s.putBucket k v).ownRsps = s.ownRsps := rfl
@[simp] theorem State.putBucket_scrubPos (s : State) (k : Nat) (v : Buckets) : (s.putBucket k v).scrubPos = s.scrubPos := rfl
@[simp] theorem State.putBucket_scrubClock (s : State) (k : Nat) (v : Buckets) : (s.putBucket k v).scrubClock = s.scrubClock := rfl
@[simp] theorem State.putBucket_scrubMark (s : State) (k : Nat) (v : Buckets) : (s.putBucket k v).scrubMark = s.scrubMark := rfl
@[simp] theorem State.putBucket_refreshes (s : State) (k : Nat) (v : Buckets) : (s.putBucket k v).refreshes = s.refreshes := rfl
@[simp] theorem State.putBucket_streams (s : State) (k : Nat) (v : Buckets) : (s.putBucket k v).streams = s.streams := rfl
@[simp] theorem State.putBucket_streamShadow (s : State) (k : Nat) (v : Buckets) : (s.putBucket k v).streamShadow = s.streamShadow := rfl
@[simp] theorem State.putBucket_runs (s : State) (k : Nat) (v : Buckets) : (s.putBucket k v).runs = s.runs := rfl
@[simp] theorem State.putBucket_sepoch (s : State) (k : Nat) (v : Buckets) : (s.putBucket k v).sepoch = s.sepoch := rfl
@[simp] theorem State.putBucket_streamSwitch (s : State) (k : Nat) (v : Buckets) : (s.putBucket k v).streamSwitch = s.streamSwitch := rfl
@[simp] theorem State.putBucket_streamHeld (s : State) (k : Nat) (v : Buckets) : (s.putBucket k v).streamHeld = s.streamHeld := rfl
@[simp] theorem State.putBucket_streamTurn (s : State) (k : Nat) (v : Buckets) : (s.putBucket k v).streamTurn = s.streamTurn := rfl
@[simp] theorem State.putBucket_eth (s : State) (k : Nat) (v : Buckets) : (s.putBucket k v).eth = s.eth := rfl
@[simp] theorem State.putBucket_ethAddr (s : State) (k : Nat) (v : Buckets) : (s.putBucket k v).ethAddr = s.ethAddr := rfl
@[simp] theorem State.putBucket_dmaIdx (s : State) (k : Nat) (v : Buckets) : (s.putBucket k v).dmaIdx = s.dmaIdx := rfl
@[simp] theorem State.putBucket_dmaRecheck (s : State) (k : Nat) (v : Buckets) : (s.putBucket k v).dmaRecheck = s.dmaRecheck := rfl
@[simp] theorem State.putBucket_msixTable (s : State) (k : Nat) (v : Buckets) : (s.putBucket k v).msixTable = s.msixTable := rfl
@[simp] theorem State.putBucket_pba (s : State) (k : Nat) (v : Buckets) : (s.putBucket k v).pba = s.pba := rfl
@[simp] theorem State.putBucket_mbx (s : State) (k : Nat) (v : Buckets) : (s.putBucket k v).mbx = s.mbx := rfl
@[simp] theorem State.putBucket_mbxImage (s : State) (k : Nat) (v : Buckets) : (s.putBucket k v).mbxImage = s.mbxImage := rfl
@[simp] theorem State.putBucket_stored (s : State) (k : Nat) (v : Buckets) : (s.putBucket k v).stored = s.stored := rfl
@[simp] theorem State.putBucket_hello (s : State) (k : Nat) (v : Buckets) : (s.putBucket k v).hello = s.hello := rfl
@[simp] theorem State.putBucket_grants (s : State) (k : Nat) (v : Buckets) : (s.putBucket k v).grants = s.grants := rfl
@[simp] theorem State.putBucket_stages (s : State) (k : Nat) (v : Buckets) : (s.putBucket k v).stages = s.stages := rfl
@[simp] theorem State.putBucket_recvCount (s : State) (k : Nat) (v : Buckets) : (s.putBucket k v).recvCount = s.recvCount := rfl
@[simp] theorem State.putBucket_errs (s : State) (k : Nat) (v : Buckets) : (s.putBucket k v).errs = s.errs := rfl
@[simp] theorem State.putBucket_rseq (s : State) (k : Nat) (v : Buckets) : (s.putBucket k v).rseq = s.rseq := rfl
@[simp] theorem State.putBucket_dice (s : State) (k : Nat) (v : Buckets) : (s.putBucket k v).dice = s.dice := rfl
@[simp] theorem State.putBucket_ledger (s : State) (k : Nat) (v : Buckets) : (s.putBucket k v).ledger = s.ledger := rfl
@[simp] theorem State.putBucket_trust (s : State) (k : Nat) (v : Buckets) : (s.putBucket k v).trust = s.trust := rfl
@[simp] theorem State.putBucket_cond (s : State) (k : Nat) (v : Buckets) : (s.putBucket k v).cond = s.cond := rfl
@[simp] theorem State.putBucket_ckpts (s : State) (k : Nat) (v : Buckets) : (s.putBucket k v).ckpts = s.ckpts := rfl
@[simp] theorem State.putBucket_pair (s : State) (k : Nat) (v : Buckets) : (s.putBucket k v).pair = s.pair := rfl
@[simp] theorem State.putBucket_agent (s : State) (k : Nat) (v : Buckets) : (s.putBucket k v).agent = s.agent := rfl
@[simp] theorem State.putBucket_power (s : State) (k : Nat) (v : Buckets) : (s.putBucket k v).power = s.power := rfl
@[simp] theorem State.putBucket_phys (s : State) (k : Nat) (v : Buckets) : (s.putBucket k v).phys = s.phys := rfl
@[simp] theorem State.putBucket_cnt (s : State) (k : Nat) (v : Buckets) : (s.putBucket k v).cnt = s.cnt := rfl
@[simp] theorem State.putBucket_mainSince (s : State) (k : Nat) (v : Buckets) : (s.putBucket k v).mainSince = s.mainSince := rfl
@[simp] theorem State.putBucket_cntHeld (s : State) (k : Nat) (v : Buckets) : (s.putBucket k v).cntHeld = s.cntHeld := rfl
@[simp] theorem State.putBucket_always (s : State) (k : Nat) (v : Buckets) : (s.putBucket k v).always = s.always := rfl
@[simp] theorem State.putBucket_linkCnt (s : State) (k : Nat) (v : Buckets) : (s.putBucket k v).linkCnt = s.linkCnt := rfl
@[simp] theorem State.putBucket_ssSeq (s : State) (k : Nat) (v : Buckets) : (s.putBucket k v).ssSeq = s.ssSeq := rfl
@[simp] theorem State.putBucket_ssBusy (s : State) (k : Nat) (v : Buckets) : (s.putBucket k v).ssBusy = s.ssBusy := rfl
@[simp] theorem State.putBucket_ssSkippedBefore (s : State) (k : Nat) (v : Buckets) : (s.putBucket k v).ssSkippedBefore = s.ssSkippedBefore := rfl
@[simp] theorem State.putBucket_ssRecord (s : State) (k : Nat) (v : Buckets) : (s.putBucket k v).ssRecord = s.ssRecord := rfl
@[simp] theorem State.putBucket_ssPending (s : State) (k : Nat) (v : Buckets) : (s.putBucket k v).ssPending = s.ssPending := rfl
@[simp] theorem State.putBucket_mismatchHours (s : State) (k : Nat) (v : Buckets) : (s.putBucket k v).mismatchHours = s.mismatchHours := rfl

/-! ## The entry of `lines` -/

@[simp] theorem State.putLine_pending (s : State) (k : Nat) (v : LineTx) : (s.putLine k v).pending = s.pending := rfl
@[simp] theorem State.putLine_now (s : State) (k : Nat) (v : LineTx) : (s.putLine k v).now = s.now := rfl
@[simp] theorem State.putLine_tick (s : State) (k : Nat) (v : LineTx) : (s.putLine k v).tick = s.tick := rfl
@[simp] theorem State.putLine_fresh (s : State) (k : Nat) (v : LineTx) : (s.putLine k v).fresh = s.fresh := rfl
@[simp] theorem State.putLine_out (s : State) (k : Nat) (v : LineTx) : (s.putLine k v).out = s.out := rfl
@[simp] theorem State.putLine_carried (s : State) (k : Nat) (v : LineTx) : (s.putLine k v).carried = s.carried := rfl
@[simp] theorem State.putLine_regs (s : State) (k : Nat) (v : LineTx) : (s.putLine k v).regs = s.regs := rfl
@[simp] theorem State.putLine_plane (s : State) (k : Nat) (v : LineTx) : (s.putLine k v).plane = s.plane := rfl
@[simp] theorem State.putLine_tray (s : State) (k : Nat) (v : LineTx) : (s.putLine k v).tray = s.tray := rfl
@[simp] theorem State.putLine_plan (s : State) (k : Nat) (v : LineTx) : (s.putLine k v).plan = s.plan := rfl
@[simp] theorem State.putLine_planLive (s : State) (k : Nat) (v : LineTx) : (s.putLine k v).planLive = s.planLive := rfl
@[simp] theorem State.putLine_planHash (s : State) (k : Nat) (v : LineTx) : (s.putLine k v).planHash = s.planHash := rfl
@[simp] theorem State.putLine_ports (s : State) (k : Nat) (v : LineTx) : (s.putLine k v).ports = s.ports := rfl
@[simp] theorem State.putLine_lanes (s : State) (k : Nat) (v : LineTx) : (s.putLine k v).lanes = s.lanes := rfl
@[simp] theorem State.putLine_tx (s : State) (k : Nat) (v : LineTx) : (s.putLine k v).tx = s.tx := rfl
@[simp] theorem State.putLine_rx (s : State) (k : Nat) (v : LineTx) : (s.putLine k v).rx = s.rx := rfl
@[simp] theorem State.putLine_inq (s : State) (k : Nat) (v : LineTx) : (s.putLine k v).inq = s.inq := rfl
@[simp] theorem State.putLine_outq (s : State) (k : Nat) (v : LineTx) : (s.putLine k v).outq = s.outq := rfl
@[simp] theorem State.putLine_vcbuf (s : State) (k : Nat) (v : LineTx) : (s.putLine k v).vcbuf = s.vcbuf := rfl
@[simp] theorem State.putLine_qcharge (s : State) (k : Nat) (v : LineTx) : (s.putLine k v).qcharge = s.qcharge := rfl
@[simp] theorem State.putLine_shared (s : State) (k : Nat) (v : LineTx) : (s.putLine k v).shared = s.shared := rfl
@[simp] theorem State.putLine_arb (s : State) (k : Nat) (v : LineTx) : (s.putLine k v).arb = s.arb := rfl
@[simp] theorem State.putLine_tables (s : State) (k : Nat) (v : LineTx) : (s.putLine k v).tables = s.tables := rfl
@[simp] theorem State.putLine_shadow (s : State) (k : Nat) (v : LineTx) : (s.putLine k v).shadow = s.shadow := rfl
@[simp] theorem State.putLine_escVia (s : State) (k : Nat) (v : LineTx) : (s.putLine k v).escVia = s.escVia := rfl
@[simp] theorem State.putLine_lfsr (s : State) (k : Nat) (v : LineTx) : (s.putLine k v).lfsr = s.lfsr := rfl
@[simp] theorem State.putLine_inFlows (s : State) (k : Nat) (v : LineTx) : (s.putLine k v).inFlows = s.inFlows := rfl
@[simp] theorem State.putLine_egFlows (s : State) (k : Nat) (v : LineTx) : (s.putLine k v).egFlows = s.egFlows := rfl
@[simp] theorem State.putLine_buckets (s : State) (k : Nat) (v : LineTx) : (s.putLine k v).buckets = s.buckets := rfl
@[simp] theorem State.putLine_local_ (s : State) (k : Nat) (v : LineTx) : (s.putLine k v).local_ = s.local_ := rfl
@[simp] theorem State.putLine_cellWait (s : State) (k : Nat) (v : LineTx) : (s.putLine k v).cellWait = s.cellWait := rfl
@[simp] theorem State.putLine_notices (s : State) (k : Nat) (v : LineTx) : (s.putLine k v).notices = s.notices := rfl
@[simp] theorem State.putLine_heldPkts (s : State) (k : Nat) (v : LineTx) : (s.putLine k v).heldPkts = s.heldPkts := rfl
@[simp] theorem State.putLine_unitEvents (s : State) (k : Nat) (v : LineTx) : (s.putLine k v).unitEvents = s.unitEvents := rfl
@[simp] theorem State.putLine_nextCast (s : State) (k : Nat) (v : LineTx) : (s.putLine k v).nextCast = s.nextCast := rfl
@[simp] theorem State.putLine_bindCount (s : State) (k : Nat) (v : LineTx) : (s.putLine k v).bindCount = s.bindCount := rfl
@[simp] theorem State.putLine_instCount (s : State) (k : Nat) (v : LineTx) : (s.putLine k v).instCount = s.instCount := rfl
@[simp] theorem State.putLine_topDown (s : State) (k : Nat) (v : LineTx) : (s.putLine k v).topDown = s.topDown := rfl
@[simp] theorem State.putLine_waitCmds (s : State) (k : Nat) (v : LineTx) : (s.putLine k v).waitCmds = s.waitCmds := rfl
@[simp] theorem State.putLine_restarting (s : State) (k : Nat) (v : LineTx) : (s.putLine k v).restarting = s.restarting := rfl
@[simp] theorem State.putLine_verifySlices (s : State) (k : Nat) (v : LineTx) : (s.putLine k v).verifySlices = s.verifySlices := rfl
@[simp] theorem State.putLine_groups (s : State) (k : Nat) (v : LineTx) : (s.putLine k v).groups = s.groups := rfl
@[simp] theorem State.putLine_slots (s : State) (k : Nat) (v : LineTx) : (s.putLine k v).slots = s.slots := rfl
@[simp] theorem State.putLine_bindWaits (s : State) (k : Nat) (v : LineTx) : (s.putLine k v).bindWaits = s.bindWaits := rfl
@[simp] theorem State.putLine_insts (s : State) (k : Nat) (v : LineTx) : (s.putLine k v).insts = s.insts := rfl
@[simp] theorem State.putLine_banks (s : State) (k : Nat) (v : LineTx) : (s.putLine k v).banks = s.banks := rfl
@[simp] theorem State.putLine_retired (s : State) (k : Nat) (v : LineTx) : (s.putLine k v).retired = s.retired := rfl
@[simp] theorem State.putLine_spares (s : State) (k : Nat) (v : LineTx) : (s.putLine k v).spares = s.spares := rfl
@[simp] theorem State.putLine_symTimes (s : State) (k : Nat) (v : LineTx) : (s.putLine k v).symTimes = s.symTimes := rfl
@[simp] theorem State.putLine_ueWords (s : State) (k : Nat) (v : LineTx) : (s.putLine k v).ueWords = s.ueWords := rfl
@[simp] theorem State.putLine_retireAsk (s : State) (k : Nat) (v : LineTx) : (s.putLine k v).retireAsk = s.retireAsk := rfl
@[simp] theorem State.putLine_recarve (s : State) (k : Nat) (v : LineTx) : (s.putLine k v).recarve = s.recarve := rfl
@[simp] theorem State.putLine_outOfService (s : State) (k : Nat) (v : LineTx) : (s.putLine k v).outOfService = s.outOfService := rfl
@[simp] theorem State.putLine_cdcOut (s : State) (k : Nat) (v : LineTx) : (s.putLine k v).cdcOut = s.cdcOut := rfl
@[simp] theorem State.putLine_dmaCount (s : State) (k : Nat) (v : LineTx) : (s.putLine k v).dmaCount = s.dmaCount := rfl
@[simp] theorem State.putLine_ctxs (s : State) (k : Nat) (v : LineTx) : (s.putLine k v).ctxs = s.ctxs := rfl
@[simp] theorem State.putLine_coreFenced (s : State) (k : Nat) (v : LineTx) : (s.putLine k v).coreFenced = s.coreFenced := rfl
@[simp] theorem State.putLine_rrCtx (s : State) (k : Nat) (v : LineTx) : (s.putLine k v).rrCtx = s.rrCtx := rfl
@[simp] theorem State.putLine_programs (s : State) (k : Nat) (v : LineTx) : (s.putLine k v).programs = s.programs := rfl
@[simp] theorem State.putLine_mem (s : State) (k : Nat) (v : LineTx) : (s.putLine k v).mem = s.mem := rfl
@[simp] theorem State.putLine_memPoison (s : State) (k : Nat) (v : LineTx) : (s.putLine k v).memPoison = s.memPoison := rfl
@[simp] theorem State.putLine_memReads (s : State) (k : Nat) (v : LineTx) : (s.putLine k v).memReads = s.memReads := rfl
@[simp] theorem State.putLine_nextMemTag (s : State) (k : Nat) (v : LineTx) : (s.putLine k v).nextMemTag = s.nextMemTag := rfl
@[simp] theorem State.putLine_ownReqs (s : State) (k : Nat) (v : LineTx) : (s.putLine k v).ownReqs = s.ownReqs := rfl
@[simp] theorem State.putLine_ownRsps (s : State) (k : Nat) (v : LineTx) : (s.putLine k v).ownRsps = s.ownRsps := rfl
@[simp] theorem State.putLine_scrubPos (s : State) (k : Nat) (v : LineTx) : (s.putLine k v).scrubPos = s.scrubPos := rfl
@[simp] theorem State.putLine_scrubClock (s : State) (k : Nat) (v : LineTx) : (s.putLine k v).scrubClock = s.scrubClock := rfl
@[simp] theorem State.putLine_scrubMark (s : State) (k : Nat) (v : LineTx) : (s.putLine k v).scrubMark = s.scrubMark := rfl
@[simp] theorem State.putLine_refreshes (s : State) (k : Nat) (v : LineTx) : (s.putLine k v).refreshes = s.refreshes := rfl
@[simp] theorem State.putLine_streams (s : State) (k : Nat) (v : LineTx) : (s.putLine k v).streams = s.streams := rfl
@[simp] theorem State.putLine_streamShadow (s : State) (k : Nat) (v : LineTx) : (s.putLine k v).streamShadow = s.streamShadow := rfl
@[simp] theorem State.putLine_runs (s : State) (k : Nat) (v : LineTx) : (s.putLine k v).runs = s.runs := rfl
@[simp] theorem State.putLine_sepoch (s : State) (k : Nat) (v : LineTx) : (s.putLine k v).sepoch = s.sepoch := rfl
@[simp] theorem State.putLine_streamSwitch (s : State) (k : Nat) (v : LineTx) : (s.putLine k v).streamSwitch = s.streamSwitch := rfl
@[simp] theorem State.putLine_streamHeld (s : State) (k : Nat) (v : LineTx) : (s.putLine k v).streamHeld = s.streamHeld := rfl
@[simp] theorem State.putLine_streamTurn (s : State) (k : Nat) (v : LineTx) : (s.putLine k v).streamTurn = s.streamTurn := rfl
@[simp] theorem State.putLine_eth (s : State) (k : Nat) (v : LineTx) : (s.putLine k v).eth = s.eth := rfl
@[simp] theorem State.putLine_ethAddr (s : State) (k : Nat) (v : LineTx) : (s.putLine k v).ethAddr = s.ethAddr := rfl
@[simp] theorem State.putLine_dmaIdx (s : State) (k : Nat) (v : LineTx) : (s.putLine k v).dmaIdx = s.dmaIdx := rfl
@[simp] theorem State.putLine_dmaRecheck (s : State) (k : Nat) (v : LineTx) : (s.putLine k v).dmaRecheck = s.dmaRecheck := rfl
@[simp] theorem State.putLine_msixTable (s : State) (k : Nat) (v : LineTx) : (s.putLine k v).msixTable = s.msixTable := rfl
@[simp] theorem State.putLine_pba (s : State) (k : Nat) (v : LineTx) : (s.putLine k v).pba = s.pba := rfl
@[simp] theorem State.putLine_mbx (s : State) (k : Nat) (v : LineTx) : (s.putLine k v).mbx = s.mbx := rfl
@[simp] theorem State.putLine_mbxImage (s : State) (k : Nat) (v : LineTx) : (s.putLine k v).mbxImage = s.mbxImage := rfl
@[simp] theorem State.putLine_stored (s : State) (k : Nat) (v : LineTx) : (s.putLine k v).stored = s.stored := rfl
@[simp] theorem State.putLine_hello (s : State) (k : Nat) (v : LineTx) : (s.putLine k v).hello = s.hello := rfl
@[simp] theorem State.putLine_grants (s : State) (k : Nat) (v : LineTx) : (s.putLine k v).grants = s.grants := rfl
@[simp] theorem State.putLine_stages (s : State) (k : Nat) (v : LineTx) : (s.putLine k v).stages = s.stages := rfl
@[simp] theorem State.putLine_recvCount (s : State) (k : Nat) (v : LineTx) : (s.putLine k v).recvCount = s.recvCount := rfl
@[simp] theorem State.putLine_errs (s : State) (k : Nat) (v : LineTx) : (s.putLine k v).errs = s.errs := rfl
@[simp] theorem State.putLine_rseq (s : State) (k : Nat) (v : LineTx) : (s.putLine k v).rseq = s.rseq := rfl
@[simp] theorem State.putLine_dice (s : State) (k : Nat) (v : LineTx) : (s.putLine k v).dice = s.dice := rfl
@[simp] theorem State.putLine_ledger (s : State) (k : Nat) (v : LineTx) : (s.putLine k v).ledger = s.ledger := rfl
@[simp] theorem State.putLine_trust (s : State) (k : Nat) (v : LineTx) : (s.putLine k v).trust = s.trust := rfl
@[simp] theorem State.putLine_cond (s : State) (k : Nat) (v : LineTx) : (s.putLine k v).cond = s.cond := rfl
@[simp] theorem State.putLine_ckpts (s : State) (k : Nat) (v : LineTx) : (s.putLine k v).ckpts = s.ckpts := rfl
@[simp] theorem State.putLine_pair (s : State) (k : Nat) (v : LineTx) : (s.putLine k v).pair = s.pair := rfl
@[simp] theorem State.putLine_agent (s : State) (k : Nat) (v : LineTx) : (s.putLine k v).agent = s.agent := rfl
@[simp] theorem State.putLine_power (s : State) (k : Nat) (v : LineTx) : (s.putLine k v).power = s.power := rfl
@[simp] theorem State.putLine_phys (s : State) (k : Nat) (v : LineTx) : (s.putLine k v).phys = s.phys := rfl
@[simp] theorem State.putLine_cnt (s : State) (k : Nat) (v : LineTx) : (s.putLine k v).cnt = s.cnt := rfl
@[simp] theorem State.putLine_mainSince (s : State) (k : Nat) (v : LineTx) : (s.putLine k v).mainSince = s.mainSince := rfl
@[simp] theorem State.putLine_cntHeld (s : State) (k : Nat) (v : LineTx) : (s.putLine k v).cntHeld = s.cntHeld := rfl
@[simp] theorem State.putLine_always (s : State) (k : Nat) (v : LineTx) : (s.putLine k v).always = s.always := rfl
@[simp] theorem State.putLine_linkCnt (s : State) (k : Nat) (v : LineTx) : (s.putLine k v).linkCnt = s.linkCnt := rfl
@[simp] theorem State.putLine_ssSeq (s : State) (k : Nat) (v : LineTx) : (s.putLine k v).ssSeq = s.ssSeq := rfl
@[simp] theorem State.putLine_ssBusy (s : State) (k : Nat) (v : LineTx) : (s.putLine k v).ssBusy = s.ssBusy := rfl
@[simp] theorem State.putLine_ssSkippedBefore (s : State) (k : Nat) (v : LineTx) : (s.putLine k v).ssSkippedBefore = s.ssSkippedBefore := rfl
@[simp] theorem State.putLine_ssRecord (s : State) (k : Nat) (v : LineTx) : (s.putLine k v).ssRecord = s.ssRecord := rfl
@[simp] theorem State.putLine_ssPending (s : State) (k : Nat) (v : LineTx) : (s.putLine k v).ssPending = s.ssPending := rfl
@[simp] theorem State.putLine_mismatchHours (s : State) (k : Nat) (v : LineTx) : (s.putLine k v).mismatchHours = s.mismatchHours := rfl

/-! ## The entry of `slots` -/

@[simp] theorem State.putSlot_pending (s : State) (k : Nat) (v : SlotSt) : (s.putSlot k v).pending = s.pending := rfl
@[simp] theorem State.putSlot_now (s : State) (k : Nat) (v : SlotSt) : (s.putSlot k v).now = s.now := rfl
@[simp] theorem State.putSlot_tick (s : State) (k : Nat) (v : SlotSt) : (s.putSlot k v).tick = s.tick := rfl
@[simp] theorem State.putSlot_fresh (s : State) (k : Nat) (v : SlotSt) : (s.putSlot k v).fresh = s.fresh := rfl
@[simp] theorem State.putSlot_out (s : State) (k : Nat) (v : SlotSt) : (s.putSlot k v).out = s.out := rfl
@[simp] theorem State.putSlot_carried (s : State) (k : Nat) (v : SlotSt) : (s.putSlot k v).carried = s.carried := rfl
@[simp] theorem State.putSlot_regs (s : State) (k : Nat) (v : SlotSt) : (s.putSlot k v).regs = s.regs := rfl
@[simp] theorem State.putSlot_plane (s : State) (k : Nat) (v : SlotSt) : (s.putSlot k v).plane = s.plane := rfl
@[simp] theorem State.putSlot_tray (s : State) (k : Nat) (v : SlotSt) : (s.putSlot k v).tray = s.tray := rfl
@[simp] theorem State.putSlot_plan (s : State) (k : Nat) (v : SlotSt) : (s.putSlot k v).plan = s.plan := rfl
@[simp] theorem State.putSlot_planLive (s : State) (k : Nat) (v : SlotSt) : (s.putSlot k v).planLive = s.planLive := rfl
@[simp] theorem State.putSlot_planHash (s : State) (k : Nat) (v : SlotSt) : (s.putSlot k v).planHash = s.planHash := rfl
@[simp] theorem State.putSlot_ports (s : State) (k : Nat) (v : SlotSt) : (s.putSlot k v).ports = s.ports := rfl
@[simp] theorem State.putSlot_lanes (s : State) (k : Nat) (v : SlotSt) : (s.putSlot k v).lanes = s.lanes := rfl
@[simp] theorem State.putSlot_tx (s : State) (k : Nat) (v : SlotSt) : (s.putSlot k v).tx = s.tx := rfl
@[simp] theorem State.putSlot_lines (s : State) (k : Nat) (v : SlotSt) : (s.putSlot k v).lines = s.lines := rfl
@[simp] theorem State.putSlot_rx (s : State) (k : Nat) (v : SlotSt) : (s.putSlot k v).rx = s.rx := rfl
@[simp] theorem State.putSlot_inq (s : State) (k : Nat) (v : SlotSt) : (s.putSlot k v).inq = s.inq := rfl
@[simp] theorem State.putSlot_outq (s : State) (k : Nat) (v : SlotSt) : (s.putSlot k v).outq = s.outq := rfl
@[simp] theorem State.putSlot_vcbuf (s : State) (k : Nat) (v : SlotSt) : (s.putSlot k v).vcbuf = s.vcbuf := rfl
@[simp] theorem State.putSlot_qcharge (s : State) (k : Nat) (v : SlotSt) : (s.putSlot k v).qcharge = s.qcharge := rfl
@[simp] theorem State.putSlot_shared (s : State) (k : Nat) (v : SlotSt) : (s.putSlot k v).shared = s.shared := rfl
@[simp] theorem State.putSlot_arb (s : State) (k : Nat) (v : SlotSt) : (s.putSlot k v).arb = s.arb := rfl
@[simp] theorem State.putSlot_tables (s : State) (k : Nat) (v : SlotSt) : (s.putSlot k v).tables = s.tables := rfl
@[simp] theorem State.putSlot_shadow (s : State) (k : Nat) (v : SlotSt) : (s.putSlot k v).shadow = s.shadow := rfl
@[simp] theorem State.putSlot_escVia (s : State) (k : Nat) (v : SlotSt) : (s.putSlot k v).escVia = s.escVia := rfl
@[simp] theorem State.putSlot_lfsr (s : State) (k : Nat) (v : SlotSt) : (s.putSlot k v).lfsr = s.lfsr := rfl
@[simp] theorem State.putSlot_inFlows (s : State) (k : Nat) (v : SlotSt) : (s.putSlot k v).inFlows = s.inFlows := rfl
@[simp] theorem State.putSlot_egFlows (s : State) (k : Nat) (v : SlotSt) : (s.putSlot k v).egFlows = s.egFlows := rfl
@[simp] theorem State.putSlot_buckets (s : State) (k : Nat) (v : SlotSt) : (s.putSlot k v).buckets = s.buckets := rfl
@[simp] theorem State.putSlot_local_ (s : State) (k : Nat) (v : SlotSt) : (s.putSlot k v).local_ = s.local_ := rfl
@[simp] theorem State.putSlot_cellWait (s : State) (k : Nat) (v : SlotSt) : (s.putSlot k v).cellWait = s.cellWait := rfl
@[simp] theorem State.putSlot_notices (s : State) (k : Nat) (v : SlotSt) : (s.putSlot k v).notices = s.notices := rfl
@[simp] theorem State.putSlot_heldPkts (s : State) (k : Nat) (v : SlotSt) : (s.putSlot k v).heldPkts = s.heldPkts := rfl
@[simp] theorem State.putSlot_unitEvents (s : State) (k : Nat) (v : SlotSt) : (s.putSlot k v).unitEvents = s.unitEvents := rfl
@[simp] theorem State.putSlot_nextCast (s : State) (k : Nat) (v : SlotSt) : (s.putSlot k v).nextCast = s.nextCast := rfl
@[simp] theorem State.putSlot_bindCount (s : State) (k : Nat) (v : SlotSt) : (s.putSlot k v).bindCount = s.bindCount := rfl
@[simp] theorem State.putSlot_instCount (s : State) (k : Nat) (v : SlotSt) : (s.putSlot k v).instCount = s.instCount := rfl
@[simp] theorem State.putSlot_topDown (s : State) (k : Nat) (v : SlotSt) : (s.putSlot k v).topDown = s.topDown := rfl
@[simp] theorem State.putSlot_waitCmds (s : State) (k : Nat) (v : SlotSt) : (s.putSlot k v).waitCmds = s.waitCmds := rfl
@[simp] theorem State.putSlot_restarting (s : State) (k : Nat) (v : SlotSt) : (s.putSlot k v).restarting = s.restarting := rfl
@[simp] theorem State.putSlot_verifySlices (s : State) (k : Nat) (v : SlotSt) : (s.putSlot k v).verifySlices = s.verifySlices := rfl
@[simp] theorem State.putSlot_groups (s : State) (k : Nat) (v : SlotSt) : (s.putSlot k v).groups = s.groups := rfl
@[simp] theorem State.putSlot_bindWaits (s : State) (k : Nat) (v : SlotSt) : (s.putSlot k v).bindWaits = s.bindWaits := rfl
@[simp] theorem State.putSlot_insts (s : State) (k : Nat) (v : SlotSt) : (s.putSlot k v).insts = s.insts := rfl
@[simp] theorem State.putSlot_banks (s : State) (k : Nat) (v : SlotSt) : (s.putSlot k v).banks = s.banks := rfl
@[simp] theorem State.putSlot_retired (s : State) (k : Nat) (v : SlotSt) : (s.putSlot k v).retired = s.retired := rfl
@[simp] theorem State.putSlot_spares (s : State) (k : Nat) (v : SlotSt) : (s.putSlot k v).spares = s.spares := rfl
@[simp] theorem State.putSlot_symTimes (s : State) (k : Nat) (v : SlotSt) : (s.putSlot k v).symTimes = s.symTimes := rfl
@[simp] theorem State.putSlot_ueWords (s : State) (k : Nat) (v : SlotSt) : (s.putSlot k v).ueWords = s.ueWords := rfl
@[simp] theorem State.putSlot_retireAsk (s : State) (k : Nat) (v : SlotSt) : (s.putSlot k v).retireAsk = s.retireAsk := rfl
@[simp] theorem State.putSlot_recarve (s : State) (k : Nat) (v : SlotSt) : (s.putSlot k v).recarve = s.recarve := rfl
@[simp] theorem State.putSlot_outOfService (s : State) (k : Nat) (v : SlotSt) : (s.putSlot k v).outOfService = s.outOfService := rfl
@[simp] theorem State.putSlot_cdcOut (s : State) (k : Nat) (v : SlotSt) : (s.putSlot k v).cdcOut = s.cdcOut := rfl
@[simp] theorem State.putSlot_dmaCount (s : State) (k : Nat) (v : SlotSt) : (s.putSlot k v).dmaCount = s.dmaCount := rfl
@[simp] theorem State.putSlot_ctxs (s : State) (k : Nat) (v : SlotSt) : (s.putSlot k v).ctxs = s.ctxs := rfl
@[simp] theorem State.putSlot_coreFenced (s : State) (k : Nat) (v : SlotSt) : (s.putSlot k v).coreFenced = s.coreFenced := rfl
@[simp] theorem State.putSlot_rrCtx (s : State) (k : Nat) (v : SlotSt) : (s.putSlot k v).rrCtx = s.rrCtx := rfl
@[simp] theorem State.putSlot_programs (s : State) (k : Nat) (v : SlotSt) : (s.putSlot k v).programs = s.programs := rfl
@[simp] theorem State.putSlot_mem (s : State) (k : Nat) (v : SlotSt) : (s.putSlot k v).mem = s.mem := rfl
@[simp] theorem State.putSlot_memPoison (s : State) (k : Nat) (v : SlotSt) : (s.putSlot k v).memPoison = s.memPoison := rfl
@[simp] theorem State.putSlot_memReads (s : State) (k : Nat) (v : SlotSt) : (s.putSlot k v).memReads = s.memReads := rfl
@[simp] theorem State.putSlot_nextMemTag (s : State) (k : Nat) (v : SlotSt) : (s.putSlot k v).nextMemTag = s.nextMemTag := rfl
@[simp] theorem State.putSlot_ownReqs (s : State) (k : Nat) (v : SlotSt) : (s.putSlot k v).ownReqs = s.ownReqs := rfl
@[simp] theorem State.putSlot_ownRsps (s : State) (k : Nat) (v : SlotSt) : (s.putSlot k v).ownRsps = s.ownRsps := rfl
@[simp] theorem State.putSlot_scrubPos (s : State) (k : Nat) (v : SlotSt) : (s.putSlot k v).scrubPos = s.scrubPos := rfl
@[simp] theorem State.putSlot_scrubClock (s : State) (k : Nat) (v : SlotSt) : (s.putSlot k v).scrubClock = s.scrubClock := rfl
@[simp] theorem State.putSlot_scrubMark (s : State) (k : Nat) (v : SlotSt) : (s.putSlot k v).scrubMark = s.scrubMark := rfl
@[simp] theorem State.putSlot_refreshes (s : State) (k : Nat) (v : SlotSt) : (s.putSlot k v).refreshes = s.refreshes := rfl
@[simp] theorem State.putSlot_streams (s : State) (k : Nat) (v : SlotSt) : (s.putSlot k v).streams = s.streams := rfl
@[simp] theorem State.putSlot_streamShadow (s : State) (k : Nat) (v : SlotSt) : (s.putSlot k v).streamShadow = s.streamShadow := rfl
@[simp] theorem State.putSlot_runs (s : State) (k : Nat) (v : SlotSt) : (s.putSlot k v).runs = s.runs := rfl
@[simp] theorem State.putSlot_sepoch (s : State) (k : Nat) (v : SlotSt) : (s.putSlot k v).sepoch = s.sepoch := rfl
@[simp] theorem State.putSlot_streamSwitch (s : State) (k : Nat) (v : SlotSt) : (s.putSlot k v).streamSwitch = s.streamSwitch := rfl
@[simp] theorem State.putSlot_streamHeld (s : State) (k : Nat) (v : SlotSt) : (s.putSlot k v).streamHeld = s.streamHeld := rfl
@[simp] theorem State.putSlot_streamTurn (s : State) (k : Nat) (v : SlotSt) : (s.putSlot k v).streamTurn = s.streamTurn := rfl
@[simp] theorem State.putSlot_eth (s : State) (k : Nat) (v : SlotSt) : (s.putSlot k v).eth = s.eth := rfl
@[simp] theorem State.putSlot_ethAddr (s : State) (k : Nat) (v : SlotSt) : (s.putSlot k v).ethAddr = s.ethAddr := rfl
@[simp] theorem State.putSlot_dmaIdx (s : State) (k : Nat) (v : SlotSt) : (s.putSlot k v).dmaIdx = s.dmaIdx := rfl
@[simp] theorem State.putSlot_dmaRecheck (s : State) (k : Nat) (v : SlotSt) : (s.putSlot k v).dmaRecheck = s.dmaRecheck := rfl
@[simp] theorem State.putSlot_msixTable (s : State) (k : Nat) (v : SlotSt) : (s.putSlot k v).msixTable = s.msixTable := rfl
@[simp] theorem State.putSlot_pba (s : State) (k : Nat) (v : SlotSt) : (s.putSlot k v).pba = s.pba := rfl
@[simp] theorem State.putSlot_mbx (s : State) (k : Nat) (v : SlotSt) : (s.putSlot k v).mbx = s.mbx := rfl
@[simp] theorem State.putSlot_mbxImage (s : State) (k : Nat) (v : SlotSt) : (s.putSlot k v).mbxImage = s.mbxImage := rfl
@[simp] theorem State.putSlot_stored (s : State) (k : Nat) (v : SlotSt) : (s.putSlot k v).stored = s.stored := rfl
@[simp] theorem State.putSlot_hello (s : State) (k : Nat) (v : SlotSt) : (s.putSlot k v).hello = s.hello := rfl
@[simp] theorem State.putSlot_grants (s : State) (k : Nat) (v : SlotSt) : (s.putSlot k v).grants = s.grants := rfl
@[simp] theorem State.putSlot_stages (s : State) (k : Nat) (v : SlotSt) : (s.putSlot k v).stages = s.stages := rfl
@[simp] theorem State.putSlot_recvCount (s : State) (k : Nat) (v : SlotSt) : (s.putSlot k v).recvCount = s.recvCount := rfl
@[simp] theorem State.putSlot_errs (s : State) (k : Nat) (v : SlotSt) : (s.putSlot k v).errs = s.errs := rfl
@[simp] theorem State.putSlot_rseq (s : State) (k : Nat) (v : SlotSt) : (s.putSlot k v).rseq = s.rseq := rfl
@[simp] theorem State.putSlot_dice (s : State) (k : Nat) (v : SlotSt) : (s.putSlot k v).dice = s.dice := rfl
@[simp] theorem State.putSlot_ledger (s : State) (k : Nat) (v : SlotSt) : (s.putSlot k v).ledger = s.ledger := rfl
@[simp] theorem State.putSlot_trust (s : State) (k : Nat) (v : SlotSt) : (s.putSlot k v).trust = s.trust := rfl
@[simp] theorem State.putSlot_cond (s : State) (k : Nat) (v : SlotSt) : (s.putSlot k v).cond = s.cond := rfl
@[simp] theorem State.putSlot_ckpts (s : State) (k : Nat) (v : SlotSt) : (s.putSlot k v).ckpts = s.ckpts := rfl
@[simp] theorem State.putSlot_pair (s : State) (k : Nat) (v : SlotSt) : (s.putSlot k v).pair = s.pair := rfl
@[simp] theorem State.putSlot_agent (s : State) (k : Nat) (v : SlotSt) : (s.putSlot k v).agent = s.agent := rfl
@[simp] theorem State.putSlot_power (s : State) (k : Nat) (v : SlotSt) : (s.putSlot k v).power = s.power := rfl
@[simp] theorem State.putSlot_phys (s : State) (k : Nat) (v : SlotSt) : (s.putSlot k v).phys = s.phys := rfl
@[simp] theorem State.putSlot_cnt (s : State) (k : Nat) (v : SlotSt) : (s.putSlot k v).cnt = s.cnt := rfl
@[simp] theorem State.putSlot_mainSince (s : State) (k : Nat) (v : SlotSt) : (s.putSlot k v).mainSince = s.mainSince := rfl
@[simp] theorem State.putSlot_cntHeld (s : State) (k : Nat) (v : SlotSt) : (s.putSlot k v).cntHeld = s.cntHeld := rfl
@[simp] theorem State.putSlot_always (s : State) (k : Nat) (v : SlotSt) : (s.putSlot k v).always = s.always := rfl
@[simp] theorem State.putSlot_linkCnt (s : State) (k : Nat) (v : SlotSt) : (s.putSlot k v).linkCnt = s.linkCnt := rfl
@[simp] theorem State.putSlot_ssSeq (s : State) (k : Nat) (v : SlotSt) : (s.putSlot k v).ssSeq = s.ssSeq := rfl
@[simp] theorem State.putSlot_ssBusy (s : State) (k : Nat) (v : SlotSt) : (s.putSlot k v).ssBusy = s.ssBusy := rfl
@[simp] theorem State.putSlot_ssSkippedBefore (s : State) (k : Nat) (v : SlotSt) : (s.putSlot k v).ssSkippedBefore = s.ssSkippedBefore := rfl
@[simp] theorem State.putSlot_ssRecord (s : State) (k : Nat) (v : SlotSt) : (s.putSlot k v).ssRecord = s.ssRecord := rfl
@[simp] theorem State.putSlot_ssPending (s : State) (k : Nat) (v : SlotSt) : (s.putSlot k v).ssPending = s.ssPending := rfl
@[simp] theorem State.putSlot_mismatchHours (s : State) (k : Nat) (v : SlotSt) : (s.putSlot k v).mismatchHours = s.mismatchHours := rfl

/-! ## The entry of `banks` -/

@[simp] theorem State.putBankWord_pending (s : State) (k : Nat) (v : BankWord) : (s.putBankWord k v).pending = s.pending := rfl
@[simp] theorem State.putBankWord_now (s : State) (k : Nat) (v : BankWord) : (s.putBankWord k v).now = s.now := rfl
@[simp] theorem State.putBankWord_tick (s : State) (k : Nat) (v : BankWord) : (s.putBankWord k v).tick = s.tick := rfl
@[simp] theorem State.putBankWord_fresh (s : State) (k : Nat) (v : BankWord) : (s.putBankWord k v).fresh = s.fresh := rfl
@[simp] theorem State.putBankWord_out (s : State) (k : Nat) (v : BankWord) : (s.putBankWord k v).out = s.out := rfl
@[simp] theorem State.putBankWord_carried (s : State) (k : Nat) (v : BankWord) : (s.putBankWord k v).carried = s.carried := rfl
@[simp] theorem State.putBankWord_regs (s : State) (k : Nat) (v : BankWord) : (s.putBankWord k v).regs = s.regs := rfl
@[simp] theorem State.putBankWord_plane (s : State) (k : Nat) (v : BankWord) : (s.putBankWord k v).plane = s.plane := rfl
@[simp] theorem State.putBankWord_tray (s : State) (k : Nat) (v : BankWord) : (s.putBankWord k v).tray = s.tray := rfl
@[simp] theorem State.putBankWord_plan (s : State) (k : Nat) (v : BankWord) : (s.putBankWord k v).plan = s.plan := rfl
@[simp] theorem State.putBankWord_planLive (s : State) (k : Nat) (v : BankWord) : (s.putBankWord k v).planLive = s.planLive := rfl
@[simp] theorem State.putBankWord_planHash (s : State) (k : Nat) (v : BankWord) : (s.putBankWord k v).planHash = s.planHash := rfl
@[simp] theorem State.putBankWord_ports (s : State) (k : Nat) (v : BankWord) : (s.putBankWord k v).ports = s.ports := rfl
@[simp] theorem State.putBankWord_lanes (s : State) (k : Nat) (v : BankWord) : (s.putBankWord k v).lanes = s.lanes := rfl
@[simp] theorem State.putBankWord_tx (s : State) (k : Nat) (v : BankWord) : (s.putBankWord k v).tx = s.tx := rfl
@[simp] theorem State.putBankWord_lines (s : State) (k : Nat) (v : BankWord) : (s.putBankWord k v).lines = s.lines := rfl
@[simp] theorem State.putBankWord_rx (s : State) (k : Nat) (v : BankWord) : (s.putBankWord k v).rx = s.rx := rfl
@[simp] theorem State.putBankWord_inq (s : State) (k : Nat) (v : BankWord) : (s.putBankWord k v).inq = s.inq := rfl
@[simp] theorem State.putBankWord_outq (s : State) (k : Nat) (v : BankWord) : (s.putBankWord k v).outq = s.outq := rfl
@[simp] theorem State.putBankWord_vcbuf (s : State) (k : Nat) (v : BankWord) : (s.putBankWord k v).vcbuf = s.vcbuf := rfl
@[simp] theorem State.putBankWord_qcharge (s : State) (k : Nat) (v : BankWord) : (s.putBankWord k v).qcharge = s.qcharge := rfl
@[simp] theorem State.putBankWord_shared (s : State) (k : Nat) (v : BankWord) : (s.putBankWord k v).shared = s.shared := rfl
@[simp] theorem State.putBankWord_arb (s : State) (k : Nat) (v : BankWord) : (s.putBankWord k v).arb = s.arb := rfl
@[simp] theorem State.putBankWord_tables (s : State) (k : Nat) (v : BankWord) : (s.putBankWord k v).tables = s.tables := rfl
@[simp] theorem State.putBankWord_shadow (s : State) (k : Nat) (v : BankWord) : (s.putBankWord k v).shadow = s.shadow := rfl
@[simp] theorem State.putBankWord_escVia (s : State) (k : Nat) (v : BankWord) : (s.putBankWord k v).escVia = s.escVia := rfl
@[simp] theorem State.putBankWord_lfsr (s : State) (k : Nat) (v : BankWord) : (s.putBankWord k v).lfsr = s.lfsr := rfl
@[simp] theorem State.putBankWord_inFlows (s : State) (k : Nat) (v : BankWord) : (s.putBankWord k v).inFlows = s.inFlows := rfl
@[simp] theorem State.putBankWord_egFlows (s : State) (k : Nat) (v : BankWord) : (s.putBankWord k v).egFlows = s.egFlows := rfl
@[simp] theorem State.putBankWord_buckets (s : State) (k : Nat) (v : BankWord) : (s.putBankWord k v).buckets = s.buckets := rfl
@[simp] theorem State.putBankWord_local_ (s : State) (k : Nat) (v : BankWord) : (s.putBankWord k v).local_ = s.local_ := rfl
@[simp] theorem State.putBankWord_cellWait (s : State) (k : Nat) (v : BankWord) : (s.putBankWord k v).cellWait = s.cellWait := rfl
@[simp] theorem State.putBankWord_notices (s : State) (k : Nat) (v : BankWord) : (s.putBankWord k v).notices = s.notices := rfl
@[simp] theorem State.putBankWord_heldPkts (s : State) (k : Nat) (v : BankWord) : (s.putBankWord k v).heldPkts = s.heldPkts := rfl
@[simp] theorem State.putBankWord_unitEvents (s : State) (k : Nat) (v : BankWord) : (s.putBankWord k v).unitEvents = s.unitEvents := rfl
@[simp] theorem State.putBankWord_nextCast (s : State) (k : Nat) (v : BankWord) : (s.putBankWord k v).nextCast = s.nextCast := rfl
@[simp] theorem State.putBankWord_bindCount (s : State) (k : Nat) (v : BankWord) : (s.putBankWord k v).bindCount = s.bindCount := rfl
@[simp] theorem State.putBankWord_instCount (s : State) (k : Nat) (v : BankWord) : (s.putBankWord k v).instCount = s.instCount := rfl
@[simp] theorem State.putBankWord_topDown (s : State) (k : Nat) (v : BankWord) : (s.putBankWord k v).topDown = s.topDown := rfl
@[simp] theorem State.putBankWord_waitCmds (s : State) (k : Nat) (v : BankWord) : (s.putBankWord k v).waitCmds = s.waitCmds := rfl
@[simp] theorem State.putBankWord_restarting (s : State) (k : Nat) (v : BankWord) : (s.putBankWord k v).restarting = s.restarting := rfl
@[simp] theorem State.putBankWord_verifySlices (s : State) (k : Nat) (v : BankWord) : (s.putBankWord k v).verifySlices = s.verifySlices := rfl
@[simp] theorem State.putBankWord_groups (s : State) (k : Nat) (v : BankWord) : (s.putBankWord k v).groups = s.groups := rfl
@[simp] theorem State.putBankWord_slots (s : State) (k : Nat) (v : BankWord) : (s.putBankWord k v).slots = s.slots := rfl
@[simp] theorem State.putBankWord_bindWaits (s : State) (k : Nat) (v : BankWord) : (s.putBankWord k v).bindWaits = s.bindWaits := rfl
@[simp] theorem State.putBankWord_insts (s : State) (k : Nat) (v : BankWord) : (s.putBankWord k v).insts = s.insts := rfl
@[simp] theorem State.putBankWord_retired (s : State) (k : Nat) (v : BankWord) : (s.putBankWord k v).retired = s.retired := rfl
@[simp] theorem State.putBankWord_spares (s : State) (k : Nat) (v : BankWord) : (s.putBankWord k v).spares = s.spares := rfl
@[simp] theorem State.putBankWord_symTimes (s : State) (k : Nat) (v : BankWord) : (s.putBankWord k v).symTimes = s.symTimes := rfl
@[simp] theorem State.putBankWord_ueWords (s : State) (k : Nat) (v : BankWord) : (s.putBankWord k v).ueWords = s.ueWords := rfl
@[simp] theorem State.putBankWord_retireAsk (s : State) (k : Nat) (v : BankWord) : (s.putBankWord k v).retireAsk = s.retireAsk := rfl
@[simp] theorem State.putBankWord_recarve (s : State) (k : Nat) (v : BankWord) : (s.putBankWord k v).recarve = s.recarve := rfl
@[simp] theorem State.putBankWord_outOfService (s : State) (k : Nat) (v : BankWord) : (s.putBankWord k v).outOfService = s.outOfService := rfl
@[simp] theorem State.putBankWord_cdcOut (s : State) (k : Nat) (v : BankWord) : (s.putBankWord k v).cdcOut = s.cdcOut := rfl
@[simp] theorem State.putBankWord_dmaCount (s : State) (k : Nat) (v : BankWord) : (s.putBankWord k v).dmaCount = s.dmaCount := rfl
@[simp] theorem State.putBankWord_ctxs (s : State) (k : Nat) (v : BankWord) : (s.putBankWord k v).ctxs = s.ctxs := rfl
@[simp] theorem State.putBankWord_coreFenced (s : State) (k : Nat) (v : BankWord) : (s.putBankWord k v).coreFenced = s.coreFenced := rfl
@[simp] theorem State.putBankWord_rrCtx (s : State) (k : Nat) (v : BankWord) : (s.putBankWord k v).rrCtx = s.rrCtx := rfl
@[simp] theorem State.putBankWord_programs (s : State) (k : Nat) (v : BankWord) : (s.putBankWord k v).programs = s.programs := rfl
@[simp] theorem State.putBankWord_mem (s : State) (k : Nat) (v : BankWord) : (s.putBankWord k v).mem = s.mem := rfl
@[simp] theorem State.putBankWord_memPoison (s : State) (k : Nat) (v : BankWord) : (s.putBankWord k v).memPoison = s.memPoison := rfl
@[simp] theorem State.putBankWord_memReads (s : State) (k : Nat) (v : BankWord) : (s.putBankWord k v).memReads = s.memReads := rfl
@[simp] theorem State.putBankWord_nextMemTag (s : State) (k : Nat) (v : BankWord) : (s.putBankWord k v).nextMemTag = s.nextMemTag := rfl
@[simp] theorem State.putBankWord_ownReqs (s : State) (k : Nat) (v : BankWord) : (s.putBankWord k v).ownReqs = s.ownReqs := rfl
@[simp] theorem State.putBankWord_ownRsps (s : State) (k : Nat) (v : BankWord) : (s.putBankWord k v).ownRsps = s.ownRsps := rfl
@[simp] theorem State.putBankWord_scrubPos (s : State) (k : Nat) (v : BankWord) : (s.putBankWord k v).scrubPos = s.scrubPos := rfl
@[simp] theorem State.putBankWord_scrubClock (s : State) (k : Nat) (v : BankWord) : (s.putBankWord k v).scrubClock = s.scrubClock := rfl
@[simp] theorem State.putBankWord_scrubMark (s : State) (k : Nat) (v : BankWord) : (s.putBankWord k v).scrubMark = s.scrubMark := rfl
@[simp] theorem State.putBankWord_refreshes (s : State) (k : Nat) (v : BankWord) : (s.putBankWord k v).refreshes = s.refreshes := rfl
@[simp] theorem State.putBankWord_streams (s : State) (k : Nat) (v : BankWord) : (s.putBankWord k v).streams = s.streams := rfl
@[simp] theorem State.putBankWord_streamShadow (s : State) (k : Nat) (v : BankWord) : (s.putBankWord k v).streamShadow = s.streamShadow := rfl
@[simp] theorem State.putBankWord_runs (s : State) (k : Nat) (v : BankWord) : (s.putBankWord k v).runs = s.runs := rfl
@[simp] theorem State.putBankWord_sepoch (s : State) (k : Nat) (v : BankWord) : (s.putBankWord k v).sepoch = s.sepoch := rfl
@[simp] theorem State.putBankWord_streamSwitch (s : State) (k : Nat) (v : BankWord) : (s.putBankWord k v).streamSwitch = s.streamSwitch := rfl
@[simp] theorem State.putBankWord_streamHeld (s : State) (k : Nat) (v : BankWord) : (s.putBankWord k v).streamHeld = s.streamHeld := rfl
@[simp] theorem State.putBankWord_streamTurn (s : State) (k : Nat) (v : BankWord) : (s.putBankWord k v).streamTurn = s.streamTurn := rfl
@[simp] theorem State.putBankWord_eth (s : State) (k : Nat) (v : BankWord) : (s.putBankWord k v).eth = s.eth := rfl
@[simp] theorem State.putBankWord_ethAddr (s : State) (k : Nat) (v : BankWord) : (s.putBankWord k v).ethAddr = s.ethAddr := rfl
@[simp] theorem State.putBankWord_dmaIdx (s : State) (k : Nat) (v : BankWord) : (s.putBankWord k v).dmaIdx = s.dmaIdx := rfl
@[simp] theorem State.putBankWord_dmaRecheck (s : State) (k : Nat) (v : BankWord) : (s.putBankWord k v).dmaRecheck = s.dmaRecheck := rfl
@[simp] theorem State.putBankWord_msixTable (s : State) (k : Nat) (v : BankWord) : (s.putBankWord k v).msixTable = s.msixTable := rfl
@[simp] theorem State.putBankWord_pba (s : State) (k : Nat) (v : BankWord) : (s.putBankWord k v).pba = s.pba := rfl
@[simp] theorem State.putBankWord_mbx (s : State) (k : Nat) (v : BankWord) : (s.putBankWord k v).mbx = s.mbx := rfl
@[simp] theorem State.putBankWord_mbxImage (s : State) (k : Nat) (v : BankWord) : (s.putBankWord k v).mbxImage = s.mbxImage := rfl
@[simp] theorem State.putBankWord_stored (s : State) (k : Nat) (v : BankWord) : (s.putBankWord k v).stored = s.stored := rfl
@[simp] theorem State.putBankWord_hello (s : State) (k : Nat) (v : BankWord) : (s.putBankWord k v).hello = s.hello := rfl
@[simp] theorem State.putBankWord_grants (s : State) (k : Nat) (v : BankWord) : (s.putBankWord k v).grants = s.grants := rfl
@[simp] theorem State.putBankWord_stages (s : State) (k : Nat) (v : BankWord) : (s.putBankWord k v).stages = s.stages := rfl
@[simp] theorem State.putBankWord_recvCount (s : State) (k : Nat) (v : BankWord) : (s.putBankWord k v).recvCount = s.recvCount := rfl
@[simp] theorem State.putBankWord_errs (s : State) (k : Nat) (v : BankWord) : (s.putBankWord k v).errs = s.errs := rfl
@[simp] theorem State.putBankWord_rseq (s : State) (k : Nat) (v : BankWord) : (s.putBankWord k v).rseq = s.rseq := rfl
@[simp] theorem State.putBankWord_dice (s : State) (k : Nat) (v : BankWord) : (s.putBankWord k v).dice = s.dice := rfl
@[simp] theorem State.putBankWord_ledger (s : State) (k : Nat) (v : BankWord) : (s.putBankWord k v).ledger = s.ledger := rfl
@[simp] theorem State.putBankWord_trust (s : State) (k : Nat) (v : BankWord) : (s.putBankWord k v).trust = s.trust := rfl
@[simp] theorem State.putBankWord_cond (s : State) (k : Nat) (v : BankWord) : (s.putBankWord k v).cond = s.cond := rfl
@[simp] theorem State.putBankWord_ckpts (s : State) (k : Nat) (v : BankWord) : (s.putBankWord k v).ckpts = s.ckpts := rfl
@[simp] theorem State.putBankWord_pair (s : State) (k : Nat) (v : BankWord) : (s.putBankWord k v).pair = s.pair := rfl
@[simp] theorem State.putBankWord_agent (s : State) (k : Nat) (v : BankWord) : (s.putBankWord k v).agent = s.agent := rfl
@[simp] theorem State.putBankWord_power (s : State) (k : Nat) (v : BankWord) : (s.putBankWord k v).power = s.power := rfl
@[simp] theorem State.putBankWord_phys (s : State) (k : Nat) (v : BankWord) : (s.putBankWord k v).phys = s.phys := rfl
@[simp] theorem State.putBankWord_cnt (s : State) (k : Nat) (v : BankWord) : (s.putBankWord k v).cnt = s.cnt := rfl
@[simp] theorem State.putBankWord_mainSince (s : State) (k : Nat) (v : BankWord) : (s.putBankWord k v).mainSince = s.mainSince := rfl
@[simp] theorem State.putBankWord_cntHeld (s : State) (k : Nat) (v : BankWord) : (s.putBankWord k v).cntHeld = s.cntHeld := rfl
@[simp] theorem State.putBankWord_always (s : State) (k : Nat) (v : BankWord) : (s.putBankWord k v).always = s.always := rfl
@[simp] theorem State.putBankWord_linkCnt (s : State) (k : Nat) (v : BankWord) : (s.putBankWord k v).linkCnt = s.linkCnt := rfl
@[simp] theorem State.putBankWord_ssSeq (s : State) (k : Nat) (v : BankWord) : (s.putBankWord k v).ssSeq = s.ssSeq := rfl
@[simp] theorem State.putBankWord_ssBusy (s : State) (k : Nat) (v : BankWord) : (s.putBankWord k v).ssBusy = s.ssBusy := rfl
@[simp] theorem State.putBankWord_ssSkippedBefore (s : State) (k : Nat) (v : BankWord) : (s.putBankWord k v).ssSkippedBefore = s.ssSkippedBefore := rfl
@[simp] theorem State.putBankWord_ssRecord (s : State) (k : Nat) (v : BankWord) : (s.putBankWord k v).ssRecord = s.ssRecord := rfl
@[simp] theorem State.putBankWord_ssPending (s : State) (k : Nat) (v : BankWord) : (s.putBankWord k v).ssPending = s.ssPending := rfl
@[simp] theorem State.putBankWord_mismatchHours (s : State) (k : Nat) (v : BankWord) : (s.putBankWord k v).mismatchHours = s.mismatchHours := rfl

/-! ## The entry of `ctxs` -/

@[simp] theorem State.putCtx_pending (s : State) (k : Nat) (v : PipCtx) : (s.putCtx k v).pending = s.pending := rfl
@[simp] theorem State.putCtx_now (s : State) (k : Nat) (v : PipCtx) : (s.putCtx k v).now = s.now := rfl
@[simp] theorem State.putCtx_tick (s : State) (k : Nat) (v : PipCtx) : (s.putCtx k v).tick = s.tick := rfl
@[simp] theorem State.putCtx_fresh (s : State) (k : Nat) (v : PipCtx) : (s.putCtx k v).fresh = s.fresh := rfl
@[simp] theorem State.putCtx_out (s : State) (k : Nat) (v : PipCtx) : (s.putCtx k v).out = s.out := rfl
@[simp] theorem State.putCtx_carried (s : State) (k : Nat) (v : PipCtx) : (s.putCtx k v).carried = s.carried := rfl
@[simp] theorem State.putCtx_regs (s : State) (k : Nat) (v : PipCtx) : (s.putCtx k v).regs = s.regs := rfl
@[simp] theorem State.putCtx_plane (s : State) (k : Nat) (v : PipCtx) : (s.putCtx k v).plane = s.plane := rfl
@[simp] theorem State.putCtx_tray (s : State) (k : Nat) (v : PipCtx) : (s.putCtx k v).tray = s.tray := rfl
@[simp] theorem State.putCtx_plan (s : State) (k : Nat) (v : PipCtx) : (s.putCtx k v).plan = s.plan := rfl
@[simp] theorem State.putCtx_planLive (s : State) (k : Nat) (v : PipCtx) : (s.putCtx k v).planLive = s.planLive := rfl
@[simp] theorem State.putCtx_planHash (s : State) (k : Nat) (v : PipCtx) : (s.putCtx k v).planHash = s.planHash := rfl
@[simp] theorem State.putCtx_ports (s : State) (k : Nat) (v : PipCtx) : (s.putCtx k v).ports = s.ports := rfl
@[simp] theorem State.putCtx_lanes (s : State) (k : Nat) (v : PipCtx) : (s.putCtx k v).lanes = s.lanes := rfl
@[simp] theorem State.putCtx_tx (s : State) (k : Nat) (v : PipCtx) : (s.putCtx k v).tx = s.tx := rfl
@[simp] theorem State.putCtx_lines (s : State) (k : Nat) (v : PipCtx) : (s.putCtx k v).lines = s.lines := rfl
@[simp] theorem State.putCtx_rx (s : State) (k : Nat) (v : PipCtx) : (s.putCtx k v).rx = s.rx := rfl
@[simp] theorem State.putCtx_inq (s : State) (k : Nat) (v : PipCtx) : (s.putCtx k v).inq = s.inq := rfl
@[simp] theorem State.putCtx_outq (s : State) (k : Nat) (v : PipCtx) : (s.putCtx k v).outq = s.outq := rfl
@[simp] theorem State.putCtx_vcbuf (s : State) (k : Nat) (v : PipCtx) : (s.putCtx k v).vcbuf = s.vcbuf := rfl
@[simp] theorem State.putCtx_qcharge (s : State) (k : Nat) (v : PipCtx) : (s.putCtx k v).qcharge = s.qcharge := rfl
@[simp] theorem State.putCtx_shared (s : State) (k : Nat) (v : PipCtx) : (s.putCtx k v).shared = s.shared := rfl
@[simp] theorem State.putCtx_arb (s : State) (k : Nat) (v : PipCtx) : (s.putCtx k v).arb = s.arb := rfl
@[simp] theorem State.putCtx_tables (s : State) (k : Nat) (v : PipCtx) : (s.putCtx k v).tables = s.tables := rfl
@[simp] theorem State.putCtx_shadow (s : State) (k : Nat) (v : PipCtx) : (s.putCtx k v).shadow = s.shadow := rfl
@[simp] theorem State.putCtx_escVia (s : State) (k : Nat) (v : PipCtx) : (s.putCtx k v).escVia = s.escVia := rfl
@[simp] theorem State.putCtx_lfsr (s : State) (k : Nat) (v : PipCtx) : (s.putCtx k v).lfsr = s.lfsr := rfl
@[simp] theorem State.putCtx_inFlows (s : State) (k : Nat) (v : PipCtx) : (s.putCtx k v).inFlows = s.inFlows := rfl
@[simp] theorem State.putCtx_egFlows (s : State) (k : Nat) (v : PipCtx) : (s.putCtx k v).egFlows = s.egFlows := rfl
@[simp] theorem State.putCtx_buckets (s : State) (k : Nat) (v : PipCtx) : (s.putCtx k v).buckets = s.buckets := rfl
@[simp] theorem State.putCtx_local_ (s : State) (k : Nat) (v : PipCtx) : (s.putCtx k v).local_ = s.local_ := rfl
@[simp] theorem State.putCtx_cellWait (s : State) (k : Nat) (v : PipCtx) : (s.putCtx k v).cellWait = s.cellWait := rfl
@[simp] theorem State.putCtx_notices (s : State) (k : Nat) (v : PipCtx) : (s.putCtx k v).notices = s.notices := rfl
@[simp] theorem State.putCtx_heldPkts (s : State) (k : Nat) (v : PipCtx) : (s.putCtx k v).heldPkts = s.heldPkts := rfl
@[simp] theorem State.putCtx_unitEvents (s : State) (k : Nat) (v : PipCtx) : (s.putCtx k v).unitEvents = s.unitEvents := rfl
@[simp] theorem State.putCtx_nextCast (s : State) (k : Nat) (v : PipCtx) : (s.putCtx k v).nextCast = s.nextCast := rfl
@[simp] theorem State.putCtx_bindCount (s : State) (k : Nat) (v : PipCtx) : (s.putCtx k v).bindCount = s.bindCount := rfl
@[simp] theorem State.putCtx_instCount (s : State) (k : Nat) (v : PipCtx) : (s.putCtx k v).instCount = s.instCount := rfl
@[simp] theorem State.putCtx_topDown (s : State) (k : Nat) (v : PipCtx) : (s.putCtx k v).topDown = s.topDown := rfl
@[simp] theorem State.putCtx_waitCmds (s : State) (k : Nat) (v : PipCtx) : (s.putCtx k v).waitCmds = s.waitCmds := rfl
@[simp] theorem State.putCtx_restarting (s : State) (k : Nat) (v : PipCtx) : (s.putCtx k v).restarting = s.restarting := rfl
@[simp] theorem State.putCtx_verifySlices (s : State) (k : Nat) (v : PipCtx) : (s.putCtx k v).verifySlices = s.verifySlices := rfl
@[simp] theorem State.putCtx_groups (s : State) (k : Nat) (v : PipCtx) : (s.putCtx k v).groups = s.groups := rfl
@[simp] theorem State.putCtx_slots (s : State) (k : Nat) (v : PipCtx) : (s.putCtx k v).slots = s.slots := rfl
@[simp] theorem State.putCtx_bindWaits (s : State) (k : Nat) (v : PipCtx) : (s.putCtx k v).bindWaits = s.bindWaits := rfl
@[simp] theorem State.putCtx_insts (s : State) (k : Nat) (v : PipCtx) : (s.putCtx k v).insts = s.insts := rfl
@[simp] theorem State.putCtx_banks (s : State) (k : Nat) (v : PipCtx) : (s.putCtx k v).banks = s.banks := rfl
@[simp] theorem State.putCtx_retired (s : State) (k : Nat) (v : PipCtx) : (s.putCtx k v).retired = s.retired := rfl
@[simp] theorem State.putCtx_spares (s : State) (k : Nat) (v : PipCtx) : (s.putCtx k v).spares = s.spares := rfl
@[simp] theorem State.putCtx_symTimes (s : State) (k : Nat) (v : PipCtx) : (s.putCtx k v).symTimes = s.symTimes := rfl
@[simp] theorem State.putCtx_ueWords (s : State) (k : Nat) (v : PipCtx) : (s.putCtx k v).ueWords = s.ueWords := rfl
@[simp] theorem State.putCtx_retireAsk (s : State) (k : Nat) (v : PipCtx) : (s.putCtx k v).retireAsk = s.retireAsk := rfl
@[simp] theorem State.putCtx_recarve (s : State) (k : Nat) (v : PipCtx) : (s.putCtx k v).recarve = s.recarve := rfl
@[simp] theorem State.putCtx_outOfService (s : State) (k : Nat) (v : PipCtx) : (s.putCtx k v).outOfService = s.outOfService := rfl
@[simp] theorem State.putCtx_cdcOut (s : State) (k : Nat) (v : PipCtx) : (s.putCtx k v).cdcOut = s.cdcOut := rfl
@[simp] theorem State.putCtx_dmaCount (s : State) (k : Nat) (v : PipCtx) : (s.putCtx k v).dmaCount = s.dmaCount := rfl
@[simp] theorem State.putCtx_coreFenced (s : State) (k : Nat) (v : PipCtx) : (s.putCtx k v).coreFenced = s.coreFenced := rfl
@[simp] theorem State.putCtx_rrCtx (s : State) (k : Nat) (v : PipCtx) : (s.putCtx k v).rrCtx = s.rrCtx := rfl
@[simp] theorem State.putCtx_programs (s : State) (k : Nat) (v : PipCtx) : (s.putCtx k v).programs = s.programs := rfl
@[simp] theorem State.putCtx_mem (s : State) (k : Nat) (v : PipCtx) : (s.putCtx k v).mem = s.mem := rfl
@[simp] theorem State.putCtx_memPoison (s : State) (k : Nat) (v : PipCtx) : (s.putCtx k v).memPoison = s.memPoison := rfl
@[simp] theorem State.putCtx_memReads (s : State) (k : Nat) (v : PipCtx) : (s.putCtx k v).memReads = s.memReads := rfl
@[simp] theorem State.putCtx_nextMemTag (s : State) (k : Nat) (v : PipCtx) : (s.putCtx k v).nextMemTag = s.nextMemTag := rfl
@[simp] theorem State.putCtx_ownReqs (s : State) (k : Nat) (v : PipCtx) : (s.putCtx k v).ownReqs = s.ownReqs := rfl
@[simp] theorem State.putCtx_ownRsps (s : State) (k : Nat) (v : PipCtx) : (s.putCtx k v).ownRsps = s.ownRsps := rfl
@[simp] theorem State.putCtx_scrubPos (s : State) (k : Nat) (v : PipCtx) : (s.putCtx k v).scrubPos = s.scrubPos := rfl
@[simp] theorem State.putCtx_scrubClock (s : State) (k : Nat) (v : PipCtx) : (s.putCtx k v).scrubClock = s.scrubClock := rfl
@[simp] theorem State.putCtx_scrubMark (s : State) (k : Nat) (v : PipCtx) : (s.putCtx k v).scrubMark = s.scrubMark := rfl
@[simp] theorem State.putCtx_refreshes (s : State) (k : Nat) (v : PipCtx) : (s.putCtx k v).refreshes = s.refreshes := rfl
@[simp] theorem State.putCtx_streams (s : State) (k : Nat) (v : PipCtx) : (s.putCtx k v).streams = s.streams := rfl
@[simp] theorem State.putCtx_streamShadow (s : State) (k : Nat) (v : PipCtx) : (s.putCtx k v).streamShadow = s.streamShadow := rfl
@[simp] theorem State.putCtx_runs (s : State) (k : Nat) (v : PipCtx) : (s.putCtx k v).runs = s.runs := rfl
@[simp] theorem State.putCtx_sepoch (s : State) (k : Nat) (v : PipCtx) : (s.putCtx k v).sepoch = s.sepoch := rfl
@[simp] theorem State.putCtx_streamSwitch (s : State) (k : Nat) (v : PipCtx) : (s.putCtx k v).streamSwitch = s.streamSwitch := rfl
@[simp] theorem State.putCtx_streamHeld (s : State) (k : Nat) (v : PipCtx) : (s.putCtx k v).streamHeld = s.streamHeld := rfl
@[simp] theorem State.putCtx_streamTurn (s : State) (k : Nat) (v : PipCtx) : (s.putCtx k v).streamTurn = s.streamTurn := rfl
@[simp] theorem State.putCtx_eth (s : State) (k : Nat) (v : PipCtx) : (s.putCtx k v).eth = s.eth := rfl
@[simp] theorem State.putCtx_ethAddr (s : State) (k : Nat) (v : PipCtx) : (s.putCtx k v).ethAddr = s.ethAddr := rfl
@[simp] theorem State.putCtx_dmaIdx (s : State) (k : Nat) (v : PipCtx) : (s.putCtx k v).dmaIdx = s.dmaIdx := rfl
@[simp] theorem State.putCtx_dmaRecheck (s : State) (k : Nat) (v : PipCtx) : (s.putCtx k v).dmaRecheck = s.dmaRecheck := rfl
@[simp] theorem State.putCtx_msixTable (s : State) (k : Nat) (v : PipCtx) : (s.putCtx k v).msixTable = s.msixTable := rfl
@[simp] theorem State.putCtx_pba (s : State) (k : Nat) (v : PipCtx) : (s.putCtx k v).pba = s.pba := rfl
@[simp] theorem State.putCtx_mbx (s : State) (k : Nat) (v : PipCtx) : (s.putCtx k v).mbx = s.mbx := rfl
@[simp] theorem State.putCtx_mbxImage (s : State) (k : Nat) (v : PipCtx) : (s.putCtx k v).mbxImage = s.mbxImage := rfl
@[simp] theorem State.putCtx_stored (s : State) (k : Nat) (v : PipCtx) : (s.putCtx k v).stored = s.stored := rfl
@[simp] theorem State.putCtx_hello (s : State) (k : Nat) (v : PipCtx) : (s.putCtx k v).hello = s.hello := rfl
@[simp] theorem State.putCtx_grants (s : State) (k : Nat) (v : PipCtx) : (s.putCtx k v).grants = s.grants := rfl
@[simp] theorem State.putCtx_stages (s : State) (k : Nat) (v : PipCtx) : (s.putCtx k v).stages = s.stages := rfl
@[simp] theorem State.putCtx_recvCount (s : State) (k : Nat) (v : PipCtx) : (s.putCtx k v).recvCount = s.recvCount := rfl
@[simp] theorem State.putCtx_errs (s : State) (k : Nat) (v : PipCtx) : (s.putCtx k v).errs = s.errs := rfl
@[simp] theorem State.putCtx_rseq (s : State) (k : Nat) (v : PipCtx) : (s.putCtx k v).rseq = s.rseq := rfl
@[simp] theorem State.putCtx_dice (s : State) (k : Nat) (v : PipCtx) : (s.putCtx k v).dice = s.dice := rfl
@[simp] theorem State.putCtx_ledger (s : State) (k : Nat) (v : PipCtx) : (s.putCtx k v).ledger = s.ledger := rfl
@[simp] theorem State.putCtx_trust (s : State) (k : Nat) (v : PipCtx) : (s.putCtx k v).trust = s.trust := rfl
@[simp] theorem State.putCtx_cond (s : State) (k : Nat) (v : PipCtx) : (s.putCtx k v).cond = s.cond := rfl
@[simp] theorem State.putCtx_ckpts (s : State) (k : Nat) (v : PipCtx) : (s.putCtx k v).ckpts = s.ckpts := rfl
@[simp] theorem State.putCtx_pair (s : State) (k : Nat) (v : PipCtx) : (s.putCtx k v).pair = s.pair := rfl
@[simp] theorem State.putCtx_agent (s : State) (k : Nat) (v : PipCtx) : (s.putCtx k v).agent = s.agent := rfl
@[simp] theorem State.putCtx_power (s : State) (k : Nat) (v : PipCtx) : (s.putCtx k v).power = s.power := rfl
@[simp] theorem State.putCtx_phys (s : State) (k : Nat) (v : PipCtx) : (s.putCtx k v).phys = s.phys := rfl
@[simp] theorem State.putCtx_cnt (s : State) (k : Nat) (v : PipCtx) : (s.putCtx k v).cnt = s.cnt := rfl
@[simp] theorem State.putCtx_mainSince (s : State) (k : Nat) (v : PipCtx) : (s.putCtx k v).mainSince = s.mainSince := rfl
@[simp] theorem State.putCtx_cntHeld (s : State) (k : Nat) (v : PipCtx) : (s.putCtx k v).cntHeld = s.cntHeld := rfl
@[simp] theorem State.putCtx_always (s : State) (k : Nat) (v : PipCtx) : (s.putCtx k v).always = s.always := rfl
@[simp] theorem State.putCtx_linkCnt (s : State) (k : Nat) (v : PipCtx) : (s.putCtx k v).linkCnt = s.linkCnt := rfl
@[simp] theorem State.putCtx_ssSeq (s : State) (k : Nat) (v : PipCtx) : (s.putCtx k v).ssSeq = s.ssSeq := rfl
@[simp] theorem State.putCtx_ssBusy (s : State) (k : Nat) (v : PipCtx) : (s.putCtx k v).ssBusy = s.ssBusy := rfl
@[simp] theorem State.putCtx_ssSkippedBefore (s : State) (k : Nat) (v : PipCtx) : (s.putCtx k v).ssSkippedBefore = s.ssSkippedBefore := rfl
@[simp] theorem State.putCtx_ssRecord (s : State) (k : Nat) (v : PipCtx) : (s.putCtx k v).ssRecord = s.ssRecord := rfl
@[simp] theorem State.putCtx_ssPending (s : State) (k : Nat) (v : PipCtx) : (s.putCtx k v).ssPending = s.ssPending := rfl
@[simp] theorem State.putCtx_mismatchHours (s : State) (k : Nat) (v : PipCtx) : (s.putCtx k v).mismatchHours = s.mismatchHours := rfl

/-! ## The entry of `streams` -/

@[simp] theorem State.putStreamOf_pending (s : State) (k : Nat) (v : StreamEntry) : (s.putStreamOf k v).pending = s.pending := rfl
@[simp] theorem State.putStreamOf_now (s : State) (k : Nat) (v : StreamEntry) : (s.putStreamOf k v).now = s.now := rfl
@[simp] theorem State.putStreamOf_tick (s : State) (k : Nat) (v : StreamEntry) : (s.putStreamOf k v).tick = s.tick := rfl
@[simp] theorem State.putStreamOf_fresh (s : State) (k : Nat) (v : StreamEntry) : (s.putStreamOf k v).fresh = s.fresh := rfl
@[simp] theorem State.putStreamOf_out (s : State) (k : Nat) (v : StreamEntry) : (s.putStreamOf k v).out = s.out := rfl
@[simp] theorem State.putStreamOf_carried (s : State) (k : Nat) (v : StreamEntry) : (s.putStreamOf k v).carried = s.carried := rfl
@[simp] theorem State.putStreamOf_regs (s : State) (k : Nat) (v : StreamEntry) : (s.putStreamOf k v).regs = s.regs := rfl
@[simp] theorem State.putStreamOf_plane (s : State) (k : Nat) (v : StreamEntry) : (s.putStreamOf k v).plane = s.plane := rfl
@[simp] theorem State.putStreamOf_tray (s : State) (k : Nat) (v : StreamEntry) : (s.putStreamOf k v).tray = s.tray := rfl
@[simp] theorem State.putStreamOf_plan (s : State) (k : Nat) (v : StreamEntry) : (s.putStreamOf k v).plan = s.plan := rfl
@[simp] theorem State.putStreamOf_planLive (s : State) (k : Nat) (v : StreamEntry) : (s.putStreamOf k v).planLive = s.planLive := rfl
@[simp] theorem State.putStreamOf_planHash (s : State) (k : Nat) (v : StreamEntry) : (s.putStreamOf k v).planHash = s.planHash := rfl
@[simp] theorem State.putStreamOf_ports (s : State) (k : Nat) (v : StreamEntry) : (s.putStreamOf k v).ports = s.ports := rfl
@[simp] theorem State.putStreamOf_lanes (s : State) (k : Nat) (v : StreamEntry) : (s.putStreamOf k v).lanes = s.lanes := rfl
@[simp] theorem State.putStreamOf_tx (s : State) (k : Nat) (v : StreamEntry) : (s.putStreamOf k v).tx = s.tx := rfl
@[simp] theorem State.putStreamOf_lines (s : State) (k : Nat) (v : StreamEntry) : (s.putStreamOf k v).lines = s.lines := rfl
@[simp] theorem State.putStreamOf_rx (s : State) (k : Nat) (v : StreamEntry) : (s.putStreamOf k v).rx = s.rx := rfl
@[simp] theorem State.putStreamOf_inq (s : State) (k : Nat) (v : StreamEntry) : (s.putStreamOf k v).inq = s.inq := rfl
@[simp] theorem State.putStreamOf_outq (s : State) (k : Nat) (v : StreamEntry) : (s.putStreamOf k v).outq = s.outq := rfl
@[simp] theorem State.putStreamOf_vcbuf (s : State) (k : Nat) (v : StreamEntry) : (s.putStreamOf k v).vcbuf = s.vcbuf := rfl
@[simp] theorem State.putStreamOf_qcharge (s : State) (k : Nat) (v : StreamEntry) : (s.putStreamOf k v).qcharge = s.qcharge := rfl
@[simp] theorem State.putStreamOf_shared (s : State) (k : Nat) (v : StreamEntry) : (s.putStreamOf k v).shared = s.shared := rfl
@[simp] theorem State.putStreamOf_arb (s : State) (k : Nat) (v : StreamEntry) : (s.putStreamOf k v).arb = s.arb := rfl
@[simp] theorem State.putStreamOf_tables (s : State) (k : Nat) (v : StreamEntry) : (s.putStreamOf k v).tables = s.tables := rfl
@[simp] theorem State.putStreamOf_shadow (s : State) (k : Nat) (v : StreamEntry) : (s.putStreamOf k v).shadow = s.shadow := rfl
@[simp] theorem State.putStreamOf_escVia (s : State) (k : Nat) (v : StreamEntry) : (s.putStreamOf k v).escVia = s.escVia := rfl
@[simp] theorem State.putStreamOf_lfsr (s : State) (k : Nat) (v : StreamEntry) : (s.putStreamOf k v).lfsr = s.lfsr := rfl
@[simp] theorem State.putStreamOf_inFlows (s : State) (k : Nat) (v : StreamEntry) : (s.putStreamOf k v).inFlows = s.inFlows := rfl
@[simp] theorem State.putStreamOf_egFlows (s : State) (k : Nat) (v : StreamEntry) : (s.putStreamOf k v).egFlows = s.egFlows := rfl
@[simp] theorem State.putStreamOf_buckets (s : State) (k : Nat) (v : StreamEntry) : (s.putStreamOf k v).buckets = s.buckets := rfl
@[simp] theorem State.putStreamOf_local_ (s : State) (k : Nat) (v : StreamEntry) : (s.putStreamOf k v).local_ = s.local_ := rfl
@[simp] theorem State.putStreamOf_cellWait (s : State) (k : Nat) (v : StreamEntry) : (s.putStreamOf k v).cellWait = s.cellWait := rfl
@[simp] theorem State.putStreamOf_notices (s : State) (k : Nat) (v : StreamEntry) : (s.putStreamOf k v).notices = s.notices := rfl
@[simp] theorem State.putStreamOf_heldPkts (s : State) (k : Nat) (v : StreamEntry) : (s.putStreamOf k v).heldPkts = s.heldPkts := rfl
@[simp] theorem State.putStreamOf_unitEvents (s : State) (k : Nat) (v : StreamEntry) : (s.putStreamOf k v).unitEvents = s.unitEvents := rfl
@[simp] theorem State.putStreamOf_nextCast (s : State) (k : Nat) (v : StreamEntry) : (s.putStreamOf k v).nextCast = s.nextCast := rfl
@[simp] theorem State.putStreamOf_bindCount (s : State) (k : Nat) (v : StreamEntry) : (s.putStreamOf k v).bindCount = s.bindCount := rfl
@[simp] theorem State.putStreamOf_instCount (s : State) (k : Nat) (v : StreamEntry) : (s.putStreamOf k v).instCount = s.instCount := rfl
@[simp] theorem State.putStreamOf_topDown (s : State) (k : Nat) (v : StreamEntry) : (s.putStreamOf k v).topDown = s.topDown := rfl
@[simp] theorem State.putStreamOf_waitCmds (s : State) (k : Nat) (v : StreamEntry) : (s.putStreamOf k v).waitCmds = s.waitCmds := rfl
@[simp] theorem State.putStreamOf_restarting (s : State) (k : Nat) (v : StreamEntry) : (s.putStreamOf k v).restarting = s.restarting := rfl
@[simp] theorem State.putStreamOf_verifySlices (s : State) (k : Nat) (v : StreamEntry) : (s.putStreamOf k v).verifySlices = s.verifySlices := rfl
@[simp] theorem State.putStreamOf_groups (s : State) (k : Nat) (v : StreamEntry) : (s.putStreamOf k v).groups = s.groups := rfl
@[simp] theorem State.putStreamOf_slots (s : State) (k : Nat) (v : StreamEntry) : (s.putStreamOf k v).slots = s.slots := rfl
@[simp] theorem State.putStreamOf_bindWaits (s : State) (k : Nat) (v : StreamEntry) : (s.putStreamOf k v).bindWaits = s.bindWaits := rfl
@[simp] theorem State.putStreamOf_insts (s : State) (k : Nat) (v : StreamEntry) : (s.putStreamOf k v).insts = s.insts := rfl
@[simp] theorem State.putStreamOf_banks (s : State) (k : Nat) (v : StreamEntry) : (s.putStreamOf k v).banks = s.banks := rfl
@[simp] theorem State.putStreamOf_retired (s : State) (k : Nat) (v : StreamEntry) : (s.putStreamOf k v).retired = s.retired := rfl
@[simp] theorem State.putStreamOf_spares (s : State) (k : Nat) (v : StreamEntry) : (s.putStreamOf k v).spares = s.spares := rfl
@[simp] theorem State.putStreamOf_symTimes (s : State) (k : Nat) (v : StreamEntry) : (s.putStreamOf k v).symTimes = s.symTimes := rfl
@[simp] theorem State.putStreamOf_ueWords (s : State) (k : Nat) (v : StreamEntry) : (s.putStreamOf k v).ueWords = s.ueWords := rfl
@[simp] theorem State.putStreamOf_retireAsk (s : State) (k : Nat) (v : StreamEntry) : (s.putStreamOf k v).retireAsk = s.retireAsk := rfl
@[simp] theorem State.putStreamOf_recarve (s : State) (k : Nat) (v : StreamEntry) : (s.putStreamOf k v).recarve = s.recarve := rfl
@[simp] theorem State.putStreamOf_outOfService (s : State) (k : Nat) (v : StreamEntry) : (s.putStreamOf k v).outOfService = s.outOfService := rfl
@[simp] theorem State.putStreamOf_cdcOut (s : State) (k : Nat) (v : StreamEntry) : (s.putStreamOf k v).cdcOut = s.cdcOut := rfl
@[simp] theorem State.putStreamOf_dmaCount (s : State) (k : Nat) (v : StreamEntry) : (s.putStreamOf k v).dmaCount = s.dmaCount := rfl
@[simp] theorem State.putStreamOf_ctxs (s : State) (k : Nat) (v : StreamEntry) : (s.putStreamOf k v).ctxs = s.ctxs := rfl
@[simp] theorem State.putStreamOf_coreFenced (s : State) (k : Nat) (v : StreamEntry) : (s.putStreamOf k v).coreFenced = s.coreFenced := rfl
@[simp] theorem State.putStreamOf_rrCtx (s : State) (k : Nat) (v : StreamEntry) : (s.putStreamOf k v).rrCtx = s.rrCtx := rfl
@[simp] theorem State.putStreamOf_programs (s : State) (k : Nat) (v : StreamEntry) : (s.putStreamOf k v).programs = s.programs := rfl
@[simp] theorem State.putStreamOf_mem (s : State) (k : Nat) (v : StreamEntry) : (s.putStreamOf k v).mem = s.mem := rfl
@[simp] theorem State.putStreamOf_memPoison (s : State) (k : Nat) (v : StreamEntry) : (s.putStreamOf k v).memPoison = s.memPoison := rfl
@[simp] theorem State.putStreamOf_memReads (s : State) (k : Nat) (v : StreamEntry) : (s.putStreamOf k v).memReads = s.memReads := rfl
@[simp] theorem State.putStreamOf_nextMemTag (s : State) (k : Nat) (v : StreamEntry) : (s.putStreamOf k v).nextMemTag = s.nextMemTag := rfl
@[simp] theorem State.putStreamOf_ownReqs (s : State) (k : Nat) (v : StreamEntry) : (s.putStreamOf k v).ownReqs = s.ownReqs := rfl
@[simp] theorem State.putStreamOf_ownRsps (s : State) (k : Nat) (v : StreamEntry) : (s.putStreamOf k v).ownRsps = s.ownRsps := rfl
@[simp] theorem State.putStreamOf_scrubPos (s : State) (k : Nat) (v : StreamEntry) : (s.putStreamOf k v).scrubPos = s.scrubPos := rfl
@[simp] theorem State.putStreamOf_scrubClock (s : State) (k : Nat) (v : StreamEntry) : (s.putStreamOf k v).scrubClock = s.scrubClock := rfl
@[simp] theorem State.putStreamOf_scrubMark (s : State) (k : Nat) (v : StreamEntry) : (s.putStreamOf k v).scrubMark = s.scrubMark := rfl
@[simp] theorem State.putStreamOf_refreshes (s : State) (k : Nat) (v : StreamEntry) : (s.putStreamOf k v).refreshes = s.refreshes := rfl
@[simp] theorem State.putStreamOf_streamShadow (s : State) (k : Nat) (v : StreamEntry) : (s.putStreamOf k v).streamShadow = s.streamShadow := rfl
@[simp] theorem State.putStreamOf_runs (s : State) (k : Nat) (v : StreamEntry) : (s.putStreamOf k v).runs = s.runs := rfl
@[simp] theorem State.putStreamOf_sepoch (s : State) (k : Nat) (v : StreamEntry) : (s.putStreamOf k v).sepoch = s.sepoch := rfl
@[simp] theorem State.putStreamOf_streamSwitch (s : State) (k : Nat) (v : StreamEntry) : (s.putStreamOf k v).streamSwitch = s.streamSwitch := rfl
@[simp] theorem State.putStreamOf_streamHeld (s : State) (k : Nat) (v : StreamEntry) : (s.putStreamOf k v).streamHeld = s.streamHeld := rfl
@[simp] theorem State.putStreamOf_streamTurn (s : State) (k : Nat) (v : StreamEntry) : (s.putStreamOf k v).streamTurn = s.streamTurn := rfl
@[simp] theorem State.putStreamOf_eth (s : State) (k : Nat) (v : StreamEntry) : (s.putStreamOf k v).eth = s.eth := rfl
@[simp] theorem State.putStreamOf_ethAddr (s : State) (k : Nat) (v : StreamEntry) : (s.putStreamOf k v).ethAddr = s.ethAddr := rfl
@[simp] theorem State.putStreamOf_dmaIdx (s : State) (k : Nat) (v : StreamEntry) : (s.putStreamOf k v).dmaIdx = s.dmaIdx := rfl
@[simp] theorem State.putStreamOf_dmaRecheck (s : State) (k : Nat) (v : StreamEntry) : (s.putStreamOf k v).dmaRecheck = s.dmaRecheck := rfl
@[simp] theorem State.putStreamOf_msixTable (s : State) (k : Nat) (v : StreamEntry) : (s.putStreamOf k v).msixTable = s.msixTable := rfl
@[simp] theorem State.putStreamOf_pba (s : State) (k : Nat) (v : StreamEntry) : (s.putStreamOf k v).pba = s.pba := rfl
@[simp] theorem State.putStreamOf_mbx (s : State) (k : Nat) (v : StreamEntry) : (s.putStreamOf k v).mbx = s.mbx := rfl
@[simp] theorem State.putStreamOf_mbxImage (s : State) (k : Nat) (v : StreamEntry) : (s.putStreamOf k v).mbxImage = s.mbxImage := rfl
@[simp] theorem State.putStreamOf_stored (s : State) (k : Nat) (v : StreamEntry) : (s.putStreamOf k v).stored = s.stored := rfl
@[simp] theorem State.putStreamOf_hello (s : State) (k : Nat) (v : StreamEntry) : (s.putStreamOf k v).hello = s.hello := rfl
@[simp] theorem State.putStreamOf_grants (s : State) (k : Nat) (v : StreamEntry) : (s.putStreamOf k v).grants = s.grants := rfl
@[simp] theorem State.putStreamOf_stages (s : State) (k : Nat) (v : StreamEntry) : (s.putStreamOf k v).stages = s.stages := rfl
@[simp] theorem State.putStreamOf_recvCount (s : State) (k : Nat) (v : StreamEntry) : (s.putStreamOf k v).recvCount = s.recvCount := rfl
@[simp] theorem State.putStreamOf_errs (s : State) (k : Nat) (v : StreamEntry) : (s.putStreamOf k v).errs = s.errs := rfl
@[simp] theorem State.putStreamOf_rseq (s : State) (k : Nat) (v : StreamEntry) : (s.putStreamOf k v).rseq = s.rseq := rfl
@[simp] theorem State.putStreamOf_dice (s : State) (k : Nat) (v : StreamEntry) : (s.putStreamOf k v).dice = s.dice := rfl
@[simp] theorem State.putStreamOf_ledger (s : State) (k : Nat) (v : StreamEntry) : (s.putStreamOf k v).ledger = s.ledger := rfl
@[simp] theorem State.putStreamOf_trust (s : State) (k : Nat) (v : StreamEntry) : (s.putStreamOf k v).trust = s.trust := rfl
@[simp] theorem State.putStreamOf_cond (s : State) (k : Nat) (v : StreamEntry) : (s.putStreamOf k v).cond = s.cond := rfl
@[simp] theorem State.putStreamOf_ckpts (s : State) (k : Nat) (v : StreamEntry) : (s.putStreamOf k v).ckpts = s.ckpts := rfl
@[simp] theorem State.putStreamOf_pair (s : State) (k : Nat) (v : StreamEntry) : (s.putStreamOf k v).pair = s.pair := rfl
@[simp] theorem State.putStreamOf_agent (s : State) (k : Nat) (v : StreamEntry) : (s.putStreamOf k v).agent = s.agent := rfl
@[simp] theorem State.putStreamOf_power (s : State) (k : Nat) (v : StreamEntry) : (s.putStreamOf k v).power = s.power := rfl
@[simp] theorem State.putStreamOf_phys (s : State) (k : Nat) (v : StreamEntry) : (s.putStreamOf k v).phys = s.phys := rfl
@[simp] theorem State.putStreamOf_cnt (s : State) (k : Nat) (v : StreamEntry) : (s.putStreamOf k v).cnt = s.cnt := rfl
@[simp] theorem State.putStreamOf_mainSince (s : State) (k : Nat) (v : StreamEntry) : (s.putStreamOf k v).mainSince = s.mainSince := rfl
@[simp] theorem State.putStreamOf_cntHeld (s : State) (k : Nat) (v : StreamEntry) : (s.putStreamOf k v).cntHeld = s.cntHeld := rfl
@[simp] theorem State.putStreamOf_always (s : State) (k : Nat) (v : StreamEntry) : (s.putStreamOf k v).always = s.always := rfl
@[simp] theorem State.putStreamOf_linkCnt (s : State) (k : Nat) (v : StreamEntry) : (s.putStreamOf k v).linkCnt = s.linkCnt := rfl
@[simp] theorem State.putStreamOf_ssSeq (s : State) (k : Nat) (v : StreamEntry) : (s.putStreamOf k v).ssSeq = s.ssSeq := rfl
@[simp] theorem State.putStreamOf_ssBusy (s : State) (k : Nat) (v : StreamEntry) : (s.putStreamOf k v).ssBusy = s.ssBusy := rfl
@[simp] theorem State.putStreamOf_ssSkippedBefore (s : State) (k : Nat) (v : StreamEntry) : (s.putStreamOf k v).ssSkippedBefore = s.ssSkippedBefore := rfl
@[simp] theorem State.putStreamOf_ssRecord (s : State) (k : Nat) (v : StreamEntry) : (s.putStreamOf k v).ssRecord = s.ssRecord := rfl
@[simp] theorem State.putStreamOf_ssPending (s : State) (k : Nat) (v : StreamEntry) : (s.putStreamOf k v).ssPending = s.ssPending := rfl
@[simp] theorem State.putStreamOf_mismatchHours (s : State) (k : Nat) (v : StreamEntry) : (s.putStreamOf k v).mismatchHours = s.mismatchHours := rfl

/-! ## The entry of `streamShadow` -/

@[simp] theorem State.putStreamShadowOf_pending (s : State) (k : Nat) (v : StreamEntry) : (s.putStreamShadowOf k v).pending = s.pending := rfl
@[simp] theorem State.putStreamShadowOf_now (s : State) (k : Nat) (v : StreamEntry) : (s.putStreamShadowOf k v).now = s.now := rfl
@[simp] theorem State.putStreamShadowOf_tick (s : State) (k : Nat) (v : StreamEntry) : (s.putStreamShadowOf k v).tick = s.tick := rfl
@[simp] theorem State.putStreamShadowOf_fresh (s : State) (k : Nat) (v : StreamEntry) : (s.putStreamShadowOf k v).fresh = s.fresh := rfl
@[simp] theorem State.putStreamShadowOf_out (s : State) (k : Nat) (v : StreamEntry) : (s.putStreamShadowOf k v).out = s.out := rfl
@[simp] theorem State.putStreamShadowOf_carried (s : State) (k : Nat) (v : StreamEntry) : (s.putStreamShadowOf k v).carried = s.carried := rfl
@[simp] theorem State.putStreamShadowOf_regs (s : State) (k : Nat) (v : StreamEntry) : (s.putStreamShadowOf k v).regs = s.regs := rfl
@[simp] theorem State.putStreamShadowOf_plane (s : State) (k : Nat) (v : StreamEntry) : (s.putStreamShadowOf k v).plane = s.plane := rfl
@[simp] theorem State.putStreamShadowOf_tray (s : State) (k : Nat) (v : StreamEntry) : (s.putStreamShadowOf k v).tray = s.tray := rfl
@[simp] theorem State.putStreamShadowOf_plan (s : State) (k : Nat) (v : StreamEntry) : (s.putStreamShadowOf k v).plan = s.plan := rfl
@[simp] theorem State.putStreamShadowOf_planLive (s : State) (k : Nat) (v : StreamEntry) : (s.putStreamShadowOf k v).planLive = s.planLive := rfl
@[simp] theorem State.putStreamShadowOf_planHash (s : State) (k : Nat) (v : StreamEntry) : (s.putStreamShadowOf k v).planHash = s.planHash := rfl
@[simp] theorem State.putStreamShadowOf_ports (s : State) (k : Nat) (v : StreamEntry) : (s.putStreamShadowOf k v).ports = s.ports := rfl
@[simp] theorem State.putStreamShadowOf_lanes (s : State) (k : Nat) (v : StreamEntry) : (s.putStreamShadowOf k v).lanes = s.lanes := rfl
@[simp] theorem State.putStreamShadowOf_tx (s : State) (k : Nat) (v : StreamEntry) : (s.putStreamShadowOf k v).tx = s.tx := rfl
@[simp] theorem State.putStreamShadowOf_lines (s : State) (k : Nat) (v : StreamEntry) : (s.putStreamShadowOf k v).lines = s.lines := rfl
@[simp] theorem State.putStreamShadowOf_rx (s : State) (k : Nat) (v : StreamEntry) : (s.putStreamShadowOf k v).rx = s.rx := rfl
@[simp] theorem State.putStreamShadowOf_inq (s : State) (k : Nat) (v : StreamEntry) : (s.putStreamShadowOf k v).inq = s.inq := rfl
@[simp] theorem State.putStreamShadowOf_outq (s : State) (k : Nat) (v : StreamEntry) : (s.putStreamShadowOf k v).outq = s.outq := rfl
@[simp] theorem State.putStreamShadowOf_vcbuf (s : State) (k : Nat) (v : StreamEntry) : (s.putStreamShadowOf k v).vcbuf = s.vcbuf := rfl
@[simp] theorem State.putStreamShadowOf_qcharge (s : State) (k : Nat) (v : StreamEntry) : (s.putStreamShadowOf k v).qcharge = s.qcharge := rfl
@[simp] theorem State.putStreamShadowOf_shared (s : State) (k : Nat) (v : StreamEntry) : (s.putStreamShadowOf k v).shared = s.shared := rfl
@[simp] theorem State.putStreamShadowOf_arb (s : State) (k : Nat) (v : StreamEntry) : (s.putStreamShadowOf k v).arb = s.arb := rfl
@[simp] theorem State.putStreamShadowOf_tables (s : State) (k : Nat) (v : StreamEntry) : (s.putStreamShadowOf k v).tables = s.tables := rfl
@[simp] theorem State.putStreamShadowOf_shadow (s : State) (k : Nat) (v : StreamEntry) : (s.putStreamShadowOf k v).shadow = s.shadow := rfl
@[simp] theorem State.putStreamShadowOf_escVia (s : State) (k : Nat) (v : StreamEntry) : (s.putStreamShadowOf k v).escVia = s.escVia := rfl
@[simp] theorem State.putStreamShadowOf_lfsr (s : State) (k : Nat) (v : StreamEntry) : (s.putStreamShadowOf k v).lfsr = s.lfsr := rfl
@[simp] theorem State.putStreamShadowOf_inFlows (s : State) (k : Nat) (v : StreamEntry) : (s.putStreamShadowOf k v).inFlows = s.inFlows := rfl
@[simp] theorem State.putStreamShadowOf_egFlows (s : State) (k : Nat) (v : StreamEntry) : (s.putStreamShadowOf k v).egFlows = s.egFlows := rfl
@[simp] theorem State.putStreamShadowOf_buckets (s : State) (k : Nat) (v : StreamEntry) : (s.putStreamShadowOf k v).buckets = s.buckets := rfl
@[simp] theorem State.putStreamShadowOf_local_ (s : State) (k : Nat) (v : StreamEntry) : (s.putStreamShadowOf k v).local_ = s.local_ := rfl
@[simp] theorem State.putStreamShadowOf_cellWait (s : State) (k : Nat) (v : StreamEntry) : (s.putStreamShadowOf k v).cellWait = s.cellWait := rfl
@[simp] theorem State.putStreamShadowOf_notices (s : State) (k : Nat) (v : StreamEntry) : (s.putStreamShadowOf k v).notices = s.notices := rfl
@[simp] theorem State.putStreamShadowOf_heldPkts (s : State) (k : Nat) (v : StreamEntry) : (s.putStreamShadowOf k v).heldPkts = s.heldPkts := rfl
@[simp] theorem State.putStreamShadowOf_unitEvents (s : State) (k : Nat) (v : StreamEntry) : (s.putStreamShadowOf k v).unitEvents = s.unitEvents := rfl
@[simp] theorem State.putStreamShadowOf_nextCast (s : State) (k : Nat) (v : StreamEntry) : (s.putStreamShadowOf k v).nextCast = s.nextCast := rfl
@[simp] theorem State.putStreamShadowOf_bindCount (s : State) (k : Nat) (v : StreamEntry) : (s.putStreamShadowOf k v).bindCount = s.bindCount := rfl
@[simp] theorem State.putStreamShadowOf_instCount (s : State) (k : Nat) (v : StreamEntry) : (s.putStreamShadowOf k v).instCount = s.instCount := rfl
@[simp] theorem State.putStreamShadowOf_topDown (s : State) (k : Nat) (v : StreamEntry) : (s.putStreamShadowOf k v).topDown = s.topDown := rfl
@[simp] theorem State.putStreamShadowOf_waitCmds (s : State) (k : Nat) (v : StreamEntry) : (s.putStreamShadowOf k v).waitCmds = s.waitCmds := rfl
@[simp] theorem State.putStreamShadowOf_restarting (s : State) (k : Nat) (v : StreamEntry) : (s.putStreamShadowOf k v).restarting = s.restarting := rfl
@[simp] theorem State.putStreamShadowOf_verifySlices (s : State) (k : Nat) (v : StreamEntry) : (s.putStreamShadowOf k v).verifySlices = s.verifySlices := rfl
@[simp] theorem State.putStreamShadowOf_groups (s : State) (k : Nat) (v : StreamEntry) : (s.putStreamShadowOf k v).groups = s.groups := rfl
@[simp] theorem State.putStreamShadowOf_slots (s : State) (k : Nat) (v : StreamEntry) : (s.putStreamShadowOf k v).slots = s.slots := rfl
@[simp] theorem State.putStreamShadowOf_bindWaits (s : State) (k : Nat) (v : StreamEntry) : (s.putStreamShadowOf k v).bindWaits = s.bindWaits := rfl
@[simp] theorem State.putStreamShadowOf_insts (s : State) (k : Nat) (v : StreamEntry) : (s.putStreamShadowOf k v).insts = s.insts := rfl
@[simp] theorem State.putStreamShadowOf_banks (s : State) (k : Nat) (v : StreamEntry) : (s.putStreamShadowOf k v).banks = s.banks := rfl
@[simp] theorem State.putStreamShadowOf_retired (s : State) (k : Nat) (v : StreamEntry) : (s.putStreamShadowOf k v).retired = s.retired := rfl
@[simp] theorem State.putStreamShadowOf_spares (s : State) (k : Nat) (v : StreamEntry) : (s.putStreamShadowOf k v).spares = s.spares := rfl
@[simp] theorem State.putStreamShadowOf_symTimes (s : State) (k : Nat) (v : StreamEntry) : (s.putStreamShadowOf k v).symTimes = s.symTimes := rfl
@[simp] theorem State.putStreamShadowOf_ueWords (s : State) (k : Nat) (v : StreamEntry) : (s.putStreamShadowOf k v).ueWords = s.ueWords := rfl
@[simp] theorem State.putStreamShadowOf_retireAsk (s : State) (k : Nat) (v : StreamEntry) : (s.putStreamShadowOf k v).retireAsk = s.retireAsk := rfl
@[simp] theorem State.putStreamShadowOf_recarve (s : State) (k : Nat) (v : StreamEntry) : (s.putStreamShadowOf k v).recarve = s.recarve := rfl
@[simp] theorem State.putStreamShadowOf_outOfService (s : State) (k : Nat) (v : StreamEntry) : (s.putStreamShadowOf k v).outOfService = s.outOfService := rfl
@[simp] theorem State.putStreamShadowOf_cdcOut (s : State) (k : Nat) (v : StreamEntry) : (s.putStreamShadowOf k v).cdcOut = s.cdcOut := rfl
@[simp] theorem State.putStreamShadowOf_dmaCount (s : State) (k : Nat) (v : StreamEntry) : (s.putStreamShadowOf k v).dmaCount = s.dmaCount := rfl
@[simp] theorem State.putStreamShadowOf_ctxs (s : State) (k : Nat) (v : StreamEntry) : (s.putStreamShadowOf k v).ctxs = s.ctxs := rfl
@[simp] theorem State.putStreamShadowOf_coreFenced (s : State) (k : Nat) (v : StreamEntry) : (s.putStreamShadowOf k v).coreFenced = s.coreFenced := rfl
@[simp] theorem State.putStreamShadowOf_rrCtx (s : State) (k : Nat) (v : StreamEntry) : (s.putStreamShadowOf k v).rrCtx = s.rrCtx := rfl
@[simp] theorem State.putStreamShadowOf_programs (s : State) (k : Nat) (v : StreamEntry) : (s.putStreamShadowOf k v).programs = s.programs := rfl
@[simp] theorem State.putStreamShadowOf_mem (s : State) (k : Nat) (v : StreamEntry) : (s.putStreamShadowOf k v).mem = s.mem := rfl
@[simp] theorem State.putStreamShadowOf_memPoison (s : State) (k : Nat) (v : StreamEntry) : (s.putStreamShadowOf k v).memPoison = s.memPoison := rfl
@[simp] theorem State.putStreamShadowOf_memReads (s : State) (k : Nat) (v : StreamEntry) : (s.putStreamShadowOf k v).memReads = s.memReads := rfl
@[simp] theorem State.putStreamShadowOf_nextMemTag (s : State) (k : Nat) (v : StreamEntry) : (s.putStreamShadowOf k v).nextMemTag = s.nextMemTag := rfl
@[simp] theorem State.putStreamShadowOf_ownReqs (s : State) (k : Nat) (v : StreamEntry) : (s.putStreamShadowOf k v).ownReqs = s.ownReqs := rfl
@[simp] theorem State.putStreamShadowOf_ownRsps (s : State) (k : Nat) (v : StreamEntry) : (s.putStreamShadowOf k v).ownRsps = s.ownRsps := rfl
@[simp] theorem State.putStreamShadowOf_scrubPos (s : State) (k : Nat) (v : StreamEntry) : (s.putStreamShadowOf k v).scrubPos = s.scrubPos := rfl
@[simp] theorem State.putStreamShadowOf_scrubClock (s : State) (k : Nat) (v : StreamEntry) : (s.putStreamShadowOf k v).scrubClock = s.scrubClock := rfl
@[simp] theorem State.putStreamShadowOf_scrubMark (s : State) (k : Nat) (v : StreamEntry) : (s.putStreamShadowOf k v).scrubMark = s.scrubMark := rfl
@[simp] theorem State.putStreamShadowOf_refreshes (s : State) (k : Nat) (v : StreamEntry) : (s.putStreamShadowOf k v).refreshes = s.refreshes := rfl
@[simp] theorem State.putStreamShadowOf_streams (s : State) (k : Nat) (v : StreamEntry) : (s.putStreamShadowOf k v).streams = s.streams := rfl
@[simp] theorem State.putStreamShadowOf_runs (s : State) (k : Nat) (v : StreamEntry) : (s.putStreamShadowOf k v).runs = s.runs := rfl
@[simp] theorem State.putStreamShadowOf_sepoch (s : State) (k : Nat) (v : StreamEntry) : (s.putStreamShadowOf k v).sepoch = s.sepoch := rfl
@[simp] theorem State.putStreamShadowOf_streamSwitch (s : State) (k : Nat) (v : StreamEntry) : (s.putStreamShadowOf k v).streamSwitch = s.streamSwitch := rfl
@[simp] theorem State.putStreamShadowOf_streamHeld (s : State) (k : Nat) (v : StreamEntry) : (s.putStreamShadowOf k v).streamHeld = s.streamHeld := rfl
@[simp] theorem State.putStreamShadowOf_streamTurn (s : State) (k : Nat) (v : StreamEntry) : (s.putStreamShadowOf k v).streamTurn = s.streamTurn := rfl
@[simp] theorem State.putStreamShadowOf_eth (s : State) (k : Nat) (v : StreamEntry) : (s.putStreamShadowOf k v).eth = s.eth := rfl
@[simp] theorem State.putStreamShadowOf_ethAddr (s : State) (k : Nat) (v : StreamEntry) : (s.putStreamShadowOf k v).ethAddr = s.ethAddr := rfl
@[simp] theorem State.putStreamShadowOf_dmaIdx (s : State) (k : Nat) (v : StreamEntry) : (s.putStreamShadowOf k v).dmaIdx = s.dmaIdx := rfl
@[simp] theorem State.putStreamShadowOf_dmaRecheck (s : State) (k : Nat) (v : StreamEntry) : (s.putStreamShadowOf k v).dmaRecheck = s.dmaRecheck := rfl
@[simp] theorem State.putStreamShadowOf_msixTable (s : State) (k : Nat) (v : StreamEntry) : (s.putStreamShadowOf k v).msixTable = s.msixTable := rfl
@[simp] theorem State.putStreamShadowOf_pba (s : State) (k : Nat) (v : StreamEntry) : (s.putStreamShadowOf k v).pba = s.pba := rfl
@[simp] theorem State.putStreamShadowOf_mbx (s : State) (k : Nat) (v : StreamEntry) : (s.putStreamShadowOf k v).mbx = s.mbx := rfl
@[simp] theorem State.putStreamShadowOf_mbxImage (s : State) (k : Nat) (v : StreamEntry) : (s.putStreamShadowOf k v).mbxImage = s.mbxImage := rfl
@[simp] theorem State.putStreamShadowOf_stored (s : State) (k : Nat) (v : StreamEntry) : (s.putStreamShadowOf k v).stored = s.stored := rfl
@[simp] theorem State.putStreamShadowOf_hello (s : State) (k : Nat) (v : StreamEntry) : (s.putStreamShadowOf k v).hello = s.hello := rfl
@[simp] theorem State.putStreamShadowOf_grants (s : State) (k : Nat) (v : StreamEntry) : (s.putStreamShadowOf k v).grants = s.grants := rfl
@[simp] theorem State.putStreamShadowOf_stages (s : State) (k : Nat) (v : StreamEntry) : (s.putStreamShadowOf k v).stages = s.stages := rfl
@[simp] theorem State.putStreamShadowOf_recvCount (s : State) (k : Nat) (v : StreamEntry) : (s.putStreamShadowOf k v).recvCount = s.recvCount := rfl
@[simp] theorem State.putStreamShadowOf_errs (s : State) (k : Nat) (v : StreamEntry) : (s.putStreamShadowOf k v).errs = s.errs := rfl
@[simp] theorem State.putStreamShadowOf_rseq (s : State) (k : Nat) (v : StreamEntry) : (s.putStreamShadowOf k v).rseq = s.rseq := rfl
@[simp] theorem State.putStreamShadowOf_dice (s : State) (k : Nat) (v : StreamEntry) : (s.putStreamShadowOf k v).dice = s.dice := rfl
@[simp] theorem State.putStreamShadowOf_ledger (s : State) (k : Nat) (v : StreamEntry) : (s.putStreamShadowOf k v).ledger = s.ledger := rfl
@[simp] theorem State.putStreamShadowOf_trust (s : State) (k : Nat) (v : StreamEntry) : (s.putStreamShadowOf k v).trust = s.trust := rfl
@[simp] theorem State.putStreamShadowOf_cond (s : State) (k : Nat) (v : StreamEntry) : (s.putStreamShadowOf k v).cond = s.cond := rfl
@[simp] theorem State.putStreamShadowOf_ckpts (s : State) (k : Nat) (v : StreamEntry) : (s.putStreamShadowOf k v).ckpts = s.ckpts := rfl
@[simp] theorem State.putStreamShadowOf_pair (s : State) (k : Nat) (v : StreamEntry) : (s.putStreamShadowOf k v).pair = s.pair := rfl
@[simp] theorem State.putStreamShadowOf_agent (s : State) (k : Nat) (v : StreamEntry) : (s.putStreamShadowOf k v).agent = s.agent := rfl
@[simp] theorem State.putStreamShadowOf_power (s : State) (k : Nat) (v : StreamEntry) : (s.putStreamShadowOf k v).power = s.power := rfl
@[simp] theorem State.putStreamShadowOf_phys (s : State) (k : Nat) (v : StreamEntry) : (s.putStreamShadowOf k v).phys = s.phys := rfl
@[simp] theorem State.putStreamShadowOf_cnt (s : State) (k : Nat) (v : StreamEntry) : (s.putStreamShadowOf k v).cnt = s.cnt := rfl
@[simp] theorem State.putStreamShadowOf_mainSince (s : State) (k : Nat) (v : StreamEntry) : (s.putStreamShadowOf k v).mainSince = s.mainSince := rfl
@[simp] theorem State.putStreamShadowOf_cntHeld (s : State) (k : Nat) (v : StreamEntry) : (s.putStreamShadowOf k v).cntHeld = s.cntHeld := rfl
@[simp] theorem State.putStreamShadowOf_always (s : State) (k : Nat) (v : StreamEntry) : (s.putStreamShadowOf k v).always = s.always := rfl
@[simp] theorem State.putStreamShadowOf_linkCnt (s : State) (k : Nat) (v : StreamEntry) : (s.putStreamShadowOf k v).linkCnt = s.linkCnt := rfl
@[simp] theorem State.putStreamShadowOf_ssSeq (s : State) (k : Nat) (v : StreamEntry) : (s.putStreamShadowOf k v).ssSeq = s.ssSeq := rfl
@[simp] theorem State.putStreamShadowOf_ssBusy (s : State) (k : Nat) (v : StreamEntry) : (s.putStreamShadowOf k v).ssBusy = s.ssBusy := rfl
@[simp] theorem State.putStreamShadowOf_ssSkippedBefore (s : State) (k : Nat) (v : StreamEntry) : (s.putStreamShadowOf k v).ssSkippedBefore = s.ssSkippedBefore := rfl
@[simp] theorem State.putStreamShadowOf_ssRecord (s : State) (k : Nat) (v : StreamEntry) : (s.putStreamShadowOf k v).ssRecord = s.ssRecord := rfl
@[simp] theorem State.putStreamShadowOf_ssPending (s : State) (k : Nat) (v : StreamEntry) : (s.putStreamShadowOf k v).ssPending = s.ssPending := rfl
@[simp] theorem State.putStreamShadowOf_mismatchHours (s : State) (k : Nat) (v : StreamEntry) : (s.putStreamShadowOf k v).mismatchHours = s.mismatchHours := rfl

/-! ## The entry of `runs` -/

@[simp] theorem State.putRun_pending (s : State) (k : Nat) (v : StreamRun) : (s.putRun k v).pending = s.pending := rfl
@[simp] theorem State.putRun_now (s : State) (k : Nat) (v : StreamRun) : (s.putRun k v).now = s.now := rfl
@[simp] theorem State.putRun_tick (s : State) (k : Nat) (v : StreamRun) : (s.putRun k v).tick = s.tick := rfl
@[simp] theorem State.putRun_fresh (s : State) (k : Nat) (v : StreamRun) : (s.putRun k v).fresh = s.fresh := rfl
@[simp] theorem State.putRun_out (s : State) (k : Nat) (v : StreamRun) : (s.putRun k v).out = s.out := rfl
@[simp] theorem State.putRun_carried (s : State) (k : Nat) (v : StreamRun) : (s.putRun k v).carried = s.carried := rfl
@[simp] theorem State.putRun_regs (s : State) (k : Nat) (v : StreamRun) : (s.putRun k v).regs = s.regs := rfl
@[simp] theorem State.putRun_plane (s : State) (k : Nat) (v : StreamRun) : (s.putRun k v).plane = s.plane := rfl
@[simp] theorem State.putRun_tray (s : State) (k : Nat) (v : StreamRun) : (s.putRun k v).tray = s.tray := rfl
@[simp] theorem State.putRun_plan (s : State) (k : Nat) (v : StreamRun) : (s.putRun k v).plan = s.plan := rfl
@[simp] theorem State.putRun_planLive (s : State) (k : Nat) (v : StreamRun) : (s.putRun k v).planLive = s.planLive := rfl
@[simp] theorem State.putRun_planHash (s : State) (k : Nat) (v : StreamRun) : (s.putRun k v).planHash = s.planHash := rfl
@[simp] theorem State.putRun_ports (s : State) (k : Nat) (v : StreamRun) : (s.putRun k v).ports = s.ports := rfl
@[simp] theorem State.putRun_lanes (s : State) (k : Nat) (v : StreamRun) : (s.putRun k v).lanes = s.lanes := rfl
@[simp] theorem State.putRun_tx (s : State) (k : Nat) (v : StreamRun) : (s.putRun k v).tx = s.tx := rfl
@[simp] theorem State.putRun_lines (s : State) (k : Nat) (v : StreamRun) : (s.putRun k v).lines = s.lines := rfl
@[simp] theorem State.putRun_rx (s : State) (k : Nat) (v : StreamRun) : (s.putRun k v).rx = s.rx := rfl
@[simp] theorem State.putRun_inq (s : State) (k : Nat) (v : StreamRun) : (s.putRun k v).inq = s.inq := rfl
@[simp] theorem State.putRun_outq (s : State) (k : Nat) (v : StreamRun) : (s.putRun k v).outq = s.outq := rfl
@[simp] theorem State.putRun_vcbuf (s : State) (k : Nat) (v : StreamRun) : (s.putRun k v).vcbuf = s.vcbuf := rfl
@[simp] theorem State.putRun_qcharge (s : State) (k : Nat) (v : StreamRun) : (s.putRun k v).qcharge = s.qcharge := rfl
@[simp] theorem State.putRun_shared (s : State) (k : Nat) (v : StreamRun) : (s.putRun k v).shared = s.shared := rfl
@[simp] theorem State.putRun_arb (s : State) (k : Nat) (v : StreamRun) : (s.putRun k v).arb = s.arb := rfl
@[simp] theorem State.putRun_tables (s : State) (k : Nat) (v : StreamRun) : (s.putRun k v).tables = s.tables := rfl
@[simp] theorem State.putRun_shadow (s : State) (k : Nat) (v : StreamRun) : (s.putRun k v).shadow = s.shadow := rfl
@[simp] theorem State.putRun_escVia (s : State) (k : Nat) (v : StreamRun) : (s.putRun k v).escVia = s.escVia := rfl
@[simp] theorem State.putRun_lfsr (s : State) (k : Nat) (v : StreamRun) : (s.putRun k v).lfsr = s.lfsr := rfl
@[simp] theorem State.putRun_inFlows (s : State) (k : Nat) (v : StreamRun) : (s.putRun k v).inFlows = s.inFlows := rfl
@[simp] theorem State.putRun_egFlows (s : State) (k : Nat) (v : StreamRun) : (s.putRun k v).egFlows = s.egFlows := rfl
@[simp] theorem State.putRun_buckets (s : State) (k : Nat) (v : StreamRun) : (s.putRun k v).buckets = s.buckets := rfl
@[simp] theorem State.putRun_local_ (s : State) (k : Nat) (v : StreamRun) : (s.putRun k v).local_ = s.local_ := rfl
@[simp] theorem State.putRun_cellWait (s : State) (k : Nat) (v : StreamRun) : (s.putRun k v).cellWait = s.cellWait := rfl
@[simp] theorem State.putRun_notices (s : State) (k : Nat) (v : StreamRun) : (s.putRun k v).notices = s.notices := rfl
@[simp] theorem State.putRun_heldPkts (s : State) (k : Nat) (v : StreamRun) : (s.putRun k v).heldPkts = s.heldPkts := rfl
@[simp] theorem State.putRun_unitEvents (s : State) (k : Nat) (v : StreamRun) : (s.putRun k v).unitEvents = s.unitEvents := rfl
@[simp] theorem State.putRun_nextCast (s : State) (k : Nat) (v : StreamRun) : (s.putRun k v).nextCast = s.nextCast := rfl
@[simp] theorem State.putRun_bindCount (s : State) (k : Nat) (v : StreamRun) : (s.putRun k v).bindCount = s.bindCount := rfl
@[simp] theorem State.putRun_instCount (s : State) (k : Nat) (v : StreamRun) : (s.putRun k v).instCount = s.instCount := rfl
@[simp] theorem State.putRun_topDown (s : State) (k : Nat) (v : StreamRun) : (s.putRun k v).topDown = s.topDown := rfl
@[simp] theorem State.putRun_waitCmds (s : State) (k : Nat) (v : StreamRun) : (s.putRun k v).waitCmds = s.waitCmds := rfl
@[simp] theorem State.putRun_restarting (s : State) (k : Nat) (v : StreamRun) : (s.putRun k v).restarting = s.restarting := rfl
@[simp] theorem State.putRun_verifySlices (s : State) (k : Nat) (v : StreamRun) : (s.putRun k v).verifySlices = s.verifySlices := rfl
@[simp] theorem State.putRun_groups (s : State) (k : Nat) (v : StreamRun) : (s.putRun k v).groups = s.groups := rfl
@[simp] theorem State.putRun_slots (s : State) (k : Nat) (v : StreamRun) : (s.putRun k v).slots = s.slots := rfl
@[simp] theorem State.putRun_bindWaits (s : State) (k : Nat) (v : StreamRun) : (s.putRun k v).bindWaits = s.bindWaits := rfl
@[simp] theorem State.putRun_insts (s : State) (k : Nat) (v : StreamRun) : (s.putRun k v).insts = s.insts := rfl
@[simp] theorem State.putRun_banks (s : State) (k : Nat) (v : StreamRun) : (s.putRun k v).banks = s.banks := rfl
@[simp] theorem State.putRun_retired (s : State) (k : Nat) (v : StreamRun) : (s.putRun k v).retired = s.retired := rfl
@[simp] theorem State.putRun_spares (s : State) (k : Nat) (v : StreamRun) : (s.putRun k v).spares = s.spares := rfl
@[simp] theorem State.putRun_symTimes (s : State) (k : Nat) (v : StreamRun) : (s.putRun k v).symTimes = s.symTimes := rfl
@[simp] theorem State.putRun_ueWords (s : State) (k : Nat) (v : StreamRun) : (s.putRun k v).ueWords = s.ueWords := rfl
@[simp] theorem State.putRun_retireAsk (s : State) (k : Nat) (v : StreamRun) : (s.putRun k v).retireAsk = s.retireAsk := rfl
@[simp] theorem State.putRun_recarve (s : State) (k : Nat) (v : StreamRun) : (s.putRun k v).recarve = s.recarve := rfl
@[simp] theorem State.putRun_outOfService (s : State) (k : Nat) (v : StreamRun) : (s.putRun k v).outOfService = s.outOfService := rfl
@[simp] theorem State.putRun_cdcOut (s : State) (k : Nat) (v : StreamRun) : (s.putRun k v).cdcOut = s.cdcOut := rfl
@[simp] theorem State.putRun_dmaCount (s : State) (k : Nat) (v : StreamRun) : (s.putRun k v).dmaCount = s.dmaCount := rfl
@[simp] theorem State.putRun_ctxs (s : State) (k : Nat) (v : StreamRun) : (s.putRun k v).ctxs = s.ctxs := rfl
@[simp] theorem State.putRun_coreFenced (s : State) (k : Nat) (v : StreamRun) : (s.putRun k v).coreFenced = s.coreFenced := rfl
@[simp] theorem State.putRun_rrCtx (s : State) (k : Nat) (v : StreamRun) : (s.putRun k v).rrCtx = s.rrCtx := rfl
@[simp] theorem State.putRun_programs (s : State) (k : Nat) (v : StreamRun) : (s.putRun k v).programs = s.programs := rfl
@[simp] theorem State.putRun_mem (s : State) (k : Nat) (v : StreamRun) : (s.putRun k v).mem = s.mem := rfl
@[simp] theorem State.putRun_memPoison (s : State) (k : Nat) (v : StreamRun) : (s.putRun k v).memPoison = s.memPoison := rfl
@[simp] theorem State.putRun_memReads (s : State) (k : Nat) (v : StreamRun) : (s.putRun k v).memReads = s.memReads := rfl
@[simp] theorem State.putRun_nextMemTag (s : State) (k : Nat) (v : StreamRun) : (s.putRun k v).nextMemTag = s.nextMemTag := rfl
@[simp] theorem State.putRun_ownReqs (s : State) (k : Nat) (v : StreamRun) : (s.putRun k v).ownReqs = s.ownReqs := rfl
@[simp] theorem State.putRun_ownRsps (s : State) (k : Nat) (v : StreamRun) : (s.putRun k v).ownRsps = s.ownRsps := rfl
@[simp] theorem State.putRun_scrubPos (s : State) (k : Nat) (v : StreamRun) : (s.putRun k v).scrubPos = s.scrubPos := rfl
@[simp] theorem State.putRun_scrubClock (s : State) (k : Nat) (v : StreamRun) : (s.putRun k v).scrubClock = s.scrubClock := rfl
@[simp] theorem State.putRun_scrubMark (s : State) (k : Nat) (v : StreamRun) : (s.putRun k v).scrubMark = s.scrubMark := rfl
@[simp] theorem State.putRun_refreshes (s : State) (k : Nat) (v : StreamRun) : (s.putRun k v).refreshes = s.refreshes := rfl
@[simp] theorem State.putRun_streams (s : State) (k : Nat) (v : StreamRun) : (s.putRun k v).streams = s.streams := rfl
@[simp] theorem State.putRun_streamShadow (s : State) (k : Nat) (v : StreamRun) : (s.putRun k v).streamShadow = s.streamShadow := rfl
@[simp] theorem State.putRun_sepoch (s : State) (k : Nat) (v : StreamRun) : (s.putRun k v).sepoch = s.sepoch := rfl
@[simp] theorem State.putRun_streamSwitch (s : State) (k : Nat) (v : StreamRun) : (s.putRun k v).streamSwitch = s.streamSwitch := rfl
@[simp] theorem State.putRun_streamHeld (s : State) (k : Nat) (v : StreamRun) : (s.putRun k v).streamHeld = s.streamHeld := rfl
@[simp] theorem State.putRun_streamTurn (s : State) (k : Nat) (v : StreamRun) : (s.putRun k v).streamTurn = s.streamTurn := rfl
@[simp] theorem State.putRun_eth (s : State) (k : Nat) (v : StreamRun) : (s.putRun k v).eth = s.eth := rfl
@[simp] theorem State.putRun_ethAddr (s : State) (k : Nat) (v : StreamRun) : (s.putRun k v).ethAddr = s.ethAddr := rfl
@[simp] theorem State.putRun_dmaIdx (s : State) (k : Nat) (v : StreamRun) : (s.putRun k v).dmaIdx = s.dmaIdx := rfl
@[simp] theorem State.putRun_dmaRecheck (s : State) (k : Nat) (v : StreamRun) : (s.putRun k v).dmaRecheck = s.dmaRecheck := rfl
@[simp] theorem State.putRun_msixTable (s : State) (k : Nat) (v : StreamRun) : (s.putRun k v).msixTable = s.msixTable := rfl
@[simp] theorem State.putRun_pba (s : State) (k : Nat) (v : StreamRun) : (s.putRun k v).pba = s.pba := rfl
@[simp] theorem State.putRun_mbx (s : State) (k : Nat) (v : StreamRun) : (s.putRun k v).mbx = s.mbx := rfl
@[simp] theorem State.putRun_mbxImage (s : State) (k : Nat) (v : StreamRun) : (s.putRun k v).mbxImage = s.mbxImage := rfl
@[simp] theorem State.putRun_stored (s : State) (k : Nat) (v : StreamRun) : (s.putRun k v).stored = s.stored := rfl
@[simp] theorem State.putRun_hello (s : State) (k : Nat) (v : StreamRun) : (s.putRun k v).hello = s.hello := rfl
@[simp] theorem State.putRun_grants (s : State) (k : Nat) (v : StreamRun) : (s.putRun k v).grants = s.grants := rfl
@[simp] theorem State.putRun_stages (s : State) (k : Nat) (v : StreamRun) : (s.putRun k v).stages = s.stages := rfl
@[simp] theorem State.putRun_recvCount (s : State) (k : Nat) (v : StreamRun) : (s.putRun k v).recvCount = s.recvCount := rfl
@[simp] theorem State.putRun_errs (s : State) (k : Nat) (v : StreamRun) : (s.putRun k v).errs = s.errs := rfl
@[simp] theorem State.putRun_rseq (s : State) (k : Nat) (v : StreamRun) : (s.putRun k v).rseq = s.rseq := rfl
@[simp] theorem State.putRun_dice (s : State) (k : Nat) (v : StreamRun) : (s.putRun k v).dice = s.dice := rfl
@[simp] theorem State.putRun_ledger (s : State) (k : Nat) (v : StreamRun) : (s.putRun k v).ledger = s.ledger := rfl
@[simp] theorem State.putRun_trust (s : State) (k : Nat) (v : StreamRun) : (s.putRun k v).trust = s.trust := rfl
@[simp] theorem State.putRun_cond (s : State) (k : Nat) (v : StreamRun) : (s.putRun k v).cond = s.cond := rfl
@[simp] theorem State.putRun_ckpts (s : State) (k : Nat) (v : StreamRun) : (s.putRun k v).ckpts = s.ckpts := rfl
@[simp] theorem State.putRun_pair (s : State) (k : Nat) (v : StreamRun) : (s.putRun k v).pair = s.pair := rfl
@[simp] theorem State.putRun_agent (s : State) (k : Nat) (v : StreamRun) : (s.putRun k v).agent = s.agent := rfl
@[simp] theorem State.putRun_power (s : State) (k : Nat) (v : StreamRun) : (s.putRun k v).power = s.power := rfl
@[simp] theorem State.putRun_phys (s : State) (k : Nat) (v : StreamRun) : (s.putRun k v).phys = s.phys := rfl
@[simp] theorem State.putRun_cnt (s : State) (k : Nat) (v : StreamRun) : (s.putRun k v).cnt = s.cnt := rfl
@[simp] theorem State.putRun_mainSince (s : State) (k : Nat) (v : StreamRun) : (s.putRun k v).mainSince = s.mainSince := rfl
@[simp] theorem State.putRun_cntHeld (s : State) (k : Nat) (v : StreamRun) : (s.putRun k v).cntHeld = s.cntHeld := rfl
@[simp] theorem State.putRun_always (s : State) (k : Nat) (v : StreamRun) : (s.putRun k v).always = s.always := rfl
@[simp] theorem State.putRun_linkCnt (s : State) (k : Nat) (v : StreamRun) : (s.putRun k v).linkCnt = s.linkCnt := rfl
@[simp] theorem State.putRun_ssSeq (s : State) (k : Nat) (v : StreamRun) : (s.putRun k v).ssSeq = s.ssSeq := rfl
@[simp] theorem State.putRun_ssBusy (s : State) (k : Nat) (v : StreamRun) : (s.putRun k v).ssBusy = s.ssBusy := rfl
@[simp] theorem State.putRun_ssSkippedBefore (s : State) (k : Nat) (v : StreamRun) : (s.putRun k v).ssSkippedBefore = s.ssSkippedBefore := rfl
@[simp] theorem State.putRun_ssRecord (s : State) (k : Nat) (v : StreamRun) : (s.putRun k v).ssRecord = s.ssRecord := rfl
@[simp] theorem State.putRun_ssPending (s : State) (k : Nat) (v : StreamRun) : (s.putRun k v).ssPending = s.ssPending := rfl
@[simp] theorem State.putRun_mismatchHours (s : State) (k : Nat) (v : StreamRun) : (s.putRun k v).mismatchHours = s.mismatchHours := rfl

/-! ## The entry of `eth` -/

@[simp] theorem State.putEthOf_pending (s : State) (k : Nat) (v : EthSt) : (s.putEthOf k v).pending = s.pending := rfl
@[simp] theorem State.putEthOf_now (s : State) (k : Nat) (v : EthSt) : (s.putEthOf k v).now = s.now := rfl
@[simp] theorem State.putEthOf_tick (s : State) (k : Nat) (v : EthSt) : (s.putEthOf k v).tick = s.tick := rfl
@[simp] theorem State.putEthOf_fresh (s : State) (k : Nat) (v : EthSt) : (s.putEthOf k v).fresh = s.fresh := rfl
@[simp] theorem State.putEthOf_out (s : State) (k : Nat) (v : EthSt) : (s.putEthOf k v).out = s.out := rfl
@[simp] theorem State.putEthOf_carried (s : State) (k : Nat) (v : EthSt) : (s.putEthOf k v).carried = s.carried := rfl
@[simp] theorem State.putEthOf_regs (s : State) (k : Nat) (v : EthSt) : (s.putEthOf k v).regs = s.regs := rfl
@[simp] theorem State.putEthOf_plane (s : State) (k : Nat) (v : EthSt) : (s.putEthOf k v).plane = s.plane := rfl
@[simp] theorem State.putEthOf_tray (s : State) (k : Nat) (v : EthSt) : (s.putEthOf k v).tray = s.tray := rfl
@[simp] theorem State.putEthOf_plan (s : State) (k : Nat) (v : EthSt) : (s.putEthOf k v).plan = s.plan := rfl
@[simp] theorem State.putEthOf_planLive (s : State) (k : Nat) (v : EthSt) : (s.putEthOf k v).planLive = s.planLive := rfl
@[simp] theorem State.putEthOf_planHash (s : State) (k : Nat) (v : EthSt) : (s.putEthOf k v).planHash = s.planHash := rfl
@[simp] theorem State.putEthOf_ports (s : State) (k : Nat) (v : EthSt) : (s.putEthOf k v).ports = s.ports := rfl
@[simp] theorem State.putEthOf_lanes (s : State) (k : Nat) (v : EthSt) : (s.putEthOf k v).lanes = s.lanes := rfl
@[simp] theorem State.putEthOf_tx (s : State) (k : Nat) (v : EthSt) : (s.putEthOf k v).tx = s.tx := rfl
@[simp] theorem State.putEthOf_lines (s : State) (k : Nat) (v : EthSt) : (s.putEthOf k v).lines = s.lines := rfl
@[simp] theorem State.putEthOf_rx (s : State) (k : Nat) (v : EthSt) : (s.putEthOf k v).rx = s.rx := rfl
@[simp] theorem State.putEthOf_inq (s : State) (k : Nat) (v : EthSt) : (s.putEthOf k v).inq = s.inq := rfl
@[simp] theorem State.putEthOf_outq (s : State) (k : Nat) (v : EthSt) : (s.putEthOf k v).outq = s.outq := rfl
@[simp] theorem State.putEthOf_vcbuf (s : State) (k : Nat) (v : EthSt) : (s.putEthOf k v).vcbuf = s.vcbuf := rfl
@[simp] theorem State.putEthOf_qcharge (s : State) (k : Nat) (v : EthSt) : (s.putEthOf k v).qcharge = s.qcharge := rfl
@[simp] theorem State.putEthOf_shared (s : State) (k : Nat) (v : EthSt) : (s.putEthOf k v).shared = s.shared := rfl
@[simp] theorem State.putEthOf_arb (s : State) (k : Nat) (v : EthSt) : (s.putEthOf k v).arb = s.arb := rfl
@[simp] theorem State.putEthOf_tables (s : State) (k : Nat) (v : EthSt) : (s.putEthOf k v).tables = s.tables := rfl
@[simp] theorem State.putEthOf_shadow (s : State) (k : Nat) (v : EthSt) : (s.putEthOf k v).shadow = s.shadow := rfl
@[simp] theorem State.putEthOf_escVia (s : State) (k : Nat) (v : EthSt) : (s.putEthOf k v).escVia = s.escVia := rfl
@[simp] theorem State.putEthOf_lfsr (s : State) (k : Nat) (v : EthSt) : (s.putEthOf k v).lfsr = s.lfsr := rfl
@[simp] theorem State.putEthOf_inFlows (s : State) (k : Nat) (v : EthSt) : (s.putEthOf k v).inFlows = s.inFlows := rfl
@[simp] theorem State.putEthOf_egFlows (s : State) (k : Nat) (v : EthSt) : (s.putEthOf k v).egFlows = s.egFlows := rfl
@[simp] theorem State.putEthOf_buckets (s : State) (k : Nat) (v : EthSt) : (s.putEthOf k v).buckets = s.buckets := rfl
@[simp] theorem State.putEthOf_local_ (s : State) (k : Nat) (v : EthSt) : (s.putEthOf k v).local_ = s.local_ := rfl
@[simp] theorem State.putEthOf_cellWait (s : State) (k : Nat) (v : EthSt) : (s.putEthOf k v).cellWait = s.cellWait := rfl
@[simp] theorem State.putEthOf_notices (s : State) (k : Nat) (v : EthSt) : (s.putEthOf k v).notices = s.notices := rfl
@[simp] theorem State.putEthOf_heldPkts (s : State) (k : Nat) (v : EthSt) : (s.putEthOf k v).heldPkts = s.heldPkts := rfl
@[simp] theorem State.putEthOf_unitEvents (s : State) (k : Nat) (v : EthSt) : (s.putEthOf k v).unitEvents = s.unitEvents := rfl
@[simp] theorem State.putEthOf_nextCast (s : State) (k : Nat) (v : EthSt) : (s.putEthOf k v).nextCast = s.nextCast := rfl
@[simp] theorem State.putEthOf_bindCount (s : State) (k : Nat) (v : EthSt) : (s.putEthOf k v).bindCount = s.bindCount := rfl
@[simp] theorem State.putEthOf_instCount (s : State) (k : Nat) (v : EthSt) : (s.putEthOf k v).instCount = s.instCount := rfl
@[simp] theorem State.putEthOf_topDown (s : State) (k : Nat) (v : EthSt) : (s.putEthOf k v).topDown = s.topDown := rfl
@[simp] theorem State.putEthOf_waitCmds (s : State) (k : Nat) (v : EthSt) : (s.putEthOf k v).waitCmds = s.waitCmds := rfl
@[simp] theorem State.putEthOf_restarting (s : State) (k : Nat) (v : EthSt) : (s.putEthOf k v).restarting = s.restarting := rfl
@[simp] theorem State.putEthOf_verifySlices (s : State) (k : Nat) (v : EthSt) : (s.putEthOf k v).verifySlices = s.verifySlices := rfl
@[simp] theorem State.putEthOf_groups (s : State) (k : Nat) (v : EthSt) : (s.putEthOf k v).groups = s.groups := rfl
@[simp] theorem State.putEthOf_slots (s : State) (k : Nat) (v : EthSt) : (s.putEthOf k v).slots = s.slots := rfl
@[simp] theorem State.putEthOf_bindWaits (s : State) (k : Nat) (v : EthSt) : (s.putEthOf k v).bindWaits = s.bindWaits := rfl
@[simp] theorem State.putEthOf_insts (s : State) (k : Nat) (v : EthSt) : (s.putEthOf k v).insts = s.insts := rfl
@[simp] theorem State.putEthOf_banks (s : State) (k : Nat) (v : EthSt) : (s.putEthOf k v).banks = s.banks := rfl
@[simp] theorem State.putEthOf_retired (s : State) (k : Nat) (v : EthSt) : (s.putEthOf k v).retired = s.retired := rfl
@[simp] theorem State.putEthOf_spares (s : State) (k : Nat) (v : EthSt) : (s.putEthOf k v).spares = s.spares := rfl
@[simp] theorem State.putEthOf_symTimes (s : State) (k : Nat) (v : EthSt) : (s.putEthOf k v).symTimes = s.symTimes := rfl
@[simp] theorem State.putEthOf_ueWords (s : State) (k : Nat) (v : EthSt) : (s.putEthOf k v).ueWords = s.ueWords := rfl
@[simp] theorem State.putEthOf_retireAsk (s : State) (k : Nat) (v : EthSt) : (s.putEthOf k v).retireAsk = s.retireAsk := rfl
@[simp] theorem State.putEthOf_recarve (s : State) (k : Nat) (v : EthSt) : (s.putEthOf k v).recarve = s.recarve := rfl
@[simp] theorem State.putEthOf_outOfService (s : State) (k : Nat) (v : EthSt) : (s.putEthOf k v).outOfService = s.outOfService := rfl
@[simp] theorem State.putEthOf_cdcOut (s : State) (k : Nat) (v : EthSt) : (s.putEthOf k v).cdcOut = s.cdcOut := rfl
@[simp] theorem State.putEthOf_dmaCount (s : State) (k : Nat) (v : EthSt) : (s.putEthOf k v).dmaCount = s.dmaCount := rfl
@[simp] theorem State.putEthOf_ctxs (s : State) (k : Nat) (v : EthSt) : (s.putEthOf k v).ctxs = s.ctxs := rfl
@[simp] theorem State.putEthOf_coreFenced (s : State) (k : Nat) (v : EthSt) : (s.putEthOf k v).coreFenced = s.coreFenced := rfl
@[simp] theorem State.putEthOf_rrCtx (s : State) (k : Nat) (v : EthSt) : (s.putEthOf k v).rrCtx = s.rrCtx := rfl
@[simp] theorem State.putEthOf_programs (s : State) (k : Nat) (v : EthSt) : (s.putEthOf k v).programs = s.programs := rfl
@[simp] theorem State.putEthOf_mem (s : State) (k : Nat) (v : EthSt) : (s.putEthOf k v).mem = s.mem := rfl
@[simp] theorem State.putEthOf_memPoison (s : State) (k : Nat) (v : EthSt) : (s.putEthOf k v).memPoison = s.memPoison := rfl
@[simp] theorem State.putEthOf_memReads (s : State) (k : Nat) (v : EthSt) : (s.putEthOf k v).memReads = s.memReads := rfl
@[simp] theorem State.putEthOf_nextMemTag (s : State) (k : Nat) (v : EthSt) : (s.putEthOf k v).nextMemTag = s.nextMemTag := rfl
@[simp] theorem State.putEthOf_ownReqs (s : State) (k : Nat) (v : EthSt) : (s.putEthOf k v).ownReqs = s.ownReqs := rfl
@[simp] theorem State.putEthOf_ownRsps (s : State) (k : Nat) (v : EthSt) : (s.putEthOf k v).ownRsps = s.ownRsps := rfl
@[simp] theorem State.putEthOf_scrubPos (s : State) (k : Nat) (v : EthSt) : (s.putEthOf k v).scrubPos = s.scrubPos := rfl
@[simp] theorem State.putEthOf_scrubClock (s : State) (k : Nat) (v : EthSt) : (s.putEthOf k v).scrubClock = s.scrubClock := rfl
@[simp] theorem State.putEthOf_scrubMark (s : State) (k : Nat) (v : EthSt) : (s.putEthOf k v).scrubMark = s.scrubMark := rfl
@[simp] theorem State.putEthOf_refreshes (s : State) (k : Nat) (v : EthSt) : (s.putEthOf k v).refreshes = s.refreshes := rfl
@[simp] theorem State.putEthOf_streams (s : State) (k : Nat) (v : EthSt) : (s.putEthOf k v).streams = s.streams := rfl
@[simp] theorem State.putEthOf_streamShadow (s : State) (k : Nat) (v : EthSt) : (s.putEthOf k v).streamShadow = s.streamShadow := rfl
@[simp] theorem State.putEthOf_runs (s : State) (k : Nat) (v : EthSt) : (s.putEthOf k v).runs = s.runs := rfl
@[simp] theorem State.putEthOf_sepoch (s : State) (k : Nat) (v : EthSt) : (s.putEthOf k v).sepoch = s.sepoch := rfl
@[simp] theorem State.putEthOf_streamSwitch (s : State) (k : Nat) (v : EthSt) : (s.putEthOf k v).streamSwitch = s.streamSwitch := rfl
@[simp] theorem State.putEthOf_streamHeld (s : State) (k : Nat) (v : EthSt) : (s.putEthOf k v).streamHeld = s.streamHeld := rfl
@[simp] theorem State.putEthOf_streamTurn (s : State) (k : Nat) (v : EthSt) : (s.putEthOf k v).streamTurn = s.streamTurn := rfl
@[simp] theorem State.putEthOf_ethAddr (s : State) (k : Nat) (v : EthSt) : (s.putEthOf k v).ethAddr = s.ethAddr := rfl
@[simp] theorem State.putEthOf_dmaIdx (s : State) (k : Nat) (v : EthSt) : (s.putEthOf k v).dmaIdx = s.dmaIdx := rfl
@[simp] theorem State.putEthOf_dmaRecheck (s : State) (k : Nat) (v : EthSt) : (s.putEthOf k v).dmaRecheck = s.dmaRecheck := rfl
@[simp] theorem State.putEthOf_msixTable (s : State) (k : Nat) (v : EthSt) : (s.putEthOf k v).msixTable = s.msixTable := rfl
@[simp] theorem State.putEthOf_pba (s : State) (k : Nat) (v : EthSt) : (s.putEthOf k v).pba = s.pba := rfl
@[simp] theorem State.putEthOf_mbx (s : State) (k : Nat) (v : EthSt) : (s.putEthOf k v).mbx = s.mbx := rfl
@[simp] theorem State.putEthOf_mbxImage (s : State) (k : Nat) (v : EthSt) : (s.putEthOf k v).mbxImage = s.mbxImage := rfl
@[simp] theorem State.putEthOf_stored (s : State) (k : Nat) (v : EthSt) : (s.putEthOf k v).stored = s.stored := rfl
@[simp] theorem State.putEthOf_hello (s : State) (k : Nat) (v : EthSt) : (s.putEthOf k v).hello = s.hello := rfl
@[simp] theorem State.putEthOf_grants (s : State) (k : Nat) (v : EthSt) : (s.putEthOf k v).grants = s.grants := rfl
@[simp] theorem State.putEthOf_stages (s : State) (k : Nat) (v : EthSt) : (s.putEthOf k v).stages = s.stages := rfl
@[simp] theorem State.putEthOf_recvCount (s : State) (k : Nat) (v : EthSt) : (s.putEthOf k v).recvCount = s.recvCount := rfl
@[simp] theorem State.putEthOf_errs (s : State) (k : Nat) (v : EthSt) : (s.putEthOf k v).errs = s.errs := rfl
@[simp] theorem State.putEthOf_rseq (s : State) (k : Nat) (v : EthSt) : (s.putEthOf k v).rseq = s.rseq := rfl
@[simp] theorem State.putEthOf_dice (s : State) (k : Nat) (v : EthSt) : (s.putEthOf k v).dice = s.dice := rfl
@[simp] theorem State.putEthOf_ledger (s : State) (k : Nat) (v : EthSt) : (s.putEthOf k v).ledger = s.ledger := rfl
@[simp] theorem State.putEthOf_trust (s : State) (k : Nat) (v : EthSt) : (s.putEthOf k v).trust = s.trust := rfl
@[simp] theorem State.putEthOf_cond (s : State) (k : Nat) (v : EthSt) : (s.putEthOf k v).cond = s.cond := rfl
@[simp] theorem State.putEthOf_ckpts (s : State) (k : Nat) (v : EthSt) : (s.putEthOf k v).ckpts = s.ckpts := rfl
@[simp] theorem State.putEthOf_pair (s : State) (k : Nat) (v : EthSt) : (s.putEthOf k v).pair = s.pair := rfl
@[simp] theorem State.putEthOf_agent (s : State) (k : Nat) (v : EthSt) : (s.putEthOf k v).agent = s.agent := rfl
@[simp] theorem State.putEthOf_power (s : State) (k : Nat) (v : EthSt) : (s.putEthOf k v).power = s.power := rfl
@[simp] theorem State.putEthOf_phys (s : State) (k : Nat) (v : EthSt) : (s.putEthOf k v).phys = s.phys := rfl
@[simp] theorem State.putEthOf_cnt (s : State) (k : Nat) (v : EthSt) : (s.putEthOf k v).cnt = s.cnt := rfl
@[simp] theorem State.putEthOf_mainSince (s : State) (k : Nat) (v : EthSt) : (s.putEthOf k v).mainSince = s.mainSince := rfl
@[simp] theorem State.putEthOf_cntHeld (s : State) (k : Nat) (v : EthSt) : (s.putEthOf k v).cntHeld = s.cntHeld := rfl
@[simp] theorem State.putEthOf_always (s : State) (k : Nat) (v : EthSt) : (s.putEthOf k v).always = s.always := rfl
@[simp] theorem State.putEthOf_linkCnt (s : State) (k : Nat) (v : EthSt) : (s.putEthOf k v).linkCnt = s.linkCnt := rfl
@[simp] theorem State.putEthOf_ssSeq (s : State) (k : Nat) (v : EthSt) : (s.putEthOf k v).ssSeq = s.ssSeq := rfl
@[simp] theorem State.putEthOf_ssBusy (s : State) (k : Nat) (v : EthSt) : (s.putEthOf k v).ssBusy = s.ssBusy := rfl
@[simp] theorem State.putEthOf_ssSkippedBefore (s : State) (k : Nat) (v : EthSt) : (s.putEthOf k v).ssSkippedBefore = s.ssSkippedBefore := rfl
@[simp] theorem State.putEthOf_ssRecord (s : State) (k : Nat) (v : EthSt) : (s.putEthOf k v).ssRecord = s.ssRecord := rfl
@[simp] theorem State.putEthOf_ssPending (s : State) (k : Nat) (v : EthSt) : (s.putEthOf k v).ssPending = s.ssPending := rfl
@[simp] theorem State.putEthOf_mismatchHours (s : State) (k : Nat) (v : EthSt) : (s.putEthOf k v).mismatchHours = s.mismatchHours := rfl

/-! ## The entry of `mbx` -/

@[simp] theorem State.putMbxOf_pending (s : State) (k : Nat) (v : MbxSt) : (s.putMbxOf k v).pending = s.pending := rfl
@[simp] theorem State.putMbxOf_now (s : State) (k : Nat) (v : MbxSt) : (s.putMbxOf k v).now = s.now := rfl
@[simp] theorem State.putMbxOf_tick (s : State) (k : Nat) (v : MbxSt) : (s.putMbxOf k v).tick = s.tick := rfl
@[simp] theorem State.putMbxOf_fresh (s : State) (k : Nat) (v : MbxSt) : (s.putMbxOf k v).fresh = s.fresh := rfl
@[simp] theorem State.putMbxOf_out (s : State) (k : Nat) (v : MbxSt) : (s.putMbxOf k v).out = s.out := rfl
@[simp] theorem State.putMbxOf_carried (s : State) (k : Nat) (v : MbxSt) : (s.putMbxOf k v).carried = s.carried := rfl
@[simp] theorem State.putMbxOf_regs (s : State) (k : Nat) (v : MbxSt) : (s.putMbxOf k v).regs = s.regs := rfl
@[simp] theorem State.putMbxOf_plane (s : State) (k : Nat) (v : MbxSt) : (s.putMbxOf k v).plane = s.plane := rfl
@[simp] theorem State.putMbxOf_tray (s : State) (k : Nat) (v : MbxSt) : (s.putMbxOf k v).tray = s.tray := rfl
@[simp] theorem State.putMbxOf_plan (s : State) (k : Nat) (v : MbxSt) : (s.putMbxOf k v).plan = s.plan := rfl
@[simp] theorem State.putMbxOf_planLive (s : State) (k : Nat) (v : MbxSt) : (s.putMbxOf k v).planLive = s.planLive := rfl
@[simp] theorem State.putMbxOf_planHash (s : State) (k : Nat) (v : MbxSt) : (s.putMbxOf k v).planHash = s.planHash := rfl
@[simp] theorem State.putMbxOf_ports (s : State) (k : Nat) (v : MbxSt) : (s.putMbxOf k v).ports = s.ports := rfl
@[simp] theorem State.putMbxOf_lanes (s : State) (k : Nat) (v : MbxSt) : (s.putMbxOf k v).lanes = s.lanes := rfl
@[simp] theorem State.putMbxOf_tx (s : State) (k : Nat) (v : MbxSt) : (s.putMbxOf k v).tx = s.tx := rfl
@[simp] theorem State.putMbxOf_lines (s : State) (k : Nat) (v : MbxSt) : (s.putMbxOf k v).lines = s.lines := rfl
@[simp] theorem State.putMbxOf_rx (s : State) (k : Nat) (v : MbxSt) : (s.putMbxOf k v).rx = s.rx := rfl
@[simp] theorem State.putMbxOf_inq (s : State) (k : Nat) (v : MbxSt) : (s.putMbxOf k v).inq = s.inq := rfl
@[simp] theorem State.putMbxOf_outq (s : State) (k : Nat) (v : MbxSt) : (s.putMbxOf k v).outq = s.outq := rfl
@[simp] theorem State.putMbxOf_vcbuf (s : State) (k : Nat) (v : MbxSt) : (s.putMbxOf k v).vcbuf = s.vcbuf := rfl
@[simp] theorem State.putMbxOf_qcharge (s : State) (k : Nat) (v : MbxSt) : (s.putMbxOf k v).qcharge = s.qcharge := rfl
@[simp] theorem State.putMbxOf_shared (s : State) (k : Nat) (v : MbxSt) : (s.putMbxOf k v).shared = s.shared := rfl
@[simp] theorem State.putMbxOf_arb (s : State) (k : Nat) (v : MbxSt) : (s.putMbxOf k v).arb = s.arb := rfl
@[simp] theorem State.putMbxOf_tables (s : State) (k : Nat) (v : MbxSt) : (s.putMbxOf k v).tables = s.tables := rfl
@[simp] theorem State.putMbxOf_shadow (s : State) (k : Nat) (v : MbxSt) : (s.putMbxOf k v).shadow = s.shadow := rfl
@[simp] theorem State.putMbxOf_escVia (s : State) (k : Nat) (v : MbxSt) : (s.putMbxOf k v).escVia = s.escVia := rfl
@[simp] theorem State.putMbxOf_lfsr (s : State) (k : Nat) (v : MbxSt) : (s.putMbxOf k v).lfsr = s.lfsr := rfl
@[simp] theorem State.putMbxOf_inFlows (s : State) (k : Nat) (v : MbxSt) : (s.putMbxOf k v).inFlows = s.inFlows := rfl
@[simp] theorem State.putMbxOf_egFlows (s : State) (k : Nat) (v : MbxSt) : (s.putMbxOf k v).egFlows = s.egFlows := rfl
@[simp] theorem State.putMbxOf_buckets (s : State) (k : Nat) (v : MbxSt) : (s.putMbxOf k v).buckets = s.buckets := rfl
@[simp] theorem State.putMbxOf_local_ (s : State) (k : Nat) (v : MbxSt) : (s.putMbxOf k v).local_ = s.local_ := rfl
@[simp] theorem State.putMbxOf_cellWait (s : State) (k : Nat) (v : MbxSt) : (s.putMbxOf k v).cellWait = s.cellWait := rfl
@[simp] theorem State.putMbxOf_notices (s : State) (k : Nat) (v : MbxSt) : (s.putMbxOf k v).notices = s.notices := rfl
@[simp] theorem State.putMbxOf_heldPkts (s : State) (k : Nat) (v : MbxSt) : (s.putMbxOf k v).heldPkts = s.heldPkts := rfl
@[simp] theorem State.putMbxOf_unitEvents (s : State) (k : Nat) (v : MbxSt) : (s.putMbxOf k v).unitEvents = s.unitEvents := rfl
@[simp] theorem State.putMbxOf_nextCast (s : State) (k : Nat) (v : MbxSt) : (s.putMbxOf k v).nextCast = s.nextCast := rfl
@[simp] theorem State.putMbxOf_bindCount (s : State) (k : Nat) (v : MbxSt) : (s.putMbxOf k v).bindCount = s.bindCount := rfl
@[simp] theorem State.putMbxOf_instCount (s : State) (k : Nat) (v : MbxSt) : (s.putMbxOf k v).instCount = s.instCount := rfl
@[simp] theorem State.putMbxOf_topDown (s : State) (k : Nat) (v : MbxSt) : (s.putMbxOf k v).topDown = s.topDown := rfl
@[simp] theorem State.putMbxOf_waitCmds (s : State) (k : Nat) (v : MbxSt) : (s.putMbxOf k v).waitCmds = s.waitCmds := rfl
@[simp] theorem State.putMbxOf_restarting (s : State) (k : Nat) (v : MbxSt) : (s.putMbxOf k v).restarting = s.restarting := rfl
@[simp] theorem State.putMbxOf_verifySlices (s : State) (k : Nat) (v : MbxSt) : (s.putMbxOf k v).verifySlices = s.verifySlices := rfl
@[simp] theorem State.putMbxOf_groups (s : State) (k : Nat) (v : MbxSt) : (s.putMbxOf k v).groups = s.groups := rfl
@[simp] theorem State.putMbxOf_slots (s : State) (k : Nat) (v : MbxSt) : (s.putMbxOf k v).slots = s.slots := rfl
@[simp] theorem State.putMbxOf_bindWaits (s : State) (k : Nat) (v : MbxSt) : (s.putMbxOf k v).bindWaits = s.bindWaits := rfl
@[simp] theorem State.putMbxOf_insts (s : State) (k : Nat) (v : MbxSt) : (s.putMbxOf k v).insts = s.insts := rfl
@[simp] theorem State.putMbxOf_banks (s : State) (k : Nat) (v : MbxSt) : (s.putMbxOf k v).banks = s.banks := rfl
@[simp] theorem State.putMbxOf_retired (s : State) (k : Nat) (v : MbxSt) : (s.putMbxOf k v).retired = s.retired := rfl
@[simp] theorem State.putMbxOf_spares (s : State) (k : Nat) (v : MbxSt) : (s.putMbxOf k v).spares = s.spares := rfl
@[simp] theorem State.putMbxOf_symTimes (s : State) (k : Nat) (v : MbxSt) : (s.putMbxOf k v).symTimes = s.symTimes := rfl
@[simp] theorem State.putMbxOf_ueWords (s : State) (k : Nat) (v : MbxSt) : (s.putMbxOf k v).ueWords = s.ueWords := rfl
@[simp] theorem State.putMbxOf_retireAsk (s : State) (k : Nat) (v : MbxSt) : (s.putMbxOf k v).retireAsk = s.retireAsk := rfl
@[simp] theorem State.putMbxOf_recarve (s : State) (k : Nat) (v : MbxSt) : (s.putMbxOf k v).recarve = s.recarve := rfl
@[simp] theorem State.putMbxOf_outOfService (s : State) (k : Nat) (v : MbxSt) : (s.putMbxOf k v).outOfService = s.outOfService := rfl
@[simp] theorem State.putMbxOf_cdcOut (s : State) (k : Nat) (v : MbxSt) : (s.putMbxOf k v).cdcOut = s.cdcOut := rfl
@[simp] theorem State.putMbxOf_dmaCount (s : State) (k : Nat) (v : MbxSt) : (s.putMbxOf k v).dmaCount = s.dmaCount := rfl
@[simp] theorem State.putMbxOf_ctxs (s : State) (k : Nat) (v : MbxSt) : (s.putMbxOf k v).ctxs = s.ctxs := rfl
@[simp] theorem State.putMbxOf_coreFenced (s : State) (k : Nat) (v : MbxSt) : (s.putMbxOf k v).coreFenced = s.coreFenced := rfl
@[simp] theorem State.putMbxOf_rrCtx (s : State) (k : Nat) (v : MbxSt) : (s.putMbxOf k v).rrCtx = s.rrCtx := rfl
@[simp] theorem State.putMbxOf_programs (s : State) (k : Nat) (v : MbxSt) : (s.putMbxOf k v).programs = s.programs := rfl
@[simp] theorem State.putMbxOf_mem (s : State) (k : Nat) (v : MbxSt) : (s.putMbxOf k v).mem = s.mem := rfl
@[simp] theorem State.putMbxOf_memPoison (s : State) (k : Nat) (v : MbxSt) : (s.putMbxOf k v).memPoison = s.memPoison := rfl
@[simp] theorem State.putMbxOf_memReads (s : State) (k : Nat) (v : MbxSt) : (s.putMbxOf k v).memReads = s.memReads := rfl
@[simp] theorem State.putMbxOf_nextMemTag (s : State) (k : Nat) (v : MbxSt) : (s.putMbxOf k v).nextMemTag = s.nextMemTag := rfl
@[simp] theorem State.putMbxOf_ownReqs (s : State) (k : Nat) (v : MbxSt) : (s.putMbxOf k v).ownReqs = s.ownReqs := rfl
@[simp] theorem State.putMbxOf_ownRsps (s : State) (k : Nat) (v : MbxSt) : (s.putMbxOf k v).ownRsps = s.ownRsps := rfl
@[simp] theorem State.putMbxOf_scrubPos (s : State) (k : Nat) (v : MbxSt) : (s.putMbxOf k v).scrubPos = s.scrubPos := rfl
@[simp] theorem State.putMbxOf_scrubClock (s : State) (k : Nat) (v : MbxSt) : (s.putMbxOf k v).scrubClock = s.scrubClock := rfl
@[simp] theorem State.putMbxOf_scrubMark (s : State) (k : Nat) (v : MbxSt) : (s.putMbxOf k v).scrubMark = s.scrubMark := rfl
@[simp] theorem State.putMbxOf_refreshes (s : State) (k : Nat) (v : MbxSt) : (s.putMbxOf k v).refreshes = s.refreshes := rfl
@[simp] theorem State.putMbxOf_streams (s : State) (k : Nat) (v : MbxSt) : (s.putMbxOf k v).streams = s.streams := rfl
@[simp] theorem State.putMbxOf_streamShadow (s : State) (k : Nat) (v : MbxSt) : (s.putMbxOf k v).streamShadow = s.streamShadow := rfl
@[simp] theorem State.putMbxOf_runs (s : State) (k : Nat) (v : MbxSt) : (s.putMbxOf k v).runs = s.runs := rfl
@[simp] theorem State.putMbxOf_sepoch (s : State) (k : Nat) (v : MbxSt) : (s.putMbxOf k v).sepoch = s.sepoch := rfl
@[simp] theorem State.putMbxOf_streamSwitch (s : State) (k : Nat) (v : MbxSt) : (s.putMbxOf k v).streamSwitch = s.streamSwitch := rfl
@[simp] theorem State.putMbxOf_streamHeld (s : State) (k : Nat) (v : MbxSt) : (s.putMbxOf k v).streamHeld = s.streamHeld := rfl
@[simp] theorem State.putMbxOf_streamTurn (s : State) (k : Nat) (v : MbxSt) : (s.putMbxOf k v).streamTurn = s.streamTurn := rfl
@[simp] theorem State.putMbxOf_eth (s : State) (k : Nat) (v : MbxSt) : (s.putMbxOf k v).eth = s.eth := rfl
@[simp] theorem State.putMbxOf_ethAddr (s : State) (k : Nat) (v : MbxSt) : (s.putMbxOf k v).ethAddr = s.ethAddr := rfl
@[simp] theorem State.putMbxOf_dmaIdx (s : State) (k : Nat) (v : MbxSt) : (s.putMbxOf k v).dmaIdx = s.dmaIdx := rfl
@[simp] theorem State.putMbxOf_dmaRecheck (s : State) (k : Nat) (v : MbxSt) : (s.putMbxOf k v).dmaRecheck = s.dmaRecheck := rfl
@[simp] theorem State.putMbxOf_msixTable (s : State) (k : Nat) (v : MbxSt) : (s.putMbxOf k v).msixTable = s.msixTable := rfl
@[simp] theorem State.putMbxOf_pba (s : State) (k : Nat) (v : MbxSt) : (s.putMbxOf k v).pba = s.pba := rfl
@[simp] theorem State.putMbxOf_mbxImage (s : State) (k : Nat) (v : MbxSt) : (s.putMbxOf k v).mbxImage = s.mbxImage := rfl
@[simp] theorem State.putMbxOf_stored (s : State) (k : Nat) (v : MbxSt) : (s.putMbxOf k v).stored = s.stored := rfl
@[simp] theorem State.putMbxOf_hello (s : State) (k : Nat) (v : MbxSt) : (s.putMbxOf k v).hello = s.hello := rfl
@[simp] theorem State.putMbxOf_grants (s : State) (k : Nat) (v : MbxSt) : (s.putMbxOf k v).grants = s.grants := rfl
@[simp] theorem State.putMbxOf_stages (s : State) (k : Nat) (v : MbxSt) : (s.putMbxOf k v).stages = s.stages := rfl
@[simp] theorem State.putMbxOf_recvCount (s : State) (k : Nat) (v : MbxSt) : (s.putMbxOf k v).recvCount = s.recvCount := rfl
@[simp] theorem State.putMbxOf_errs (s : State) (k : Nat) (v : MbxSt) : (s.putMbxOf k v).errs = s.errs := rfl
@[simp] theorem State.putMbxOf_rseq (s : State) (k : Nat) (v : MbxSt) : (s.putMbxOf k v).rseq = s.rseq := rfl
@[simp] theorem State.putMbxOf_dice (s : State) (k : Nat) (v : MbxSt) : (s.putMbxOf k v).dice = s.dice := rfl
@[simp] theorem State.putMbxOf_ledger (s : State) (k : Nat) (v : MbxSt) : (s.putMbxOf k v).ledger = s.ledger := rfl
@[simp] theorem State.putMbxOf_trust (s : State) (k : Nat) (v : MbxSt) : (s.putMbxOf k v).trust = s.trust := rfl
@[simp] theorem State.putMbxOf_cond (s : State) (k : Nat) (v : MbxSt) : (s.putMbxOf k v).cond = s.cond := rfl
@[simp] theorem State.putMbxOf_ckpts (s : State) (k : Nat) (v : MbxSt) : (s.putMbxOf k v).ckpts = s.ckpts := rfl
@[simp] theorem State.putMbxOf_pair (s : State) (k : Nat) (v : MbxSt) : (s.putMbxOf k v).pair = s.pair := rfl
@[simp] theorem State.putMbxOf_agent (s : State) (k : Nat) (v : MbxSt) : (s.putMbxOf k v).agent = s.agent := rfl
@[simp] theorem State.putMbxOf_power (s : State) (k : Nat) (v : MbxSt) : (s.putMbxOf k v).power = s.power := rfl
@[simp] theorem State.putMbxOf_phys (s : State) (k : Nat) (v : MbxSt) : (s.putMbxOf k v).phys = s.phys := rfl
@[simp] theorem State.putMbxOf_cnt (s : State) (k : Nat) (v : MbxSt) : (s.putMbxOf k v).cnt = s.cnt := rfl
@[simp] theorem State.putMbxOf_mainSince (s : State) (k : Nat) (v : MbxSt) : (s.putMbxOf k v).mainSince = s.mainSince := rfl
@[simp] theorem State.putMbxOf_cntHeld (s : State) (k : Nat) (v : MbxSt) : (s.putMbxOf k v).cntHeld = s.cntHeld := rfl
@[simp] theorem State.putMbxOf_always (s : State) (k : Nat) (v : MbxSt) : (s.putMbxOf k v).always = s.always := rfl
@[simp] theorem State.putMbxOf_linkCnt (s : State) (k : Nat) (v : MbxSt) : (s.putMbxOf k v).linkCnt = s.linkCnt := rfl
@[simp] theorem State.putMbxOf_ssSeq (s : State) (k : Nat) (v : MbxSt) : (s.putMbxOf k v).ssSeq = s.ssSeq := rfl
@[simp] theorem State.putMbxOf_ssBusy (s : State) (k : Nat) (v : MbxSt) : (s.putMbxOf k v).ssBusy = s.ssBusy := rfl
@[simp] theorem State.putMbxOf_ssSkippedBefore (s : State) (k : Nat) (v : MbxSt) : (s.putMbxOf k v).ssSkippedBefore = s.ssSkippedBefore := rfl
@[simp] theorem State.putMbxOf_ssRecord (s : State) (k : Nat) (v : MbxSt) : (s.putMbxOf k v).ssRecord = s.ssRecord := rfl
@[simp] theorem State.putMbxOf_ssPending (s : State) (k : Nat) (v : MbxSt) : (s.putMbxOf k v).ssPending = s.ssPending := rfl
@[simp] theorem State.putMbxOf_mismatchHours (s : State) (k : Nat) (v : MbxSt) : (s.putMbxOf k v).mismatchHours = s.mismatchHours := rfl

/-! ## An instance -/

@[simp] theorem State.putInst_pending (s : State) (a b : Nat) (v : Instance) : (s.putInst a b v).pending = s.pending := rfl
@[simp] theorem State.putInst_now (s : State) (a b : Nat) (v : Instance) : (s.putInst a b v).now = s.now := rfl
@[simp] theorem State.putInst_tick (s : State) (a b : Nat) (v : Instance) : (s.putInst a b v).tick = s.tick := rfl
@[simp] theorem State.putInst_fresh (s : State) (a b : Nat) (v : Instance) : (s.putInst a b v).fresh = s.fresh := rfl
@[simp] theorem State.putInst_out (s : State) (a b : Nat) (v : Instance) : (s.putInst a b v).out = s.out := rfl
@[simp] theorem State.putInst_carried (s : State) (a b : Nat) (v : Instance) : (s.putInst a b v).carried = s.carried := rfl
@[simp] theorem State.putInst_regs (s : State) (a b : Nat) (v : Instance) : (s.putInst a b v).regs = s.regs := rfl
@[simp] theorem State.putInst_plane (s : State) (a b : Nat) (v : Instance) : (s.putInst a b v).plane = s.plane := rfl
@[simp] theorem State.putInst_tray (s : State) (a b : Nat) (v : Instance) : (s.putInst a b v).tray = s.tray := rfl
@[simp] theorem State.putInst_plan (s : State) (a b : Nat) (v : Instance) : (s.putInst a b v).plan = s.plan := rfl
@[simp] theorem State.putInst_planLive (s : State) (a b : Nat) (v : Instance) : (s.putInst a b v).planLive = s.planLive := rfl
@[simp] theorem State.putInst_planHash (s : State) (a b : Nat) (v : Instance) : (s.putInst a b v).planHash = s.planHash := rfl
@[simp] theorem State.putInst_ports (s : State) (a b : Nat) (v : Instance) : (s.putInst a b v).ports = s.ports := rfl
@[simp] theorem State.putInst_lanes (s : State) (a b : Nat) (v : Instance) : (s.putInst a b v).lanes = s.lanes := rfl
@[simp] theorem State.putInst_tx (s : State) (a b : Nat) (v : Instance) : (s.putInst a b v).tx = s.tx := rfl
@[simp] theorem State.putInst_lines (s : State) (a b : Nat) (v : Instance) : (s.putInst a b v).lines = s.lines := rfl
@[simp] theorem State.putInst_rx (s : State) (a b : Nat) (v : Instance) : (s.putInst a b v).rx = s.rx := rfl
@[simp] theorem State.putInst_inq (s : State) (a b : Nat) (v : Instance) : (s.putInst a b v).inq = s.inq := rfl
@[simp] theorem State.putInst_outq (s : State) (a b : Nat) (v : Instance) : (s.putInst a b v).outq = s.outq := rfl
@[simp] theorem State.putInst_vcbuf (s : State) (a b : Nat) (v : Instance) : (s.putInst a b v).vcbuf = s.vcbuf := rfl
@[simp] theorem State.putInst_qcharge (s : State) (a b : Nat) (v : Instance) : (s.putInst a b v).qcharge = s.qcharge := rfl
@[simp] theorem State.putInst_shared (s : State) (a b : Nat) (v : Instance) : (s.putInst a b v).shared = s.shared := rfl
@[simp] theorem State.putInst_arb (s : State) (a b : Nat) (v : Instance) : (s.putInst a b v).arb = s.arb := rfl
@[simp] theorem State.putInst_tables (s : State) (a b : Nat) (v : Instance) : (s.putInst a b v).tables = s.tables := rfl
@[simp] theorem State.putInst_shadow (s : State) (a b : Nat) (v : Instance) : (s.putInst a b v).shadow = s.shadow := rfl
@[simp] theorem State.putInst_escVia (s : State) (a b : Nat) (v : Instance) : (s.putInst a b v).escVia = s.escVia := rfl
@[simp] theorem State.putInst_lfsr (s : State) (a b : Nat) (v : Instance) : (s.putInst a b v).lfsr = s.lfsr := rfl
@[simp] theorem State.putInst_inFlows (s : State) (a b : Nat) (v : Instance) : (s.putInst a b v).inFlows = s.inFlows := rfl
@[simp] theorem State.putInst_egFlows (s : State) (a b : Nat) (v : Instance) : (s.putInst a b v).egFlows = s.egFlows := rfl
@[simp] theorem State.putInst_buckets (s : State) (a b : Nat) (v : Instance) : (s.putInst a b v).buckets = s.buckets := rfl
@[simp] theorem State.putInst_local_ (s : State) (a b : Nat) (v : Instance) : (s.putInst a b v).local_ = s.local_ := rfl
@[simp] theorem State.putInst_cellWait (s : State) (a b : Nat) (v : Instance) : (s.putInst a b v).cellWait = s.cellWait := rfl
@[simp] theorem State.putInst_notices (s : State) (a b : Nat) (v : Instance) : (s.putInst a b v).notices = s.notices := rfl
@[simp] theorem State.putInst_heldPkts (s : State) (a b : Nat) (v : Instance) : (s.putInst a b v).heldPkts = s.heldPkts := rfl
@[simp] theorem State.putInst_unitEvents (s : State) (a b : Nat) (v : Instance) : (s.putInst a b v).unitEvents = s.unitEvents := rfl
@[simp] theorem State.putInst_nextCast (s : State) (a b : Nat) (v : Instance) : (s.putInst a b v).nextCast = s.nextCast := rfl
@[simp] theorem State.putInst_bindCount (s : State) (a b : Nat) (v : Instance) : (s.putInst a b v).bindCount = s.bindCount := rfl
@[simp] theorem State.putInst_instCount (s : State) (a b : Nat) (v : Instance) : (s.putInst a b v).instCount = s.instCount := rfl
@[simp] theorem State.putInst_topDown (s : State) (a b : Nat) (v : Instance) : (s.putInst a b v).topDown = s.topDown := rfl
@[simp] theorem State.putInst_waitCmds (s : State) (a b : Nat) (v : Instance) : (s.putInst a b v).waitCmds = s.waitCmds := rfl
@[simp] theorem State.putInst_restarting (s : State) (a b : Nat) (v : Instance) : (s.putInst a b v).restarting = s.restarting := rfl
@[simp] theorem State.putInst_verifySlices (s : State) (a b : Nat) (v : Instance) : (s.putInst a b v).verifySlices = s.verifySlices := rfl
@[simp] theorem State.putInst_groups (s : State) (a b : Nat) (v : Instance) : (s.putInst a b v).groups = s.groups := rfl
@[simp] theorem State.putInst_slots (s : State) (a b : Nat) (v : Instance) : (s.putInst a b v).slots = s.slots := rfl
@[simp] theorem State.putInst_bindWaits (s : State) (a b : Nat) (v : Instance) : (s.putInst a b v).bindWaits = s.bindWaits := rfl
@[simp] theorem State.putInst_banks (s : State) (a b : Nat) (v : Instance) : (s.putInst a b v).banks = s.banks := rfl
@[simp] theorem State.putInst_retired (s : State) (a b : Nat) (v : Instance) : (s.putInst a b v).retired = s.retired := rfl
@[simp] theorem State.putInst_spares (s : State) (a b : Nat) (v : Instance) : (s.putInst a b v).spares = s.spares := rfl
@[simp] theorem State.putInst_symTimes (s : State) (a b : Nat) (v : Instance) : (s.putInst a b v).symTimes = s.symTimes := rfl
@[simp] theorem State.putInst_ueWords (s : State) (a b : Nat) (v : Instance) : (s.putInst a b v).ueWords = s.ueWords := rfl
@[simp] theorem State.putInst_retireAsk (s : State) (a b : Nat) (v : Instance) : (s.putInst a b v).retireAsk = s.retireAsk := rfl
@[simp] theorem State.putInst_recarve (s : State) (a b : Nat) (v : Instance) : (s.putInst a b v).recarve = s.recarve := rfl
@[simp] theorem State.putInst_outOfService (s : State) (a b : Nat) (v : Instance) : (s.putInst a b v).outOfService = s.outOfService := rfl
@[simp] theorem State.putInst_cdcOut (s : State) (a b : Nat) (v : Instance) : (s.putInst a b v).cdcOut = s.cdcOut := rfl
@[simp] theorem State.putInst_dmaCount (s : State) (a b : Nat) (v : Instance) : (s.putInst a b v).dmaCount = s.dmaCount := rfl
@[simp] theorem State.putInst_ctxs (s : State) (a b : Nat) (v : Instance) : (s.putInst a b v).ctxs = s.ctxs := rfl
@[simp] theorem State.putInst_coreFenced (s : State) (a b : Nat) (v : Instance) : (s.putInst a b v).coreFenced = s.coreFenced := rfl
@[simp] theorem State.putInst_rrCtx (s : State) (a b : Nat) (v : Instance) : (s.putInst a b v).rrCtx = s.rrCtx := rfl
@[simp] theorem State.putInst_programs (s : State) (a b : Nat) (v : Instance) : (s.putInst a b v).programs = s.programs := rfl
@[simp] theorem State.putInst_mem (s : State) (a b : Nat) (v : Instance) : (s.putInst a b v).mem = s.mem := rfl
@[simp] theorem State.putInst_memPoison (s : State) (a b : Nat) (v : Instance) : (s.putInst a b v).memPoison = s.memPoison := rfl
@[simp] theorem State.putInst_memReads (s : State) (a b : Nat) (v : Instance) : (s.putInst a b v).memReads = s.memReads := rfl
@[simp] theorem State.putInst_nextMemTag (s : State) (a b : Nat) (v : Instance) : (s.putInst a b v).nextMemTag = s.nextMemTag := rfl
@[simp] theorem State.putInst_ownReqs (s : State) (a b : Nat) (v : Instance) : (s.putInst a b v).ownReqs = s.ownReqs := rfl
@[simp] theorem State.putInst_ownRsps (s : State) (a b : Nat) (v : Instance) : (s.putInst a b v).ownRsps = s.ownRsps := rfl
@[simp] theorem State.putInst_scrubPos (s : State) (a b : Nat) (v : Instance) : (s.putInst a b v).scrubPos = s.scrubPos := rfl
@[simp] theorem State.putInst_scrubClock (s : State) (a b : Nat) (v : Instance) : (s.putInst a b v).scrubClock = s.scrubClock := rfl
@[simp] theorem State.putInst_scrubMark (s : State) (a b : Nat) (v : Instance) : (s.putInst a b v).scrubMark = s.scrubMark := rfl
@[simp] theorem State.putInst_refreshes (s : State) (a b : Nat) (v : Instance) : (s.putInst a b v).refreshes = s.refreshes := rfl
@[simp] theorem State.putInst_streams (s : State) (a b : Nat) (v : Instance) : (s.putInst a b v).streams = s.streams := rfl
@[simp] theorem State.putInst_streamShadow (s : State) (a b : Nat) (v : Instance) : (s.putInst a b v).streamShadow = s.streamShadow := rfl
@[simp] theorem State.putInst_runs (s : State) (a b : Nat) (v : Instance) : (s.putInst a b v).runs = s.runs := rfl
@[simp] theorem State.putInst_sepoch (s : State) (a b : Nat) (v : Instance) : (s.putInst a b v).sepoch = s.sepoch := rfl
@[simp] theorem State.putInst_streamSwitch (s : State) (a b : Nat) (v : Instance) : (s.putInst a b v).streamSwitch = s.streamSwitch := rfl
@[simp] theorem State.putInst_streamHeld (s : State) (a b : Nat) (v : Instance) : (s.putInst a b v).streamHeld = s.streamHeld := rfl
@[simp] theorem State.putInst_streamTurn (s : State) (a b : Nat) (v : Instance) : (s.putInst a b v).streamTurn = s.streamTurn := rfl
@[simp] theorem State.putInst_eth (s : State) (a b : Nat) (v : Instance) : (s.putInst a b v).eth = s.eth := rfl
@[simp] theorem State.putInst_ethAddr (s : State) (a b : Nat) (v : Instance) : (s.putInst a b v).ethAddr = s.ethAddr := rfl
@[simp] theorem State.putInst_dmaIdx (s : State) (a b : Nat) (v : Instance) : (s.putInst a b v).dmaIdx = s.dmaIdx := rfl
@[simp] theorem State.putInst_dmaRecheck (s : State) (a b : Nat) (v : Instance) : (s.putInst a b v).dmaRecheck = s.dmaRecheck := rfl
@[simp] theorem State.putInst_msixTable (s : State) (a b : Nat) (v : Instance) : (s.putInst a b v).msixTable = s.msixTable := rfl
@[simp] theorem State.putInst_pba (s : State) (a b : Nat) (v : Instance) : (s.putInst a b v).pba = s.pba := rfl
@[simp] theorem State.putInst_mbx (s : State) (a b : Nat) (v : Instance) : (s.putInst a b v).mbx = s.mbx := rfl
@[simp] theorem State.putInst_mbxImage (s : State) (a b : Nat) (v : Instance) : (s.putInst a b v).mbxImage = s.mbxImage := rfl
@[simp] theorem State.putInst_stored (s : State) (a b : Nat) (v : Instance) : (s.putInst a b v).stored = s.stored := rfl
@[simp] theorem State.putInst_hello (s : State) (a b : Nat) (v : Instance) : (s.putInst a b v).hello = s.hello := rfl
@[simp] theorem State.putInst_grants (s : State) (a b : Nat) (v : Instance) : (s.putInst a b v).grants = s.grants := rfl
@[simp] theorem State.putInst_stages (s : State) (a b : Nat) (v : Instance) : (s.putInst a b v).stages = s.stages := rfl
@[simp] theorem State.putInst_recvCount (s : State) (a b : Nat) (v : Instance) : (s.putInst a b v).recvCount = s.recvCount := rfl
@[simp] theorem State.putInst_errs (s : State) (a b : Nat) (v : Instance) : (s.putInst a b v).errs = s.errs := rfl
@[simp] theorem State.putInst_rseq (s : State) (a b : Nat) (v : Instance) : (s.putInst a b v).rseq = s.rseq := rfl
@[simp] theorem State.putInst_dice (s : State) (a b : Nat) (v : Instance) : (s.putInst a b v).dice = s.dice := rfl
@[simp] theorem State.putInst_ledger (s : State) (a b : Nat) (v : Instance) : (s.putInst a b v).ledger = s.ledger := rfl
@[simp] theorem State.putInst_trust (s : State) (a b : Nat) (v : Instance) : (s.putInst a b v).trust = s.trust := rfl
@[simp] theorem State.putInst_cond (s : State) (a b : Nat) (v : Instance) : (s.putInst a b v).cond = s.cond := rfl
@[simp] theorem State.putInst_ckpts (s : State) (a b : Nat) (v : Instance) : (s.putInst a b v).ckpts = s.ckpts := rfl
@[simp] theorem State.putInst_pair (s : State) (a b : Nat) (v : Instance) : (s.putInst a b v).pair = s.pair := rfl
@[simp] theorem State.putInst_agent (s : State) (a b : Nat) (v : Instance) : (s.putInst a b v).agent = s.agent := rfl
@[simp] theorem State.putInst_power (s : State) (a b : Nat) (v : Instance) : (s.putInst a b v).power = s.power := rfl
@[simp] theorem State.putInst_phys (s : State) (a b : Nat) (v : Instance) : (s.putInst a b v).phys = s.phys := rfl
@[simp] theorem State.putInst_cnt (s : State) (a b : Nat) (v : Instance) : (s.putInst a b v).cnt = s.cnt := rfl
@[simp] theorem State.putInst_mainSince (s : State) (a b : Nat) (v : Instance) : (s.putInst a b v).mainSince = s.mainSince := rfl
@[simp] theorem State.putInst_cntHeld (s : State) (a b : Nat) (v : Instance) : (s.putInst a b v).cntHeld = s.cntHeld := rfl
@[simp] theorem State.putInst_always (s : State) (a b : Nat) (v : Instance) : (s.putInst a b v).always = s.always := rfl
@[simp] theorem State.putInst_linkCnt (s : State) (a b : Nat) (v : Instance) : (s.putInst a b v).linkCnt = s.linkCnt := rfl
@[simp] theorem State.putInst_ssSeq (s : State) (a b : Nat) (v : Instance) : (s.putInst a b v).ssSeq = s.ssSeq := rfl
@[simp] theorem State.putInst_ssBusy (s : State) (a b : Nat) (v : Instance) : (s.putInst a b v).ssBusy = s.ssBusy := rfl
@[simp] theorem State.putInst_ssSkippedBefore (s : State) (a b : Nat) (v : Instance) : (s.putInst a b v).ssSkippedBefore = s.ssSkippedBefore := rfl
@[simp] theorem State.putInst_ssRecord (s : State) (a b : Nat) (v : Instance) : (s.putInst a b v).ssRecord = s.ssRecord := rfl
@[simp] theorem State.putInst_ssPending (s : State) (a b : Nat) (v : Instance) : (s.putInst a b v).ssPending = s.ssPending := rfl
@[simp] theorem State.putInst_mismatchHours (s : State) (a b : Nat) (v : Instance) : (s.putInst a b v).mismatchHours = s.mismatchHours := rfl

/-! ## An instance removed -/

@[simp] theorem State.dropInst_pending (s : State) (a b : Nat) : (s.dropInst a b).pending = s.pending := rfl
@[simp] theorem State.dropInst_now (s : State) (a b : Nat) : (s.dropInst a b).now = s.now := rfl
@[simp] theorem State.dropInst_tick (s : State) (a b : Nat) : (s.dropInst a b).tick = s.tick := rfl
@[simp] theorem State.dropInst_fresh (s : State) (a b : Nat) : (s.dropInst a b).fresh = s.fresh := rfl
@[simp] theorem State.dropInst_out (s : State) (a b : Nat) : (s.dropInst a b).out = s.out := rfl
@[simp] theorem State.dropInst_carried (s : State) (a b : Nat) : (s.dropInst a b).carried = s.carried := rfl
@[simp] theorem State.dropInst_regs (s : State) (a b : Nat) : (s.dropInst a b).regs = s.regs := rfl
@[simp] theorem State.dropInst_plane (s : State) (a b : Nat) : (s.dropInst a b).plane = s.plane := rfl
@[simp] theorem State.dropInst_tray (s : State) (a b : Nat) : (s.dropInst a b).tray = s.tray := rfl
@[simp] theorem State.dropInst_plan (s : State) (a b : Nat) : (s.dropInst a b).plan = s.plan := rfl
@[simp] theorem State.dropInst_planLive (s : State) (a b : Nat) : (s.dropInst a b).planLive = s.planLive := rfl
@[simp] theorem State.dropInst_planHash (s : State) (a b : Nat) : (s.dropInst a b).planHash = s.planHash := rfl
@[simp] theorem State.dropInst_ports (s : State) (a b : Nat) : (s.dropInst a b).ports = s.ports := rfl
@[simp] theorem State.dropInst_lanes (s : State) (a b : Nat) : (s.dropInst a b).lanes = s.lanes := rfl
@[simp] theorem State.dropInst_tx (s : State) (a b : Nat) : (s.dropInst a b).tx = s.tx := rfl
@[simp] theorem State.dropInst_lines (s : State) (a b : Nat) : (s.dropInst a b).lines = s.lines := rfl
@[simp] theorem State.dropInst_rx (s : State) (a b : Nat) : (s.dropInst a b).rx = s.rx := rfl
@[simp] theorem State.dropInst_inq (s : State) (a b : Nat) : (s.dropInst a b).inq = s.inq := rfl
@[simp] theorem State.dropInst_outq (s : State) (a b : Nat) : (s.dropInst a b).outq = s.outq := rfl
@[simp] theorem State.dropInst_vcbuf (s : State) (a b : Nat) : (s.dropInst a b).vcbuf = s.vcbuf := rfl
@[simp] theorem State.dropInst_qcharge (s : State) (a b : Nat) : (s.dropInst a b).qcharge = s.qcharge := rfl
@[simp] theorem State.dropInst_shared (s : State) (a b : Nat) : (s.dropInst a b).shared = s.shared := rfl
@[simp] theorem State.dropInst_arb (s : State) (a b : Nat) : (s.dropInst a b).arb = s.arb := rfl
@[simp] theorem State.dropInst_tables (s : State) (a b : Nat) : (s.dropInst a b).tables = s.tables := rfl
@[simp] theorem State.dropInst_shadow (s : State) (a b : Nat) : (s.dropInst a b).shadow = s.shadow := rfl
@[simp] theorem State.dropInst_escVia (s : State) (a b : Nat) : (s.dropInst a b).escVia = s.escVia := rfl
@[simp] theorem State.dropInst_lfsr (s : State) (a b : Nat) : (s.dropInst a b).lfsr = s.lfsr := rfl
@[simp] theorem State.dropInst_inFlows (s : State) (a b : Nat) : (s.dropInst a b).inFlows = s.inFlows := rfl
@[simp] theorem State.dropInst_egFlows (s : State) (a b : Nat) : (s.dropInst a b).egFlows = s.egFlows := rfl
@[simp] theorem State.dropInst_buckets (s : State) (a b : Nat) : (s.dropInst a b).buckets = s.buckets := rfl
@[simp] theorem State.dropInst_local_ (s : State) (a b : Nat) : (s.dropInst a b).local_ = s.local_ := rfl
@[simp] theorem State.dropInst_cellWait (s : State) (a b : Nat) : (s.dropInst a b).cellWait = s.cellWait := rfl
@[simp] theorem State.dropInst_notices (s : State) (a b : Nat) : (s.dropInst a b).notices = s.notices := rfl
@[simp] theorem State.dropInst_heldPkts (s : State) (a b : Nat) : (s.dropInst a b).heldPkts = s.heldPkts := rfl
@[simp] theorem State.dropInst_unitEvents (s : State) (a b : Nat) : (s.dropInst a b).unitEvents = s.unitEvents := rfl
@[simp] theorem State.dropInst_nextCast (s : State) (a b : Nat) : (s.dropInst a b).nextCast = s.nextCast := rfl
@[simp] theorem State.dropInst_bindCount (s : State) (a b : Nat) : (s.dropInst a b).bindCount = s.bindCount := rfl
@[simp] theorem State.dropInst_instCount (s : State) (a b : Nat) : (s.dropInst a b).instCount = s.instCount := rfl
@[simp] theorem State.dropInst_topDown (s : State) (a b : Nat) : (s.dropInst a b).topDown = s.topDown := rfl
@[simp] theorem State.dropInst_waitCmds (s : State) (a b : Nat) : (s.dropInst a b).waitCmds = s.waitCmds := rfl
@[simp] theorem State.dropInst_restarting (s : State) (a b : Nat) : (s.dropInst a b).restarting = s.restarting := rfl
@[simp] theorem State.dropInst_verifySlices (s : State) (a b : Nat) : (s.dropInst a b).verifySlices = s.verifySlices := rfl
@[simp] theorem State.dropInst_groups (s : State) (a b : Nat) : (s.dropInst a b).groups = s.groups := rfl
@[simp] theorem State.dropInst_slots (s : State) (a b : Nat) : (s.dropInst a b).slots = s.slots := rfl
@[simp] theorem State.dropInst_bindWaits (s : State) (a b : Nat) : (s.dropInst a b).bindWaits = s.bindWaits := rfl
@[simp] theorem State.dropInst_banks (s : State) (a b : Nat) : (s.dropInst a b).banks = s.banks := rfl
@[simp] theorem State.dropInst_retired (s : State) (a b : Nat) : (s.dropInst a b).retired = s.retired := rfl
@[simp] theorem State.dropInst_spares (s : State) (a b : Nat) : (s.dropInst a b).spares = s.spares := rfl
@[simp] theorem State.dropInst_symTimes (s : State) (a b : Nat) : (s.dropInst a b).symTimes = s.symTimes := rfl
@[simp] theorem State.dropInst_ueWords (s : State) (a b : Nat) : (s.dropInst a b).ueWords = s.ueWords := rfl
@[simp] theorem State.dropInst_retireAsk (s : State) (a b : Nat) : (s.dropInst a b).retireAsk = s.retireAsk := rfl
@[simp] theorem State.dropInst_recarve (s : State) (a b : Nat) : (s.dropInst a b).recarve = s.recarve := rfl
@[simp] theorem State.dropInst_outOfService (s : State) (a b : Nat) : (s.dropInst a b).outOfService = s.outOfService := rfl
@[simp] theorem State.dropInst_cdcOut (s : State) (a b : Nat) : (s.dropInst a b).cdcOut = s.cdcOut := rfl
@[simp] theorem State.dropInst_dmaCount (s : State) (a b : Nat) : (s.dropInst a b).dmaCount = s.dmaCount := rfl
@[simp] theorem State.dropInst_ctxs (s : State) (a b : Nat) : (s.dropInst a b).ctxs = s.ctxs := rfl
@[simp] theorem State.dropInst_coreFenced (s : State) (a b : Nat) : (s.dropInst a b).coreFenced = s.coreFenced := rfl
@[simp] theorem State.dropInst_rrCtx (s : State) (a b : Nat) : (s.dropInst a b).rrCtx = s.rrCtx := rfl
@[simp] theorem State.dropInst_programs (s : State) (a b : Nat) : (s.dropInst a b).programs = s.programs := rfl
@[simp] theorem State.dropInst_mem (s : State) (a b : Nat) : (s.dropInst a b).mem = s.mem := rfl
@[simp] theorem State.dropInst_memPoison (s : State) (a b : Nat) : (s.dropInst a b).memPoison = s.memPoison := rfl
@[simp] theorem State.dropInst_memReads (s : State) (a b : Nat) : (s.dropInst a b).memReads = s.memReads := rfl
@[simp] theorem State.dropInst_nextMemTag (s : State) (a b : Nat) : (s.dropInst a b).nextMemTag = s.nextMemTag := rfl
@[simp] theorem State.dropInst_ownReqs (s : State) (a b : Nat) : (s.dropInst a b).ownReqs = s.ownReqs := rfl
@[simp] theorem State.dropInst_ownRsps (s : State) (a b : Nat) : (s.dropInst a b).ownRsps = s.ownRsps := rfl
@[simp] theorem State.dropInst_scrubPos (s : State) (a b : Nat) : (s.dropInst a b).scrubPos = s.scrubPos := rfl
@[simp] theorem State.dropInst_scrubClock (s : State) (a b : Nat) : (s.dropInst a b).scrubClock = s.scrubClock := rfl
@[simp] theorem State.dropInst_scrubMark (s : State) (a b : Nat) : (s.dropInst a b).scrubMark = s.scrubMark := rfl
@[simp] theorem State.dropInst_refreshes (s : State) (a b : Nat) : (s.dropInst a b).refreshes = s.refreshes := rfl
@[simp] theorem State.dropInst_streams (s : State) (a b : Nat) : (s.dropInst a b).streams = s.streams := rfl
@[simp] theorem State.dropInst_streamShadow (s : State) (a b : Nat) : (s.dropInst a b).streamShadow = s.streamShadow := rfl
@[simp] theorem State.dropInst_runs (s : State) (a b : Nat) : (s.dropInst a b).runs = s.runs := rfl
@[simp] theorem State.dropInst_sepoch (s : State) (a b : Nat) : (s.dropInst a b).sepoch = s.sepoch := rfl
@[simp] theorem State.dropInst_streamSwitch (s : State) (a b : Nat) : (s.dropInst a b).streamSwitch = s.streamSwitch := rfl
@[simp] theorem State.dropInst_streamHeld (s : State) (a b : Nat) : (s.dropInst a b).streamHeld = s.streamHeld := rfl
@[simp] theorem State.dropInst_streamTurn (s : State) (a b : Nat) : (s.dropInst a b).streamTurn = s.streamTurn := rfl
@[simp] theorem State.dropInst_eth (s : State) (a b : Nat) : (s.dropInst a b).eth = s.eth := rfl
@[simp] theorem State.dropInst_ethAddr (s : State) (a b : Nat) : (s.dropInst a b).ethAddr = s.ethAddr := rfl
@[simp] theorem State.dropInst_dmaIdx (s : State) (a b : Nat) : (s.dropInst a b).dmaIdx = s.dmaIdx := rfl
@[simp] theorem State.dropInst_dmaRecheck (s : State) (a b : Nat) : (s.dropInst a b).dmaRecheck = s.dmaRecheck := rfl
@[simp] theorem State.dropInst_msixTable (s : State) (a b : Nat) : (s.dropInst a b).msixTable = s.msixTable := rfl
@[simp] theorem State.dropInst_pba (s : State) (a b : Nat) : (s.dropInst a b).pba = s.pba := rfl
@[simp] theorem State.dropInst_mbx (s : State) (a b : Nat) : (s.dropInst a b).mbx = s.mbx := rfl
@[simp] theorem State.dropInst_mbxImage (s : State) (a b : Nat) : (s.dropInst a b).mbxImage = s.mbxImage := rfl
@[simp] theorem State.dropInst_stored (s : State) (a b : Nat) : (s.dropInst a b).stored = s.stored := rfl
@[simp] theorem State.dropInst_hello (s : State) (a b : Nat) : (s.dropInst a b).hello = s.hello := rfl
@[simp] theorem State.dropInst_grants (s : State) (a b : Nat) : (s.dropInst a b).grants = s.grants := rfl
@[simp] theorem State.dropInst_stages (s : State) (a b : Nat) : (s.dropInst a b).stages = s.stages := rfl
@[simp] theorem State.dropInst_recvCount (s : State) (a b : Nat) : (s.dropInst a b).recvCount = s.recvCount := rfl
@[simp] theorem State.dropInst_errs (s : State) (a b : Nat) : (s.dropInst a b).errs = s.errs := rfl
@[simp] theorem State.dropInst_rseq (s : State) (a b : Nat) : (s.dropInst a b).rseq = s.rseq := rfl
@[simp] theorem State.dropInst_dice (s : State) (a b : Nat) : (s.dropInst a b).dice = s.dice := rfl
@[simp] theorem State.dropInst_ledger (s : State) (a b : Nat) : (s.dropInst a b).ledger = s.ledger := rfl
@[simp] theorem State.dropInst_trust (s : State) (a b : Nat) : (s.dropInst a b).trust = s.trust := rfl
@[simp] theorem State.dropInst_cond (s : State) (a b : Nat) : (s.dropInst a b).cond = s.cond := rfl
@[simp] theorem State.dropInst_ckpts (s : State) (a b : Nat) : (s.dropInst a b).ckpts = s.ckpts := rfl
@[simp] theorem State.dropInst_pair (s : State) (a b : Nat) : (s.dropInst a b).pair = s.pair := rfl
@[simp] theorem State.dropInst_agent (s : State) (a b : Nat) : (s.dropInst a b).agent = s.agent := rfl
@[simp] theorem State.dropInst_power (s : State) (a b : Nat) : (s.dropInst a b).power = s.power := rfl
@[simp] theorem State.dropInst_phys (s : State) (a b : Nat) : (s.dropInst a b).phys = s.phys := rfl
@[simp] theorem State.dropInst_cnt (s : State) (a b : Nat) : (s.dropInst a b).cnt = s.cnt := rfl
@[simp] theorem State.dropInst_mainSince (s : State) (a b : Nat) : (s.dropInst a b).mainSince = s.mainSince := rfl
@[simp] theorem State.dropInst_cntHeld (s : State) (a b : Nat) : (s.dropInst a b).cntHeld = s.cntHeld := rfl
@[simp] theorem State.dropInst_always (s : State) (a b : Nat) : (s.dropInst a b).always = s.always := rfl
@[simp] theorem State.dropInst_linkCnt (s : State) (a b : Nat) : (s.dropInst a b).linkCnt = s.linkCnt := rfl
@[simp] theorem State.dropInst_ssSeq (s : State) (a b : Nat) : (s.dropInst a b).ssSeq = s.ssSeq := rfl
@[simp] theorem State.dropInst_ssBusy (s : State) (a b : Nat) : (s.dropInst a b).ssBusy = s.ssBusy := rfl
@[simp] theorem State.dropInst_ssSkippedBefore (s : State) (a b : Nat) : (s.dropInst a b).ssSkippedBefore = s.ssSkippedBefore := rfl
@[simp] theorem State.dropInst_ssRecord (s : State) (a b : Nat) : (s.dropInst a b).ssRecord = s.ssRecord := rfl
@[simp] theorem State.dropInst_ssPending (s : State) (a b : Nat) : (s.dropInst a b).ssPending = s.ssPending := rfl
@[simp] theorem State.dropInst_mismatchHours (s : State) (a b : Nat) : (s.dropInst a b).mismatchHours = s.mismatchHours := rfl

/-! ## An always-running counter -/

@[simp] theorem State.bump_pending (s : State) (i n : Nat) : (s.bump i n).pending = s.pending := rfl
@[simp] theorem State.bump_now (s : State) (i n : Nat) : (s.bump i n).now = s.now := rfl
@[simp] theorem State.bump_tick (s : State) (i n : Nat) : (s.bump i n).tick = s.tick := rfl
@[simp] theorem State.bump_fresh (s : State) (i n : Nat) : (s.bump i n).fresh = s.fresh := rfl
@[simp] theorem State.bump_out (s : State) (i n : Nat) : (s.bump i n).out = s.out := rfl
@[simp] theorem State.bump_carried (s : State) (i n : Nat) : (s.bump i n).carried = s.carried := rfl
@[simp] theorem State.bump_regs (s : State) (i n : Nat) : (s.bump i n).regs = s.regs := rfl
@[simp] theorem State.bump_plane (s : State) (i n : Nat) : (s.bump i n).plane = s.plane := rfl
@[simp] theorem State.bump_tray (s : State) (i n : Nat) : (s.bump i n).tray = s.tray := rfl
@[simp] theorem State.bump_plan (s : State) (i n : Nat) : (s.bump i n).plan = s.plan := rfl
@[simp] theorem State.bump_planLive (s : State) (i n : Nat) : (s.bump i n).planLive = s.planLive := rfl
@[simp] theorem State.bump_planHash (s : State) (i n : Nat) : (s.bump i n).planHash = s.planHash := rfl
@[simp] theorem State.bump_ports (s : State) (i n : Nat) : (s.bump i n).ports = s.ports := rfl
@[simp] theorem State.bump_lanes (s : State) (i n : Nat) : (s.bump i n).lanes = s.lanes := rfl
@[simp] theorem State.bump_tx (s : State) (i n : Nat) : (s.bump i n).tx = s.tx := rfl
@[simp] theorem State.bump_lines (s : State) (i n : Nat) : (s.bump i n).lines = s.lines := rfl
@[simp] theorem State.bump_rx (s : State) (i n : Nat) : (s.bump i n).rx = s.rx := rfl
@[simp] theorem State.bump_inq (s : State) (i n : Nat) : (s.bump i n).inq = s.inq := rfl
@[simp] theorem State.bump_outq (s : State) (i n : Nat) : (s.bump i n).outq = s.outq := rfl
@[simp] theorem State.bump_vcbuf (s : State) (i n : Nat) : (s.bump i n).vcbuf = s.vcbuf := rfl
@[simp] theorem State.bump_qcharge (s : State) (i n : Nat) : (s.bump i n).qcharge = s.qcharge := rfl
@[simp] theorem State.bump_shared (s : State) (i n : Nat) : (s.bump i n).shared = s.shared := rfl
@[simp] theorem State.bump_arb (s : State) (i n : Nat) : (s.bump i n).arb = s.arb := rfl
@[simp] theorem State.bump_tables (s : State) (i n : Nat) : (s.bump i n).tables = s.tables := rfl
@[simp] theorem State.bump_shadow (s : State) (i n : Nat) : (s.bump i n).shadow = s.shadow := rfl
@[simp] theorem State.bump_escVia (s : State) (i n : Nat) : (s.bump i n).escVia = s.escVia := rfl
@[simp] theorem State.bump_lfsr (s : State) (i n : Nat) : (s.bump i n).lfsr = s.lfsr := rfl
@[simp] theorem State.bump_inFlows (s : State) (i n : Nat) : (s.bump i n).inFlows = s.inFlows := rfl
@[simp] theorem State.bump_egFlows (s : State) (i n : Nat) : (s.bump i n).egFlows = s.egFlows := rfl
@[simp] theorem State.bump_buckets (s : State) (i n : Nat) : (s.bump i n).buckets = s.buckets := rfl
@[simp] theorem State.bump_local_ (s : State) (i n : Nat) : (s.bump i n).local_ = s.local_ := rfl
@[simp] theorem State.bump_cellWait (s : State) (i n : Nat) : (s.bump i n).cellWait = s.cellWait := rfl
@[simp] theorem State.bump_notices (s : State) (i n : Nat) : (s.bump i n).notices = s.notices := rfl
@[simp] theorem State.bump_heldPkts (s : State) (i n : Nat) : (s.bump i n).heldPkts = s.heldPkts := rfl
@[simp] theorem State.bump_unitEvents (s : State) (i n : Nat) : (s.bump i n).unitEvents = s.unitEvents := rfl
@[simp] theorem State.bump_nextCast (s : State) (i n : Nat) : (s.bump i n).nextCast = s.nextCast := rfl
@[simp] theorem State.bump_bindCount (s : State) (i n : Nat) : (s.bump i n).bindCount = s.bindCount := rfl
@[simp] theorem State.bump_instCount (s : State) (i n : Nat) : (s.bump i n).instCount = s.instCount := rfl
@[simp] theorem State.bump_topDown (s : State) (i n : Nat) : (s.bump i n).topDown = s.topDown := rfl
@[simp] theorem State.bump_waitCmds (s : State) (i n : Nat) : (s.bump i n).waitCmds = s.waitCmds := rfl
@[simp] theorem State.bump_restarting (s : State) (i n : Nat) : (s.bump i n).restarting = s.restarting := rfl
@[simp] theorem State.bump_verifySlices (s : State) (i n : Nat) : (s.bump i n).verifySlices = s.verifySlices := rfl
@[simp] theorem State.bump_groups (s : State) (i n : Nat) : (s.bump i n).groups = s.groups := rfl
@[simp] theorem State.bump_slots (s : State) (i n : Nat) : (s.bump i n).slots = s.slots := rfl
@[simp] theorem State.bump_bindWaits (s : State) (i n : Nat) : (s.bump i n).bindWaits = s.bindWaits := rfl
@[simp] theorem State.bump_insts (s : State) (i n : Nat) : (s.bump i n).insts = s.insts := rfl
@[simp] theorem State.bump_banks (s : State) (i n : Nat) : (s.bump i n).banks = s.banks := rfl
@[simp] theorem State.bump_retired (s : State) (i n : Nat) : (s.bump i n).retired = s.retired := rfl
@[simp] theorem State.bump_spares (s : State) (i n : Nat) : (s.bump i n).spares = s.spares := rfl
@[simp] theorem State.bump_symTimes (s : State) (i n : Nat) : (s.bump i n).symTimes = s.symTimes := rfl
@[simp] theorem State.bump_ueWords (s : State) (i n : Nat) : (s.bump i n).ueWords = s.ueWords := rfl
@[simp] theorem State.bump_retireAsk (s : State) (i n : Nat) : (s.bump i n).retireAsk = s.retireAsk := rfl
@[simp] theorem State.bump_recarve (s : State) (i n : Nat) : (s.bump i n).recarve = s.recarve := rfl
@[simp] theorem State.bump_outOfService (s : State) (i n : Nat) : (s.bump i n).outOfService = s.outOfService := rfl
@[simp] theorem State.bump_cdcOut (s : State) (i n : Nat) : (s.bump i n).cdcOut = s.cdcOut := rfl
@[simp] theorem State.bump_dmaCount (s : State) (i n : Nat) : (s.bump i n).dmaCount = s.dmaCount := rfl
@[simp] theorem State.bump_ctxs (s : State) (i n : Nat) : (s.bump i n).ctxs = s.ctxs := rfl
@[simp] theorem State.bump_coreFenced (s : State) (i n : Nat) : (s.bump i n).coreFenced = s.coreFenced := rfl
@[simp] theorem State.bump_rrCtx (s : State) (i n : Nat) : (s.bump i n).rrCtx = s.rrCtx := rfl
@[simp] theorem State.bump_programs (s : State) (i n : Nat) : (s.bump i n).programs = s.programs := rfl
@[simp] theorem State.bump_mem (s : State) (i n : Nat) : (s.bump i n).mem = s.mem := rfl
@[simp] theorem State.bump_memPoison (s : State) (i n : Nat) : (s.bump i n).memPoison = s.memPoison := rfl
@[simp] theorem State.bump_memReads (s : State) (i n : Nat) : (s.bump i n).memReads = s.memReads := rfl
@[simp] theorem State.bump_nextMemTag (s : State) (i n : Nat) : (s.bump i n).nextMemTag = s.nextMemTag := rfl
@[simp] theorem State.bump_ownReqs (s : State) (i n : Nat) : (s.bump i n).ownReqs = s.ownReqs := rfl
@[simp] theorem State.bump_ownRsps (s : State) (i n : Nat) : (s.bump i n).ownRsps = s.ownRsps := rfl
@[simp] theorem State.bump_scrubPos (s : State) (i n : Nat) : (s.bump i n).scrubPos = s.scrubPos := rfl
@[simp] theorem State.bump_scrubClock (s : State) (i n : Nat) : (s.bump i n).scrubClock = s.scrubClock := rfl
@[simp] theorem State.bump_scrubMark (s : State) (i n : Nat) : (s.bump i n).scrubMark = s.scrubMark := rfl
@[simp] theorem State.bump_refreshes (s : State) (i n : Nat) : (s.bump i n).refreshes = s.refreshes := rfl
@[simp] theorem State.bump_streams (s : State) (i n : Nat) : (s.bump i n).streams = s.streams := rfl
@[simp] theorem State.bump_streamShadow (s : State) (i n : Nat) : (s.bump i n).streamShadow = s.streamShadow := rfl
@[simp] theorem State.bump_runs (s : State) (i n : Nat) : (s.bump i n).runs = s.runs := rfl
@[simp] theorem State.bump_sepoch (s : State) (i n : Nat) : (s.bump i n).sepoch = s.sepoch := rfl
@[simp] theorem State.bump_streamSwitch (s : State) (i n : Nat) : (s.bump i n).streamSwitch = s.streamSwitch := rfl
@[simp] theorem State.bump_streamHeld (s : State) (i n : Nat) : (s.bump i n).streamHeld = s.streamHeld := rfl
@[simp] theorem State.bump_streamTurn (s : State) (i n : Nat) : (s.bump i n).streamTurn = s.streamTurn := rfl
@[simp] theorem State.bump_eth (s : State) (i n : Nat) : (s.bump i n).eth = s.eth := rfl
@[simp] theorem State.bump_ethAddr (s : State) (i n : Nat) : (s.bump i n).ethAddr = s.ethAddr := rfl
@[simp] theorem State.bump_dmaIdx (s : State) (i n : Nat) : (s.bump i n).dmaIdx = s.dmaIdx := rfl
@[simp] theorem State.bump_dmaRecheck (s : State) (i n : Nat) : (s.bump i n).dmaRecheck = s.dmaRecheck := rfl
@[simp] theorem State.bump_msixTable (s : State) (i n : Nat) : (s.bump i n).msixTable = s.msixTable := rfl
@[simp] theorem State.bump_pba (s : State) (i n : Nat) : (s.bump i n).pba = s.pba := rfl
@[simp] theorem State.bump_mbx (s : State) (i n : Nat) : (s.bump i n).mbx = s.mbx := rfl
@[simp] theorem State.bump_mbxImage (s : State) (i n : Nat) : (s.bump i n).mbxImage = s.mbxImage := rfl
@[simp] theorem State.bump_stored (s : State) (i n : Nat) : (s.bump i n).stored = s.stored := rfl
@[simp] theorem State.bump_hello (s : State) (i n : Nat) : (s.bump i n).hello = s.hello := rfl
@[simp] theorem State.bump_grants (s : State) (i n : Nat) : (s.bump i n).grants = s.grants := rfl
@[simp] theorem State.bump_stages (s : State) (i n : Nat) : (s.bump i n).stages = s.stages := rfl
@[simp] theorem State.bump_recvCount (s : State) (i n : Nat) : (s.bump i n).recvCount = s.recvCount := rfl
@[simp] theorem State.bump_errs (s : State) (i n : Nat) : (s.bump i n).errs = s.errs := rfl
@[simp] theorem State.bump_rseq (s : State) (i n : Nat) : (s.bump i n).rseq = s.rseq := rfl
@[simp] theorem State.bump_dice (s : State) (i n : Nat) : (s.bump i n).dice = s.dice := rfl
@[simp] theorem State.bump_ledger (s : State) (i n : Nat) : (s.bump i n).ledger = s.ledger := rfl
@[simp] theorem State.bump_trust (s : State) (i n : Nat) : (s.bump i n).trust = s.trust := rfl
@[simp] theorem State.bump_cond (s : State) (i n : Nat) : (s.bump i n).cond = s.cond := rfl
@[simp] theorem State.bump_ckpts (s : State) (i n : Nat) : (s.bump i n).ckpts = s.ckpts := rfl
@[simp] theorem State.bump_pair (s : State) (i n : Nat) : (s.bump i n).pair = s.pair := rfl
@[simp] theorem State.bump_agent (s : State) (i n : Nat) : (s.bump i n).agent = s.agent := rfl
@[simp] theorem State.bump_power (s : State) (i n : Nat) : (s.bump i n).power = s.power := rfl
@[simp] theorem State.bump_phys (s : State) (i n : Nat) : (s.bump i n).phys = s.phys := rfl
@[simp] theorem State.bump_cnt (s : State) (i n : Nat) : (s.bump i n).cnt = s.cnt := rfl
@[simp] theorem State.bump_mainSince (s : State) (i n : Nat) : (s.bump i n).mainSince = s.mainSince := rfl
@[simp] theorem State.bump_cntHeld (s : State) (i n : Nat) : (s.bump i n).cntHeld = s.cntHeld := rfl
@[simp] theorem State.bump_linkCnt (s : State) (i n : Nat) : (s.bump i n).linkCnt = s.linkCnt := rfl
@[simp] theorem State.bump_ssSeq (s : State) (i n : Nat) : (s.bump i n).ssSeq = s.ssSeq := rfl
@[simp] theorem State.bump_ssBusy (s : State) (i n : Nat) : (s.bump i n).ssBusy = s.ssBusy := rfl
@[simp] theorem State.bump_ssSkippedBefore (s : State) (i n : Nat) : (s.bump i n).ssSkippedBefore = s.ssSkippedBefore := rfl
@[simp] theorem State.bump_ssRecord (s : State) (i n : Nat) : (s.bump i n).ssRecord = s.ssRecord := rfl
@[simp] theorem State.bump_ssPending (s : State) (i n : Nat) : (s.bump i n).ssPending = s.ssPending := rfl
@[simp] theorem State.bump_mismatchHours (s : State) (i n : Nat) : (s.bump i n).mismatchHours = s.mismatchHours := rfl

/-! ## A link counter -/

@[simp] theorem State.linkCount_pending (s : State) (p k : Nat) : (s.linkCount p k).pending = s.pending := rfl
@[simp] theorem State.linkCount_now (s : State) (p k : Nat) : (s.linkCount p k).now = s.now := rfl
@[simp] theorem State.linkCount_tick (s : State) (p k : Nat) : (s.linkCount p k).tick = s.tick := rfl
@[simp] theorem State.linkCount_fresh (s : State) (p k : Nat) : (s.linkCount p k).fresh = s.fresh := rfl
@[simp] theorem State.linkCount_out (s : State) (p k : Nat) : (s.linkCount p k).out = s.out := rfl
@[simp] theorem State.linkCount_carried (s : State) (p k : Nat) : (s.linkCount p k).carried = s.carried := rfl
@[simp] theorem State.linkCount_regs (s : State) (p k : Nat) : (s.linkCount p k).regs = s.regs := rfl
@[simp] theorem State.linkCount_plane (s : State) (p k : Nat) : (s.linkCount p k).plane = s.plane := rfl
@[simp] theorem State.linkCount_tray (s : State) (p k : Nat) : (s.linkCount p k).tray = s.tray := rfl
@[simp] theorem State.linkCount_plan (s : State) (p k : Nat) : (s.linkCount p k).plan = s.plan := rfl
@[simp] theorem State.linkCount_planLive (s : State) (p k : Nat) : (s.linkCount p k).planLive = s.planLive := rfl
@[simp] theorem State.linkCount_planHash (s : State) (p k : Nat) : (s.linkCount p k).planHash = s.planHash := rfl
@[simp] theorem State.linkCount_ports (s : State) (p k : Nat) : (s.linkCount p k).ports = s.ports := rfl
@[simp] theorem State.linkCount_lanes (s : State) (p k : Nat) : (s.linkCount p k).lanes = s.lanes := rfl
@[simp] theorem State.linkCount_tx (s : State) (p k : Nat) : (s.linkCount p k).tx = s.tx := rfl
@[simp] theorem State.linkCount_lines (s : State) (p k : Nat) : (s.linkCount p k).lines = s.lines := rfl
@[simp] theorem State.linkCount_rx (s : State) (p k : Nat) : (s.linkCount p k).rx = s.rx := rfl
@[simp] theorem State.linkCount_inq (s : State) (p k : Nat) : (s.linkCount p k).inq = s.inq := rfl
@[simp] theorem State.linkCount_outq (s : State) (p k : Nat) : (s.linkCount p k).outq = s.outq := rfl
@[simp] theorem State.linkCount_vcbuf (s : State) (p k : Nat) : (s.linkCount p k).vcbuf = s.vcbuf := rfl
@[simp] theorem State.linkCount_qcharge (s : State) (p k : Nat) : (s.linkCount p k).qcharge = s.qcharge := rfl
@[simp] theorem State.linkCount_shared (s : State) (p k : Nat) : (s.linkCount p k).shared = s.shared := rfl
@[simp] theorem State.linkCount_arb (s : State) (p k : Nat) : (s.linkCount p k).arb = s.arb := rfl
@[simp] theorem State.linkCount_tables (s : State) (p k : Nat) : (s.linkCount p k).tables = s.tables := rfl
@[simp] theorem State.linkCount_shadow (s : State) (p k : Nat) : (s.linkCount p k).shadow = s.shadow := rfl
@[simp] theorem State.linkCount_escVia (s : State) (p k : Nat) : (s.linkCount p k).escVia = s.escVia := rfl
@[simp] theorem State.linkCount_lfsr (s : State) (p k : Nat) : (s.linkCount p k).lfsr = s.lfsr := rfl
@[simp] theorem State.linkCount_inFlows (s : State) (p k : Nat) : (s.linkCount p k).inFlows = s.inFlows := rfl
@[simp] theorem State.linkCount_egFlows (s : State) (p k : Nat) : (s.linkCount p k).egFlows = s.egFlows := rfl
@[simp] theorem State.linkCount_buckets (s : State) (p k : Nat) : (s.linkCount p k).buckets = s.buckets := rfl
@[simp] theorem State.linkCount_local_ (s : State) (p k : Nat) : (s.linkCount p k).local_ = s.local_ := rfl
@[simp] theorem State.linkCount_cellWait (s : State) (p k : Nat) : (s.linkCount p k).cellWait = s.cellWait := rfl
@[simp] theorem State.linkCount_notices (s : State) (p k : Nat) : (s.linkCount p k).notices = s.notices := rfl
@[simp] theorem State.linkCount_heldPkts (s : State) (p k : Nat) : (s.linkCount p k).heldPkts = s.heldPkts := rfl
@[simp] theorem State.linkCount_unitEvents (s : State) (p k : Nat) : (s.linkCount p k).unitEvents = s.unitEvents := rfl
@[simp] theorem State.linkCount_nextCast (s : State) (p k : Nat) : (s.linkCount p k).nextCast = s.nextCast := rfl
@[simp] theorem State.linkCount_bindCount (s : State) (p k : Nat) : (s.linkCount p k).bindCount = s.bindCount := rfl
@[simp] theorem State.linkCount_instCount (s : State) (p k : Nat) : (s.linkCount p k).instCount = s.instCount := rfl
@[simp] theorem State.linkCount_topDown (s : State) (p k : Nat) : (s.linkCount p k).topDown = s.topDown := rfl
@[simp] theorem State.linkCount_waitCmds (s : State) (p k : Nat) : (s.linkCount p k).waitCmds = s.waitCmds := rfl
@[simp] theorem State.linkCount_restarting (s : State) (p k : Nat) : (s.linkCount p k).restarting = s.restarting := rfl
@[simp] theorem State.linkCount_verifySlices (s : State) (p k : Nat) : (s.linkCount p k).verifySlices = s.verifySlices := rfl
@[simp] theorem State.linkCount_groups (s : State) (p k : Nat) : (s.linkCount p k).groups = s.groups := rfl
@[simp] theorem State.linkCount_slots (s : State) (p k : Nat) : (s.linkCount p k).slots = s.slots := rfl
@[simp] theorem State.linkCount_bindWaits (s : State) (p k : Nat) : (s.linkCount p k).bindWaits = s.bindWaits := rfl
@[simp] theorem State.linkCount_insts (s : State) (p k : Nat) : (s.linkCount p k).insts = s.insts := rfl
@[simp] theorem State.linkCount_banks (s : State) (p k : Nat) : (s.linkCount p k).banks = s.banks := rfl
@[simp] theorem State.linkCount_retired (s : State) (p k : Nat) : (s.linkCount p k).retired = s.retired := rfl
@[simp] theorem State.linkCount_spares (s : State) (p k : Nat) : (s.linkCount p k).spares = s.spares := rfl
@[simp] theorem State.linkCount_symTimes (s : State) (p k : Nat) : (s.linkCount p k).symTimes = s.symTimes := rfl
@[simp] theorem State.linkCount_ueWords (s : State) (p k : Nat) : (s.linkCount p k).ueWords = s.ueWords := rfl
@[simp] theorem State.linkCount_retireAsk (s : State) (p k : Nat) : (s.linkCount p k).retireAsk = s.retireAsk := rfl
@[simp] theorem State.linkCount_recarve (s : State) (p k : Nat) : (s.linkCount p k).recarve = s.recarve := rfl
@[simp] theorem State.linkCount_outOfService (s : State) (p k : Nat) : (s.linkCount p k).outOfService = s.outOfService := rfl
@[simp] theorem State.linkCount_cdcOut (s : State) (p k : Nat) : (s.linkCount p k).cdcOut = s.cdcOut := rfl
@[simp] theorem State.linkCount_dmaCount (s : State) (p k : Nat) : (s.linkCount p k).dmaCount = s.dmaCount := rfl
@[simp] theorem State.linkCount_ctxs (s : State) (p k : Nat) : (s.linkCount p k).ctxs = s.ctxs := rfl
@[simp] theorem State.linkCount_coreFenced (s : State) (p k : Nat) : (s.linkCount p k).coreFenced = s.coreFenced := rfl
@[simp] theorem State.linkCount_rrCtx (s : State) (p k : Nat) : (s.linkCount p k).rrCtx = s.rrCtx := rfl
@[simp] theorem State.linkCount_programs (s : State) (p k : Nat) : (s.linkCount p k).programs = s.programs := rfl
@[simp] theorem State.linkCount_mem (s : State) (p k : Nat) : (s.linkCount p k).mem = s.mem := rfl
@[simp] theorem State.linkCount_memPoison (s : State) (p k : Nat) : (s.linkCount p k).memPoison = s.memPoison := rfl
@[simp] theorem State.linkCount_memReads (s : State) (p k : Nat) : (s.linkCount p k).memReads = s.memReads := rfl
@[simp] theorem State.linkCount_nextMemTag (s : State) (p k : Nat) : (s.linkCount p k).nextMemTag = s.nextMemTag := rfl
@[simp] theorem State.linkCount_ownReqs (s : State) (p k : Nat) : (s.linkCount p k).ownReqs = s.ownReqs := rfl
@[simp] theorem State.linkCount_ownRsps (s : State) (p k : Nat) : (s.linkCount p k).ownRsps = s.ownRsps := rfl
@[simp] theorem State.linkCount_scrubPos (s : State) (p k : Nat) : (s.linkCount p k).scrubPos = s.scrubPos := rfl
@[simp] theorem State.linkCount_scrubClock (s : State) (p k : Nat) : (s.linkCount p k).scrubClock = s.scrubClock := rfl
@[simp] theorem State.linkCount_scrubMark (s : State) (p k : Nat) : (s.linkCount p k).scrubMark = s.scrubMark := rfl
@[simp] theorem State.linkCount_refreshes (s : State) (p k : Nat) : (s.linkCount p k).refreshes = s.refreshes := rfl
@[simp] theorem State.linkCount_streams (s : State) (p k : Nat) : (s.linkCount p k).streams = s.streams := rfl
@[simp] theorem State.linkCount_streamShadow (s : State) (p k : Nat) : (s.linkCount p k).streamShadow = s.streamShadow := rfl
@[simp] theorem State.linkCount_runs (s : State) (p k : Nat) : (s.linkCount p k).runs = s.runs := rfl
@[simp] theorem State.linkCount_sepoch (s : State) (p k : Nat) : (s.linkCount p k).sepoch = s.sepoch := rfl
@[simp] theorem State.linkCount_streamSwitch (s : State) (p k : Nat) : (s.linkCount p k).streamSwitch = s.streamSwitch := rfl
@[simp] theorem State.linkCount_streamHeld (s : State) (p k : Nat) : (s.linkCount p k).streamHeld = s.streamHeld := rfl
@[simp] theorem State.linkCount_streamTurn (s : State) (p k : Nat) : (s.linkCount p k).streamTurn = s.streamTurn := rfl
@[simp] theorem State.linkCount_eth (s : State) (p k : Nat) : (s.linkCount p k).eth = s.eth := rfl
@[simp] theorem State.linkCount_ethAddr (s : State) (p k : Nat) : (s.linkCount p k).ethAddr = s.ethAddr := rfl
@[simp] theorem State.linkCount_dmaIdx (s : State) (p k : Nat) : (s.linkCount p k).dmaIdx = s.dmaIdx := rfl
@[simp] theorem State.linkCount_dmaRecheck (s : State) (p k : Nat) : (s.linkCount p k).dmaRecheck = s.dmaRecheck := rfl
@[simp] theorem State.linkCount_msixTable (s : State) (p k : Nat) : (s.linkCount p k).msixTable = s.msixTable := rfl
@[simp] theorem State.linkCount_pba (s : State) (p k : Nat) : (s.linkCount p k).pba = s.pba := rfl
@[simp] theorem State.linkCount_mbx (s : State) (p k : Nat) : (s.linkCount p k).mbx = s.mbx := rfl
@[simp] theorem State.linkCount_mbxImage (s : State) (p k : Nat) : (s.linkCount p k).mbxImage = s.mbxImage := rfl
@[simp] theorem State.linkCount_stored (s : State) (p k : Nat) : (s.linkCount p k).stored = s.stored := rfl
@[simp] theorem State.linkCount_hello (s : State) (p k : Nat) : (s.linkCount p k).hello = s.hello := rfl
@[simp] theorem State.linkCount_grants (s : State) (p k : Nat) : (s.linkCount p k).grants = s.grants := rfl
@[simp] theorem State.linkCount_stages (s : State) (p k : Nat) : (s.linkCount p k).stages = s.stages := rfl
@[simp] theorem State.linkCount_recvCount (s : State) (p k : Nat) : (s.linkCount p k).recvCount = s.recvCount := rfl
@[simp] theorem State.linkCount_errs (s : State) (p k : Nat) : (s.linkCount p k).errs = s.errs := rfl
@[simp] theorem State.linkCount_rseq (s : State) (p k : Nat) : (s.linkCount p k).rseq = s.rseq := rfl
@[simp] theorem State.linkCount_dice (s : State) (p k : Nat) : (s.linkCount p k).dice = s.dice := rfl
@[simp] theorem State.linkCount_ledger (s : State) (p k : Nat) : (s.linkCount p k).ledger = s.ledger := rfl
@[simp] theorem State.linkCount_trust (s : State) (p k : Nat) : (s.linkCount p k).trust = s.trust := rfl
@[simp] theorem State.linkCount_cond (s : State) (p k : Nat) : (s.linkCount p k).cond = s.cond := rfl
@[simp] theorem State.linkCount_ckpts (s : State) (p k : Nat) : (s.linkCount p k).ckpts = s.ckpts := rfl
@[simp] theorem State.linkCount_pair (s : State) (p k : Nat) : (s.linkCount p k).pair = s.pair := rfl
@[simp] theorem State.linkCount_agent (s : State) (p k : Nat) : (s.linkCount p k).agent = s.agent := rfl
@[simp] theorem State.linkCount_power (s : State) (p k : Nat) : (s.linkCount p k).power = s.power := rfl
@[simp] theorem State.linkCount_phys (s : State) (p k : Nat) : (s.linkCount p k).phys = s.phys := rfl
@[simp] theorem State.linkCount_cnt (s : State) (p k : Nat) : (s.linkCount p k).cnt = s.cnt := rfl
@[simp] theorem State.linkCount_mainSince (s : State) (p k : Nat) : (s.linkCount p k).mainSince = s.mainSince := rfl
@[simp] theorem State.linkCount_cntHeld (s : State) (p k : Nat) : (s.linkCount p k).cntHeld = s.cntHeld := rfl
@[simp] theorem State.linkCount_always (s : State) (p k : Nat) : (s.linkCount p k).always = s.always := rfl
@[simp] theorem State.linkCount_ssSeq (s : State) (p k : Nat) : (s.linkCount p k).ssSeq = s.ssSeq := rfl
@[simp] theorem State.linkCount_ssBusy (s : State) (p k : Nat) : (s.linkCount p k).ssBusy = s.ssBusy := rfl
@[simp] theorem State.linkCount_ssSkippedBefore (s : State) (p k : Nat) : (s.linkCount p k).ssSkippedBefore = s.ssSkippedBefore := rfl
@[simp] theorem State.linkCount_ssRecord (s : State) (p k : Nat) : (s.linkCount p k).ssRecord = s.ssRecord := rfl
@[simp] theorem State.linkCount_ssPending (s : State) (p k : Nat) : (s.linkCount p k).ssPending = s.ssPending := rfl
@[simp] theorem State.linkCount_mismatchHours (s : State) (p k : Nat) : (s.linkCount p k).mismatchHours = s.mismatchHours := rfl

end Sys2Proof.Machine
end

