-- ==== Sys2Proof/Laws/Tab.lean ====
section
/-! SUPPORT. The laws of sparse tables: a read after a write, the canonical form kept, and the tables of records. -/

namespace Sys2Proof.Machine

variable {α : Type} [DecidableEq α]

omit [DecidableEq α] in
/-- Entries at or below the key read do not count. -/
theorem Tab.getD_filter_lt (t : Tab α) (k j : Nat) (d : α) :
    Tab.getD (t.filter fun e => k < e.1) j d = if k < j then Tab.getD t j d else d := by
  induction t with
  | nil => simp [Tab.getD]
  | cons e r ih =>
    obtain ⟨m, v⟩ := e
    by_cases hm : k < m
    · rw [List.filter_cons_of_pos (by simpa using hm)]
      simp only [Tab.getD, ih]
      split <;> rename_i h1
      · subst h1; simp [hm]
      · split <;> split <;> simp_all
    · rw [List.filter_cons_of_neg (by simpa using hm), ih]
      split
      · rename_i h; simp only [Tab.getD]
        rw [if_neg (by omega), if_neg (by omega)]
      · rfl

/-- A read after a write: the value written at that key, the old one at any other. -/
theorem Tab.getD_setD (t : Tab α) (k j : Nat) (d v : α) :
    (t.setD k d v).getD j d = if j = k then v else t.getD j d := by
  induction t with
  | nil =>
    simp only [Tab.setD]
    split <;> rename_i h
    · subst h; simp [Tab.getD]
    · simp only [Tab.getD]; split <;> simp
  | cons e r ih =>
    obtain ⟨m, u⟩ := e
    simp only [Tab.setD]
    split
    · rename_i hk
      split
      · rename_i hv; subst hv
        split
        · rename_i hj; subst hj; simp only [Tab.getD]; rw [if_neg (by omega), if_pos hk]
        · rfl
      · simp only [Tab.getD]
        split
        · rfl
        · split
          · rw [if_neg (by omega), if_pos (by omega)]
          · rfl
    · rename_i hk
      split
      · rename_i hkm; subst hkm
        split
        · rename_i hv; subst hv
          rw [Tab.getD_filter_lt]
          by_cases hj : j = k
          · subst hj; simp
          · simp only [Tab.getD, if_neg hj]
            split <;> split <;> first | rfl | omega
        · simp only [Tab.getD]
          split
          · rfl
          · rfl
      · simp only [Tab.getD, ih]
        by_cases hj : j = k
        · subst hj; rw [if_neg (by omega), if_neg (by omega)]; simp
        · simp only [if_neg hj]

@[simp] theorem Tab.getD_setD_same (t : Tab α) (k : Nat) (d v : α) : (t.setD k d v).getD k d = v := by
  rw [Tab.getD_setD, if_pos rfl]

/-- A write leaves every other key as it was, whatever that key's default. -/
theorem Tab.getD_setD_ne (t : Tab α) {k j : Nat} (d d' v : α) (h : j ≠ k) : (t.setD k d v).getD j d' = t.getD j d' := by
  induction t with
  | nil =>
    simp only [Tab.setD]
    split
    · rfl
    · simp [Tab.getD, h]
  | cons e r ih =>
    obtain ⟨m, u⟩ := e
    simp only [Tab.setD]
    split
    · split
      · rfl
      · simp only [Tab.getD, if_neg h]
        split
        · rw [if_neg (by omega), if_pos (by omega)]
        · rfl
    · split
      · rename_i hkm; subst hkm
        split
        · rw [Tab.getD_filter_lt]
          simp only [Tab.getD, if_neg h]
          split <;> split <;> first | rfl | omega
        · simp only [Tab.getD, if_neg h]
      · simp only [Tab.getD, ih]

omit [DecidableEq α] in
@[simp] theorem Tab.getD_nil (k : Nat) (d : α) : Tab.getD ([] : Tab α) k d = d := rfl

theorem Tab.getD_mod (t : Tab α) (k j : Nat) (d : α) (f : α → α) :
    (t.mod k d f).getD j d = if j = k then f (t.getD k d) else t.getD j d := Tab.getD_setD ..

/-! ## The canonical form -/

/-- The canonical form, entry by entry. -/
theorem Tab.wf_iff (d : α) (t : Tab α) :
    Tab.wf d t = true ↔ (∀ e ∈ t, e.2 ≠ d) ∧ t.Pairwise (fun a b => a.1 < b.1) := by
  induction t with
  | nil => simp [Tab.wf]
  | cons e r ih =>
    obtain ⟨m, u⟩ := e
    cases r with
    | nil => simp [Tab.wf]
    | cons e' r' =>
      obtain ⟨m', u'⟩ := e'
      rw [Tab.wf, Bool.and_eq_true, Bool.and_eq_true, ih]
      constructor
      · rintro ⟨⟨h1, h2⟩, h3, h4⟩
        refine ⟨?_, ?_⟩
        · intro e he
          rcases List.mem_cons.mp he with rfl | he
          · simpa using h1
          · exact h3 e he
        · refine List.pairwise_cons.mpr ⟨?_, h4⟩
          intro e he
          have h2 : m < m' := by simpa using h2
          rcases List.mem_cons.mp he with rfl | he
          · exact h2
          · exact Nat.lt_trans h2 ((List.pairwise_cons.mp h4).1 e he)
      · rintro ⟨h1, h2⟩
        have h2' := List.pairwise_cons.mp h2
        exact ⟨⟨by simpa using h1 (m, u) (by simp), by simpa using h2'.1 (m', u') (by simp)⟩,
          fun e he => h1 e (List.mem_cons_of_mem _ he), h2'.2⟩

/-- Every key of a table after a write is the key written or an old key. -/
theorem Tab.mem_setD {t : Tab α} {k : Nat} {d v : α} {e : Nat × α} (h : e ∈ t.setD k d v) : e = (k, v) ∨ e ∈ t := by
  induction t with
  | nil =>
    simp only [Tab.setD] at h
    split at h
    · simp at h
    · left; simpa using h
  | cons e' r ih =>
    obtain ⟨m, u⟩ := e'
    simp only [Tab.setD] at h
    split at h
    · split at h
      · exact .inr h
      · rcases List.mem_cons.mp h with h | h
        · exact .inl h
        · exact .inr h
    · split at h
      · split at h
        · exact .inr (List.mem_cons_of_mem _ (List.mem_filter.mp h).1)
        · rcases List.mem_cons.mp h with h | h
          · exact .inl h
          · exact .inr (List.mem_cons_of_mem _ h)
      · rcases List.mem_cons.mp h with h | h
        · exact .inr (by rw [h]; simp)
        · rcases ih h with h | h
          · exact .inl h
          · exact .inr (List.mem_cons_of_mem _ h)

/-- A write keeps the canonical form. -/
theorem Tab.wf_setD {t : Tab α} {k : Nat} {d v : α} (h : Tab.wf d t = true) : Tab.wf d (t.setD k d v) = true := by
  induction t with
  | nil => simp only [Tab.setD]; split <;> simp_all [Tab.wf]
  | cons e r ih =>
    obtain ⟨m, u⟩ := e
    obtain ⟨h1, h2⟩ := (Tab.wf_iff d _).mp h
    have h2' := List.pairwise_cons.mp h2
    have hr : Tab.wf d r = true := (Tab.wf_iff d r).mpr ⟨fun e he => h1 e (List.mem_cons_of_mem _ he), h2'.2⟩
    simp only [Tab.setD]
    split
    · rename_i hk
      split
      · exact h
      · rename_i hv
        rw [Tab.wf, Bool.and_eq_true, Bool.and_eq_true]
        exact ⟨⟨by simpa using hv, by simpa using hk⟩, h⟩
    · split
      · rename_i hkm; subst hkm
        split
        · exact (Tab.wf_iff d _).mpr ⟨fun e he => h1 e (List.mem_cons_of_mem _ (List.mem_filter.mp he).1),
            h2'.2.filter _⟩
        · rename_i hv
          refine (Tab.wf_iff d _).mpr ⟨?_, List.pairwise_cons.mpr ⟨h2'.1, h2'.2⟩⟩
          intro e he
          rcases List.mem_cons.mp he with rfl | he
          · exact hv
          · exact h1 e (List.mem_cons_of_mem _ he)
      · rename_i hk hkm
        obtain ⟨g1, g2⟩ := (Tab.wf_iff d _).mp (ih hr)
        refine (Tab.wf_iff d _).mpr ⟨?_, List.pairwise_cons.mpr ⟨?_, g2⟩⟩
        · intro e he
          rcases List.mem_cons.mp he with rfl | he
          · exact h1 (m, u) (by simp)
          · exact g1 e he
        · intro e he
          rcases Tab.mem_setD he with rfl | he
          · show m < k; omega
          · exact h2'.1 e he

/-! ## Tables that list every record -/

omit [DecidableEq α]

theorem Tab.find_nil (k : Nat) : Tab.find ([] : Tab α) k = none := rfl

theorem Tab.find_cons (e : Nat × α) (r : Tab α) (k : Nat) :
    Tab.find (e :: r) k = if e.1 = k then some e.2 else Tab.find r k := by
  simp only [Tab.find, List.find?_cons]
  split <;> simp_all

/-- The record written is found. -/
@[simp] theorem Tab.find_insert (t : Tab α) (k : Nat) (v : α) : (t.insert k v).find k = some v := by
  induction t with
  | nil => simp [Tab.insert, Tab.find_cons]
  | cons e r ih =>
    obtain ⟨m, u⟩ := e
    simp only [Tab.insert]
    split
    · simp [Tab.find_cons]
    · split
      · simp [Tab.find_cons]
      · rw [Tab.find_cons, if_neg (by omega : ¬ m = k), ih]

/-- Any other record stays. -/
theorem Tab.find_insert_ne (t : Tab α) {k j : Nat} (v : α) (h : j ≠ k) : (t.insert k v).find j = t.find j := by
  induction t with
  | nil => simp [Tab.insert, Tab.find_cons, Ne.symm h]
  | cons e r ih =>
    obtain ⟨m, u⟩ := e
    simp only [Tab.insert]
    split
    · rw [Tab.find_cons, if_neg (Ne.symm h)]
    · split
      · rename_i hk; subst hk; rw [Tab.find_cons, Tab.find_cons, if_neg (Ne.symm h), if_neg (Ne.symm h)]
      · rw [Tab.find_cons, Tab.find_cons, ih]

/-- A record removed is not found. -/
@[simp] theorem Tab.find_erase (t : Tab α) (k : Nat) : (t.erase k).find k = none := by
  induction t with
  | nil => rfl
  | cons e r ih =>
    by_cases h : e.1 = k
    · rw [Tab.erase, List.filter_cons_of_neg (by simpa using h)]; exact ih
    · rw [Tab.erase, List.filter_cons_of_pos (by simpa using h), Tab.find_cons, if_neg h]; exact ih

end Sys2Proof.Machine
end

