-- ==== Sys2Proof/Laws/Ops.lean ====
section
/-! SUPPORT. The laws of the shared operations: registers and their fields, the tables of the state, and, for counters,
interrupts, reports and ledger requests, everything that they can change. -/

namespace Sys2Proof.Machine

/-! ## Bits of a word -/

/-- The bits written are read back. -/
theorem bitsOf_withBits_same (v : Word) (lo w n : Nat) (h : lo + w ≤ 64) : bitsOf (withBits v lo w n) lo w = n % 2 ^ w := by
  have : BitVec.extractLsb' lo w (withBits v lo w n) = BitVec.ofNat w n := by
    apply BitVec.eq_of_getLsbD_eq
    intro i hi
    have h1 : lo + i < 64 := by omega
    have h2 : lo + i - lo = i := by omega
    have h4 : ¬ lo + i < lo := by omega
    simp [withBits, hi, h1, h2, h4]
  simp [bitsOf, this]

/-- Bits that do not overlap those written are kept. -/
theorem bitsOf_withBits_other (v : Word) (lo w n lo' w' : Nat) (h : lo + w ≤ lo' ∨ lo' + w' ≤ lo) :
    bitsOf (withBits v lo w n) lo' w' = bitsOf v lo' w' := by
  have : BitVec.extractLsb' lo' w' (withBits v lo w n) = BitVec.extractLsb' lo' w' v := by
    apply BitVec.eq_of_getLsbD_eq
    intro i hi
    rcases h with h | h
    · have h2 : w ≤ lo' + i - lo := by omega
      simp [withBits, hi, BitVec.getLsbD_of_ge _ _ h2]
      intro h1
      have := BitVec.lt_of_getLsbD h1
      omega
    · have h1 : lo' + i < lo := by omega
      simp [withBits, hi, h1]
      intro h; exact BitVec.lt_of_getLsbD h
  simp [bitsOf, this]

/-! ## Registers -/

@[simp] theorem State.reg_setReg_same (s : State) (r : Reg) (i : Nat) (v : Word) : (s.setReg r i v).reg r i = v := by
  simp [State.reg, State.setReg]

/-- Another place of the register file keeps its value. -/
theorem State.reg_setReg_ne (s : State) (r r' : Reg) (i j : Nat) (v : Word) (h : r'.key j ≠ r.key i) :
    (s.setReg r i v).reg r' j = s.reg r' j := by
  simp only [State.reg, State.setReg]
  exact Tab.getD_setD_ne _ _ _ _ h

/-- Places of one register differ as their numbers do. -/
theorem Reg.key_inj (r : Reg) {i j : Nat} (h : i ≠ j) : r.key i ≠ r.key j := by simp only [Reg.key]; omega

/-- Places of two registers differ while the numbers stay below 2^20. -/
theorem Reg.key_ne {r r' : Reg} {i j : Nat} (h : r ≠ r') (hi : i < 2 ^ 20) (hj : j < 2 ^ 20) : r.key i ≠ r'.key j := by
  intro e
  apply h
  have h1 : r.ctorIdx = r'.ctorIdx := by simp only [Reg.key] at e; omega
  clear e
  revert h1
  cases r <;> cases r' <;> simp [Reg.ctorIdx]

/-- A field written is read back, cut to its width. -/
theorem State.rd_wr_same (s : State) (f : Fld) (n i : Nat) (h : f.lo + f.w ≤ 64) : (s.wr f n i).rd f i = n % 2 ^ f.w := by
  simp only [State.rd, State.wr, State.reg_setReg_same]
  exact bitsOf_withBits_same _ _ _ _ h

/-- Another field of the same register keeps its value. -/
theorem State.rd_wr_field (s : State) (f g : Fld) (n i : Nat) (hr : g.reg = f.reg)
    (h : f.lo + f.w ≤ g.lo ∨ g.lo + g.w ≤ f.lo) : (s.wr f n i).rd g i = s.rd g i := by
  simp only [State.rd, State.wr, hr, State.reg_setReg_same]
  exact bitsOf_withBits_other _ _ _ _ _ _ h

/-- A field at another place keeps its value. -/
theorem State.rd_wr_ne (s : State) (f g : Fld) (n i j : Nat) (h : g.reg.key j ≠ f.reg.key i) :
    (s.wr f n i).rd g j = s.rd g j := by
  simp only [State.rd, State.wr, State.reg_setReg_ne _ _ _ _ _ _ h]

/-- A field of another register keeps its value. -/
theorem State.rd_wr_reg (s : State) (f g : Fld) (n i j : Nat) (h : g.reg ≠ f.reg) (hi : i < 2 ^ 20) (hj : j < 2 ^ 20) :
    (s.wr f n i).rd g j = s.rd g j := State.rd_wr_ne _ _ _ _ _ _ (Reg.key_ne h hj hi)


/-! ## Counters (18): events change counters and their overflow marks only -/

/-- What counting can change. -/
theorem State.cntAdd_frame (fuel : Nat) (s : State) (u k n : Nat) :
    ∃ r c, s.cntAdd u k n fuel = { s with regs := r, cnt := c } := by
  induction fuel generalizing s k n with
  | zero => exact ⟨s.regs, s.cnt, rfl⟩
  | succ m ih =>
    simp only [State.cntAdd]
    split
    · exact ⟨_, _, rfl⟩
    · split
      · split
        · obtain ⟨r, c, h⟩ := ih { s with cnt := s.cnt.setD (16 * u + k) 0 ((s.cnt.getD (16 * u + k) 0 + n) % 2 ^ 48) } (k + 1)
            ((s.cnt.getD (16 * u + k) 0 + n) / 2 ^ 48)
          exact ⟨r, c, h⟩
        · exact ⟨_, _, rfl⟩
      · exact ⟨_, _, rfl⟩

/-- A fold of steps that each change registers and counters only. -/
theorem State.foldl_frame {β : Type} (f : State → β → State) (hf : ∀ s b, ∃ r c, f s b = { s with regs := r, cnt := c })
    (l : List β) (s : State) : ∃ r c, l.foldl f s = { s with regs := r, cnt := c } := by
  induction l generalizing s with
  | nil => exact ⟨s.regs, s.cnt, rfl⟩
  | cons b l ih =>
    obtain ⟨r, c, h⟩ := hf s b
    obtain ⟨r', c', h'⟩ := ih { s with regs := r, cnt := c }
    exact ⟨r', c', by rw [List.foldl_cons, h, h']⟩

/-- What an event can change. -/
theorem State.ev_frame (s : State) (u e n : Nat) : ∃ r c, s.ev u e n = { s with regs := r, cnt := c } := by
  simp only [State.ev]
  split
  · apply State.foldl_frame
    intro s b
    split
    · exact State.cntAdd_frame _ _ _ _ _
    · exact ⟨s.regs, s.cnt, rfl⟩
  · exact ⟨s.regs, s.cnt, rfl⟩


@[simp] theorem State.ev_pending (s : State) (u e n : Nat) : (s.ev u e n).pending = s.pending := by
  obtain ⟨_, _, h⟩ := s.ev_frame u e n; rw [h]

@[simp] theorem State.ev_now (s : State) (u e n : Nat) : (s.ev u e n).now = s.now := by
  obtain ⟨_, _, h⟩ := s.ev_frame u e n; rw [h]

@[simp] theorem State.ev_tick (s : State) (u e n : Nat) : (s.ev u e n).tick = s.tick := by
  obtain ⟨_, _, h⟩ := s.ev_frame u e n; rw [h]

@[simp] theorem State.ev_fresh (s : State) (u e n : Nat) : (s.ev u e n).fresh = s.fresh := by
  obtain ⟨_, _, h⟩ := s.ev_frame u e n; rw [h]

@[simp] theorem State.ev_out (s : State) (u e n : Nat) : (s.ev u e n).out = s.out := by
  obtain ⟨_, _, h⟩ := s.ev_frame u e n; rw [h]

@[simp] theorem State.ev_plane (s : State) (u e n : Nat) : (s.ev u e n).plane = s.plane := by
  obtain ⟨_, _, h⟩ := s.ev_frame u e n; rw [h]

@[simp] theorem State.ev_tray (s : State) (u e n : Nat) : (s.ev u e n).tray = s.tray := by
  obtain ⟨_, _, h⟩ := s.ev_frame u e n; rw [h]

@[simp] theorem State.ev_plan (s : State) (u e n : Nat) : (s.ev u e n).plan = s.plan := by
  obtain ⟨_, _, h⟩ := s.ev_frame u e n; rw [h]

@[simp] theorem State.ev_planLive (s : State) (u e n : Nat) : (s.ev u e n).planLive = s.planLive := by
  obtain ⟨_, _, h⟩ := s.ev_frame u e n; rw [h]

@[simp] theorem State.ev_planHash (s : State) (u e n : Nat) : (s.ev u e n).planHash = s.planHash := by
  obtain ⟨_, _, h⟩ := s.ev_frame u e n; rw [h]

@[simp] theorem State.ev_ports (s : State) (u e n : Nat) : (s.ev u e n).ports = s.ports := by
  obtain ⟨_, _, h⟩ := s.ev_frame u e n; rw [h]

@[simp] theorem State.ev_lanes (s : State) (u e n : Nat) : (s.ev u e n).lanes = s.lanes := by
  obtain ⟨_, _, h⟩ := s.ev_frame u e n; rw [h]

@[simp] theorem State.ev_tx (s : State) (u e n : Nat) : (s.ev u e n).tx = s.tx := by
  obtain ⟨_, _, h⟩ := s.ev_frame u e n; rw [h]

@[simp] theorem State.ev_lines (s : State) (u e n : Nat) : (s.ev u e n).lines = s.lines := by
  obtain ⟨_, _, h⟩ := s.ev_frame u e n; rw [h]

@[simp] theorem State.ev_rx (s : State) (u e n : Nat) : (s.ev u e n).rx = s.rx := by
  obtain ⟨_, _, h⟩ := s.ev_frame u e n; rw [h]

@[simp] theorem State.ev_inq (s : State) (u e n : Nat) : (s.ev u e n).inq = s.inq := by
  obtain ⟨_, _, h⟩ := s.ev_frame u e n; rw [h]

@[simp] theorem State.ev_outq (s : State) (u e n : Nat) : (s.ev u e n).outq = s.outq := by
  obtain ⟨_, _, h⟩ := s.ev_frame u e n; rw [h]

@[simp] theorem State.ev_vcbuf (s : State) (u e n : Nat) : (s.ev u e n).vcbuf = s.vcbuf := by
  obtain ⟨_, _, h⟩ := s.ev_frame u e n; rw [h]

@[simp] theorem State.ev_qcharge (s : State) (u e n : Nat) : (s.ev u e n).qcharge = s.qcharge := by
  obtain ⟨_, _, h⟩ := s.ev_frame u e n; rw [h]

@[simp] theorem State.ev_shared (s : State) (u e n : Nat) : (s.ev u e n).shared = s.shared := by
  obtain ⟨_, _, h⟩ := s.ev_frame u e n; rw [h]

@[simp] theorem State.ev_arb (s : State) (u e n : Nat) : (s.ev u e n).arb = s.arb := by
  obtain ⟨_, _, h⟩ := s.ev_frame u e n; rw [h]

@[simp] theorem State.ev_tables (s : State) (u e n : Nat) : (s.ev u e n).tables = s.tables := by
  obtain ⟨_, _, h⟩ := s.ev_frame u e n; rw [h]

@[simp] theorem State.ev_shadow (s : State) (u e n : Nat) : (s.ev u e n).shadow = s.shadow := by
  obtain ⟨_, _, h⟩ := s.ev_frame u e n; rw [h]

@[simp] theorem State.ev_escVia (s : State) (u e n : Nat) : (s.ev u e n).escVia = s.escVia := by
  obtain ⟨_, _, h⟩ := s.ev_frame u e n; rw [h]

@[simp] theorem State.ev_lfsr (s : State) (u e n : Nat) : (s.ev u e n).lfsr = s.lfsr := by
  obtain ⟨_, _, h⟩ := s.ev_frame u e n; rw [h]

@[simp] theorem State.ev_inFlows (s : State) (u e n : Nat) : (s.ev u e n).inFlows = s.inFlows := by
  obtain ⟨_, _, h⟩ := s.ev_frame u e n; rw [h]

@[simp] theorem State.ev_egFlows (s : State) (u e n : Nat) : (s.ev u e n).egFlows = s.egFlows := by
  obtain ⟨_, _, h⟩ := s.ev_frame u e n; rw [h]

@[simp] theorem State.ev_buckets (s : State) (u e n : Nat) : (s.ev u e n).buckets = s.buckets := by
  obtain ⟨_, _, h⟩ := s.ev_frame u e n; rw [h]

@[simp] theorem State.ev_local_ (s : State) (u e n : Nat) : (s.ev u e n).local_ = s.local_ := by
  obtain ⟨_, _, h⟩ := s.ev_frame u e n; rw [h]

@[simp] theorem State.ev_cellWait (s : State) (u e n : Nat) : (s.ev u e n).cellWait = s.cellWait := by
  obtain ⟨_, _, h⟩ := s.ev_frame u e n; rw [h]

@[simp] theorem State.ev_notices (s : State) (u e n : Nat) : (s.ev u e n).notices = s.notices := by
  obtain ⟨_, _, h⟩ := s.ev_frame u e n; rw [h]

@[simp] theorem State.ev_heldPkts (s : State) (u e n : Nat) : (s.ev u e n).heldPkts = s.heldPkts := by
  obtain ⟨_, _, h⟩ := s.ev_frame u e n; rw [h]

@[simp] theorem State.ev_unitEvents (s : State) (u e n : Nat) : (s.ev u e n).unitEvents = s.unitEvents := by
  obtain ⟨_, _, h⟩ := s.ev_frame u e n; rw [h]

@[simp] theorem State.ev_nextCast (s : State) (u e n : Nat) : (s.ev u e n).nextCast = s.nextCast := by
  obtain ⟨_, _, h⟩ := s.ev_frame u e n; rw [h]

@[simp] theorem State.ev_bindCount (s : State) (u e n : Nat) : (s.ev u e n).bindCount = s.bindCount := by
  obtain ⟨_, _, h⟩ := s.ev_frame u e n; rw [h]

@[simp] theorem State.ev_instCount (s : State) (u e n : Nat) : (s.ev u e n).instCount = s.instCount := by
  obtain ⟨_, _, h⟩ := s.ev_frame u e n; rw [h]

@[simp] theorem State.ev_topDown (s : State) (u e n : Nat) : (s.ev u e n).topDown = s.topDown := by
  obtain ⟨_, _, h⟩ := s.ev_frame u e n; rw [h]

@[simp] theorem State.ev_waitCmds (s : State) (u e n : Nat) : (s.ev u e n).waitCmds = s.waitCmds := by
  obtain ⟨_, _, h⟩ := s.ev_frame u e n; rw [h]

@[simp] theorem State.ev_restarting (s : State) (u e n : Nat) : (s.ev u e n).restarting = s.restarting := by
  obtain ⟨_, _, h⟩ := s.ev_frame u e n; rw [h]

@[simp] theorem State.ev_verifySlices (s : State) (u e n : Nat) : (s.ev u e n).verifySlices = s.verifySlices := by
  obtain ⟨_, _, h⟩ := s.ev_frame u e n; rw [h]

@[simp] theorem State.ev_groups (s : State) (u e n : Nat) : (s.ev u e n).groups = s.groups := by
  obtain ⟨_, _, h⟩ := s.ev_frame u e n; rw [h]

@[simp] theorem State.ev_slots (s : State) (u e n : Nat) : (s.ev u e n).slots = s.slots := by
  obtain ⟨_, _, h⟩ := s.ev_frame u e n; rw [h]

@[simp] theorem State.ev_bindWaits (s : State) (u e n : Nat) : (s.ev u e n).bindWaits = s.bindWaits := by
  obtain ⟨_, _, h⟩ := s.ev_frame u e n; rw [h]

@[simp] theorem State.ev_insts (s : State) (u e n : Nat) : (s.ev u e n).insts = s.insts := by
  obtain ⟨_, _, h⟩ := s.ev_frame u e n; rw [h]

@[simp] theorem State.ev_banks (s : State) (u e n : Nat) : (s.ev u e n).banks = s.banks := by
  obtain ⟨_, _, h⟩ := s.ev_frame u e n; rw [h]

@[simp] theorem State.ev_retired (s : State) (u e n : Nat) : (s.ev u e n).retired = s.retired := by
  obtain ⟨_, _, h⟩ := s.ev_frame u e n; rw [h]

@[simp] theorem State.ev_spares (s : State) (u e n : Nat) : (s.ev u e n).spares = s.spares := by
  obtain ⟨_, _, h⟩ := s.ev_frame u e n; rw [h]

@[simp] theorem State.ev_symTimes (s : State) (u e n : Nat) : (s.ev u e n).symTimes = s.symTimes := by
  obtain ⟨_, _, h⟩ := s.ev_frame u e n; rw [h]

@[simp] theorem State.ev_ueWords (s : State) (u e n : Nat) : (s.ev u e n).ueWords = s.ueWords := by
  obtain ⟨_, _, h⟩ := s.ev_frame u e n; rw [h]

@[simp] theorem State.ev_retireAsk (s : State) (u e n : Nat) : (s.ev u e n).retireAsk = s.retireAsk := by
  obtain ⟨_, _, h⟩ := s.ev_frame u e n; rw [h]

@[simp] theorem State.ev_recarve (s : State) (u e n : Nat) : (s.ev u e n).recarve = s.recarve := by
  obtain ⟨_, _, h⟩ := s.ev_frame u e n; rw [h]

@[simp] theorem State.ev_outOfService (s : State) (u e n : Nat) : (s.ev u e n).outOfService = s.outOfService := by
  obtain ⟨_, _, h⟩ := s.ev_frame u e n; rw [h]

@[simp] theorem State.ev_cdcOut (s : State) (u e n : Nat) : (s.ev u e n).cdcOut = s.cdcOut := by
  obtain ⟨_, _, h⟩ := s.ev_frame u e n; rw [h]

@[simp] theorem State.ev_dmaCount (s : State) (u e n : Nat) : (s.ev u e n).dmaCount = s.dmaCount := by
  obtain ⟨_, _, h⟩ := s.ev_frame u e n; rw [h]

@[simp] theorem State.ev_ctxs (s : State) (u e n : Nat) : (s.ev u e n).ctxs = s.ctxs := by
  obtain ⟨_, _, h⟩ := s.ev_frame u e n; rw [h]

@[simp] theorem State.ev_coreFenced (s : State) (u e n : Nat) : (s.ev u e n).coreFenced = s.coreFenced := by
  obtain ⟨_, _, h⟩ := s.ev_frame u e n; rw [h]

@[simp] theorem State.ev_rrCtx (s : State) (u e n : Nat) : (s.ev u e n).rrCtx = s.rrCtx := by
  obtain ⟨_, _, h⟩ := s.ev_frame u e n; rw [h]

@[simp] theorem State.ev_programs (s : State) (u e n : Nat) : (s.ev u e n).programs = s.programs := by
  obtain ⟨_, _, h⟩ := s.ev_frame u e n; rw [h]

@[simp] theorem State.ev_mem (s : State) (u e n : Nat) : (s.ev u e n).mem = s.mem := by
  obtain ⟨_, _, h⟩ := s.ev_frame u e n; rw [h]

@[simp] theorem State.ev_memPoison (s : State) (u e n : Nat) : (s.ev u e n).memPoison = s.memPoison := by
  obtain ⟨_, _, h⟩ := s.ev_frame u e n; rw [h]

@[simp] theorem State.ev_memReads (s : State) (u e n : Nat) : (s.ev u e n).memReads = s.memReads := by
  obtain ⟨_, _, h⟩ := s.ev_frame u e n; rw [h]

@[simp] theorem State.ev_nextMemTag (s : State) (u e n : Nat) : (s.ev u e n).nextMemTag = s.nextMemTag := by
  obtain ⟨_, _, h⟩ := s.ev_frame u e n; rw [h]

@[simp] theorem State.ev_ownReqs (s : State) (u e n : Nat) : (s.ev u e n).ownReqs = s.ownReqs := by
  obtain ⟨_, _, h⟩ := s.ev_frame u e n; rw [h]

@[simp] theorem State.ev_ownRsps (s : State) (u e n : Nat) : (s.ev u e n).ownRsps = s.ownRsps := by
  obtain ⟨_, _, h⟩ := s.ev_frame u e n; rw [h]

@[simp] theorem State.ev_scrubPos (s : State) (u e n : Nat) : (s.ev u e n).scrubPos = s.scrubPos := by
  obtain ⟨_, _, h⟩ := s.ev_frame u e n; rw [h]

@[simp] theorem State.ev_scrubClock (s : State) (u e n : Nat) : (s.ev u e n).scrubClock = s.scrubClock := by
  obtain ⟨_, _, h⟩ := s.ev_frame u e n; rw [h]

@[simp] theorem State.ev_scrubMark (s : State) (u e n : Nat) : (s.ev u e n).scrubMark = s.scrubMark := by
  obtain ⟨_, _, h⟩ := s.ev_frame u e n; rw [h]

@[simp] theorem State.ev_refreshes (s : State) (u e n : Nat) : (s.ev u e n).refreshes = s.refreshes := by
  obtain ⟨_, _, h⟩ := s.ev_frame u e n; rw [h]

@[simp] theorem State.ev_streams (s : State) (u e n : Nat) : (s.ev u e n).streams = s.streams := by
  obtain ⟨_, _, h⟩ := s.ev_frame u e n; rw [h]

@[simp] theorem State.ev_streamShadow (s : State) (u e n : Nat) : (s.ev u e n).streamShadow = s.streamShadow := by
  obtain ⟨_, _, h⟩ := s.ev_frame u e n; rw [h]

@[simp] theorem State.ev_runs (s : State) (u e n : Nat) : (s.ev u e n).runs = s.runs := by
  obtain ⟨_, _, h⟩ := s.ev_frame u e n; rw [h]

@[simp] theorem State.ev_sepoch (s : State) (u e n : Nat) : (s.ev u e n).sepoch = s.sepoch := by
  obtain ⟨_, _, h⟩ := s.ev_frame u e n; rw [h]

@[simp] theorem State.ev_streamSwitch (s : State) (u e n : Nat) : (s.ev u e n).streamSwitch = s.streamSwitch := by
  obtain ⟨_, _, h⟩ := s.ev_frame u e n; rw [h]

@[simp] theorem State.ev_streamHeld (s : State) (u e n : Nat) : (s.ev u e n).streamHeld = s.streamHeld := by
  obtain ⟨_, _, h⟩ := s.ev_frame u e n; rw [h]

@[simp] theorem State.ev_streamTurn (s : State) (u e n : Nat) : (s.ev u e n).streamTurn = s.streamTurn := by
  obtain ⟨_, _, h⟩ := s.ev_frame u e n; rw [h]

@[simp] theorem State.ev_eth (s : State) (u e n : Nat) : (s.ev u e n).eth = s.eth := by
  obtain ⟨_, _, h⟩ := s.ev_frame u e n; rw [h]

@[simp] theorem State.ev_ethAddr (s : State) (u e n : Nat) : (s.ev u e n).ethAddr = s.ethAddr := by
  obtain ⟨_, _, h⟩ := s.ev_frame u e n; rw [h]

@[simp] theorem State.ev_dmaIdx (s : State) (u e n : Nat) : (s.ev u e n).dmaIdx = s.dmaIdx := by
  obtain ⟨_, _, h⟩ := s.ev_frame u e n; rw [h]

@[simp] theorem State.ev_dmaRecheck (s : State) (u e n : Nat) : (s.ev u e n).dmaRecheck = s.dmaRecheck := by
  obtain ⟨_, _, h⟩ := s.ev_frame u e n; rw [h]

@[simp] theorem State.ev_msixTable (s : State) (u e n : Nat) : (s.ev u e n).msixTable = s.msixTable := by
  obtain ⟨_, _, h⟩ := s.ev_frame u e n; rw [h]

@[simp] theorem State.ev_pba (s : State) (u e n : Nat) : (s.ev u e n).pba = s.pba := by
  obtain ⟨_, _, h⟩ := s.ev_frame u e n; rw [h]

@[simp] theorem State.ev_mbx (s : State) (u e n : Nat) : (s.ev u e n).mbx = s.mbx := by
  obtain ⟨_, _, h⟩ := s.ev_frame u e n; rw [h]

@[simp] theorem State.ev_mbxImage (s : State) (u e n : Nat) : (s.ev u e n).mbxImage = s.mbxImage := by
  obtain ⟨_, _, h⟩ := s.ev_frame u e n; rw [h]

@[simp] theorem State.ev_stored (s : State) (u e n : Nat) : (s.ev u e n).stored = s.stored := by
  obtain ⟨_, _, h⟩ := s.ev_frame u e n; rw [h]

@[simp] theorem State.ev_hello (s : State) (u e n : Nat) : (s.ev u e n).hello = s.hello := by
  obtain ⟨_, _, h⟩ := s.ev_frame u e n; rw [h]

@[simp] theorem State.ev_grants (s : State) (u e n : Nat) : (s.ev u e n).grants = s.grants := by
  obtain ⟨_, _, h⟩ := s.ev_frame u e n; rw [h]

@[simp] theorem State.ev_stages (s : State) (u e n : Nat) : (s.ev u e n).stages = s.stages := by
  obtain ⟨_, _, h⟩ := s.ev_frame u e n; rw [h]

@[simp] theorem State.ev_recvCount (s : State) (u e n : Nat) : (s.ev u e n).recvCount = s.recvCount := by
  obtain ⟨_, _, h⟩ := s.ev_frame u e n; rw [h]

@[simp] theorem State.ev_errs (s : State) (u e n : Nat) : (s.ev u e n).errs = s.errs := by
  obtain ⟨_, _, h⟩ := s.ev_frame u e n; rw [h]

@[simp] theorem State.ev_rseq (s : State) (u e n : Nat) : (s.ev u e n).rseq = s.rseq := by
  obtain ⟨_, _, h⟩ := s.ev_frame u e n; rw [h]

@[simp] theorem State.ev_dice (s : State) (u e n : Nat) : (s.ev u e n).dice = s.dice := by
  obtain ⟨_, _, h⟩ := s.ev_frame u e n; rw [h]

@[simp] theorem State.ev_ledger (s : State) (u e n : Nat) : (s.ev u e n).ledger = s.ledger := by
  obtain ⟨_, _, h⟩ := s.ev_frame u e n; rw [h]

@[simp] theorem State.ev_trust (s : State) (u e n : Nat) : (s.ev u e n).trust = s.trust := by
  obtain ⟨_, _, h⟩ := s.ev_frame u e n; rw [h]

@[simp] theorem State.ev_cond (s : State) (u e n : Nat) : (s.ev u e n).cond = s.cond := by
  obtain ⟨_, _, h⟩ := s.ev_frame u e n; rw [h]

@[simp] theorem State.ev_ckpts (s : State) (u e n : Nat) : (s.ev u e n).ckpts = s.ckpts := by
  obtain ⟨_, _, h⟩ := s.ev_frame u e n; rw [h]

@[simp] theorem State.ev_pair (s : State) (u e n : Nat) : (s.ev u e n).pair = s.pair := by
  obtain ⟨_, _, h⟩ := s.ev_frame u e n; rw [h]

@[simp] theorem State.ev_agent (s : State) (u e n : Nat) : (s.ev u e n).agent = s.agent := by
  obtain ⟨_, _, h⟩ := s.ev_frame u e n; rw [h]

@[simp] theorem State.ev_power (s : State) (u e n : Nat) : (s.ev u e n).power = s.power := by
  obtain ⟨_, _, h⟩ := s.ev_frame u e n; rw [h]

@[simp] theorem State.ev_phys (s : State) (u e n : Nat) : (s.ev u e n).phys = s.phys := by
  obtain ⟨_, _, h⟩ := s.ev_frame u e n; rw [h]

@[simp] theorem State.ev_mainSince (s : State) (u e n : Nat) : (s.ev u e n).mainSince = s.mainSince := by
  obtain ⟨_, _, h⟩ := s.ev_frame u e n; rw [h]

@[simp] theorem State.ev_cntHeld (s : State) (u e n : Nat) : (s.ev u e n).cntHeld = s.cntHeld := by
  obtain ⟨_, _, h⟩ := s.ev_frame u e n; rw [h]

@[simp] theorem State.ev_always (s : State) (u e n : Nat) : (s.ev u e n).always = s.always := by
  obtain ⟨_, _, h⟩ := s.ev_frame u e n; rw [h]

@[simp] theorem State.ev_linkCnt (s : State) (u e n : Nat) : (s.ev u e n).linkCnt = s.linkCnt := by
  obtain ⟨_, _, h⟩ := s.ev_frame u e n; rw [h]

@[simp] theorem State.ev_ssSeq (s : State) (u e n : Nat) : (s.ev u e n).ssSeq = s.ssSeq := by
  obtain ⟨_, _, h⟩ := s.ev_frame u e n; rw [h]

@[simp] theorem State.ev_ssBusy (s : State) (u e n : Nat) : (s.ev u e n).ssBusy = s.ssBusy := by
  obtain ⟨_, _, h⟩ := s.ev_frame u e n; rw [h]

@[simp] theorem State.ev_ssSkippedBefore (s : State) (u e n : Nat) : (s.ev u e n).ssSkippedBefore = s.ssSkippedBefore := by
  obtain ⟨_, _, h⟩ := s.ev_frame u e n; rw [h]

@[simp] theorem State.ev_ssRecord (s : State) (u e n : Nat) : (s.ev u e n).ssRecord = s.ssRecord := by
  obtain ⟨_, _, h⟩ := s.ev_frame u e n; rw [h]

@[simp] theorem State.ev_ssPending (s : State) (u e n : Nat) : (s.ev u e n).ssPending = s.ssPending := by
  obtain ⟨_, _, h⟩ := s.ev_frame u e n; rw [h]

@[simp] theorem State.ev_mismatchHours (s : State) (u e n : Nat) : (s.ev u e n).mismatchHours = s.mismatchHours := by
  obtain ⟨_, _, h⟩ := s.ev_frame u e n; rw [h]


/-- Counting leaves every register but CNT_SEL as it was. -/
theorem State.cntAdd_reg (fuel : Nat) (s : State) (u k n : Nat) (r : Reg) (j : Nat) (hr : r ≠ .cntSel) (hj : j < 2 ^ 20)
    (hu : u < 2 ^ 16) (hk : k < 8) : (s.cntAdd u k n fuel).reg r j = s.reg r j := by
  induction fuel generalizing s k n with
  | zero => rfl
  | succ m ih =>
    simp only [State.cntAdd]
    split
    · rfl
    · split
      · rename_i h
        split
        · refine ih _ _ _ ?_
          have h1 : k + 1 < unitCounters u := by simp only [Bool.and_eq_true, decide_eq_true_eq] at h; exact h.1
          have h2 : unitCounters u ≤ 8 := by
            simp only [unitCounters]
            split
            · omega
            · split
              · omega
              · split <;> omega
          omega
        · rfl
      · exact State.reg_setReg_ne _ _ _ _ _ _ (Reg.key_ne hr hj (by show 8 * u + k < 2 ^ 20; omega))

/-- A fold of steps that keep a value keeps it. -/
theorem State.foldl_keep {β γ : Type} (g : State → γ) (f : State → β → State) (l : List β) (s : State)
    (hf : ∀ s, ∀ b ∈ l, g (f s b) = g s) : g (l.foldl f s) = g s := by
  induction l generalizing s with
  | nil => rfl
  | cons b l ih =>
    rw [List.foldl_cons, ih (f s b) (fun s b hb => hf s b (List.mem_cons_of_mem _ hb)), hf s b (by simp)]

/-- An event leaves every register but CNT_SEL as it was. -/
theorem State.ev_reg (s : State) (u e n : Nat) (r : Reg) (j : Nat) (hr : r ≠ .cntSel) (hj : j < 2 ^ 20) (hu : u < 2 ^ 16) :
    (s.ev u e n).reg r j = s.reg r j := by
  simp only [State.ev]
  split
  · apply State.foldl_keep (fun s => s.reg r j)
    intro s b hb
    have hb' : b < 8 := by
      have := List.mem_range.mp hb
      have h2 : unitCounters u ≤ 8 := by
        simp only [unitCounters]
        split
        · omega
        · split
          · omega
          · split <;> omega
      omega
    split
    · exact State.cntAdd_reg _ _ _ _ _ _ _ hr hj hu hb'
    · rfl
  · rfl

theorem State.ev_rd (s : State) (u e n : Nat) (f : Fld) (j : Nat) (hr : f.reg ≠ .cntSel) (hj : j < 2 ^ 20) (hu : u < 2 ^ 16) :
    (s.ev u e n).rd f j = s.rd f j := by simp only [State.rd, State.ev_reg _ _ _ _ _ _ hr hj hu]

/-! ## Outputs -/

@[simp] theorem State.emit_out (s : State) (o : Out) : (s.emit o).out = s.out ++ [o] := rfl

@[simp] theorem State.emit_reg (s : State) (o : Out) (r : Reg) (i : Nat) : (s.emit o).reg r i = s.reg r i := rfl

@[simp] theorem State.emit_rd (s : State) (o : Out) (f : Fld) (i : Nat) : (s.emit o).rd f i = s.rd f i := rfl

/-! ## Interrupts (13 R330) -/

/-- What sending or pending a message can change. -/
theorem State.msix_frame (s : State) (v : Nat) :
    ∃ r c b o, s.msix v = { s with regs := r, cnt := c, pba := b, out := o } := by
  simp only [State.msix]
  split
  · exact ⟨_, _, _, _, rfl⟩
  · obtain ⟨r, c, h⟩ := (s.emit (.msix v)).ev_frame U.hub 0x06 1
    exact ⟨r, c, s.pba, (s.emit (.msix v)).out, by rw [h]; rfl⟩

/-- What an interrupt source can change. -/
theorem State.irq_frame (s : State) (v : Nat) :
    ∃ r c b o, s.irq v = { s with regs := r, cnt := c, pba := b, out := o } := by
  simp only [State.irq]
  split
  · exact ⟨_, _, _, _, rfl⟩
  · split
    · exact ⟨_, _, _, _, rfl⟩
    · obtain ⟨r, c, b, o, h⟩ := (s.setReg .hubIrqStat 0 (s.reg .hubIrqStat 0 ||| (1 <<< v))).msix_frame v
      exact ⟨r, c, b, o, by rw [h]; rfl⟩


@[simp] theorem State.irq_pending (s : State) (v : Nat) : (s.irq v).pending = s.pending := by
  obtain ⟨_, _, _, _, h⟩ := s.irq_frame v; rw [h]

@[simp] theorem State.irq_now (s : State) (v : Nat) : (s.irq v).now = s.now := by
  obtain ⟨_, _, _, _, h⟩ := s.irq_frame v; rw [h]

@[simp] theorem State.irq_tick (s : State) (v : Nat) : (s.irq v).tick = s.tick := by
  obtain ⟨_, _, _, _, h⟩ := s.irq_frame v; rw [h]

@[simp] theorem State.irq_fresh (s : State) (v : Nat) : (s.irq v).fresh = s.fresh := by
  obtain ⟨_, _, _, _, h⟩ := s.irq_frame v; rw [h]

@[simp] theorem State.irq_plane (s : State) (v : Nat) : (s.irq v).plane = s.plane := by
  obtain ⟨_, _, _, _, h⟩ := s.irq_frame v; rw [h]

@[simp] theorem State.irq_tray (s : State) (v : Nat) : (s.irq v).tray = s.tray := by
  obtain ⟨_, _, _, _, h⟩ := s.irq_frame v; rw [h]

@[simp] theorem State.irq_plan (s : State) (v : Nat) : (s.irq v).plan = s.plan := by
  obtain ⟨_, _, _, _, h⟩ := s.irq_frame v; rw [h]

@[simp] theorem State.irq_planLive (s : State) (v : Nat) : (s.irq v).planLive = s.planLive := by
  obtain ⟨_, _, _, _, h⟩ := s.irq_frame v; rw [h]

@[simp] theorem State.irq_planHash (s : State) (v : Nat) : (s.irq v).planHash = s.planHash := by
  obtain ⟨_, _, _, _, h⟩ := s.irq_frame v; rw [h]

@[simp] theorem State.irq_ports (s : State) (v : Nat) : (s.irq v).ports = s.ports := by
  obtain ⟨_, _, _, _, h⟩ := s.irq_frame v; rw [h]

@[simp] theorem State.irq_lanes (s : State) (v : Nat) : (s.irq v).lanes = s.lanes := by
  obtain ⟨_, _, _, _, h⟩ := s.irq_frame v; rw [h]

@[simp] theorem State.irq_tx (s : State) (v : Nat) : (s.irq v).tx = s.tx := by
  obtain ⟨_, _, _, _, h⟩ := s.irq_frame v; rw [h]

@[simp] theorem State.irq_lines (s : State) (v : Nat) : (s.irq v).lines = s.lines := by
  obtain ⟨_, _, _, _, h⟩ := s.irq_frame v; rw [h]

@[simp] theorem State.irq_rx (s : State) (v : Nat) : (s.irq v).rx = s.rx := by
  obtain ⟨_, _, _, _, h⟩ := s.irq_frame v; rw [h]

@[simp] theorem State.irq_inq (s : State) (v : Nat) : (s.irq v).inq = s.inq := by
  obtain ⟨_, _, _, _, h⟩ := s.irq_frame v; rw [h]

@[simp] theorem State.irq_outq (s : State) (v : Nat) : (s.irq v).outq = s.outq := by
  obtain ⟨_, _, _, _, h⟩ := s.irq_frame v; rw [h]

@[simp] theorem State.irq_vcbuf (s : State) (v : Nat) : (s.irq v).vcbuf = s.vcbuf := by
  obtain ⟨_, _, _, _, h⟩ := s.irq_frame v; rw [h]

@[simp] theorem State.irq_qcharge (s : State) (v : Nat) : (s.irq v).qcharge = s.qcharge := by
  obtain ⟨_, _, _, _, h⟩ := s.irq_frame v; rw [h]

@[simp] theorem State.irq_shared (s : State) (v : Nat) : (s.irq v).shared = s.shared := by
  obtain ⟨_, _, _, _, h⟩ := s.irq_frame v; rw [h]

@[simp] theorem State.irq_arb (s : State) (v : Nat) : (s.irq v).arb = s.arb := by
  obtain ⟨_, _, _, _, h⟩ := s.irq_frame v; rw [h]

@[simp] theorem State.irq_tables (s : State) (v : Nat) : (s.irq v).tables = s.tables := by
  obtain ⟨_, _, _, _, h⟩ := s.irq_frame v; rw [h]

@[simp] theorem State.irq_shadow (s : State) (v : Nat) : (s.irq v).shadow = s.shadow := by
  obtain ⟨_, _, _, _, h⟩ := s.irq_frame v; rw [h]

@[simp] theorem State.irq_escVia (s : State) (v : Nat) : (s.irq v).escVia = s.escVia := by
  obtain ⟨_, _, _, _, h⟩ := s.irq_frame v; rw [h]

@[simp] theorem State.irq_lfsr (s : State) (v : Nat) : (s.irq v).lfsr = s.lfsr := by
  obtain ⟨_, _, _, _, h⟩ := s.irq_frame v; rw [h]

@[simp] theorem State.irq_inFlows (s : State) (v : Nat) : (s.irq v).inFlows = s.inFlows := by
  obtain ⟨_, _, _, _, h⟩ := s.irq_frame v; rw [h]

@[simp] theorem State.irq_egFlows (s : State) (v : Nat) : (s.irq v).egFlows = s.egFlows := by
  obtain ⟨_, _, _, _, h⟩ := s.irq_frame v; rw [h]

@[simp] theorem State.irq_buckets (s : State) (v : Nat) : (s.irq v).buckets = s.buckets := by
  obtain ⟨_, _, _, _, h⟩ := s.irq_frame v; rw [h]

@[simp] theorem State.irq_local_ (s : State) (v : Nat) : (s.irq v).local_ = s.local_ := by
  obtain ⟨_, _, _, _, h⟩ := s.irq_frame v; rw [h]

@[simp] theorem State.irq_cellWait (s : State) (v : Nat) : (s.irq v).cellWait = s.cellWait := by
  obtain ⟨_, _, _, _, h⟩ := s.irq_frame v; rw [h]

@[simp] theorem State.irq_notices (s : State) (v : Nat) : (s.irq v).notices = s.notices := by
  obtain ⟨_, _, _, _, h⟩ := s.irq_frame v; rw [h]

@[simp] theorem State.irq_heldPkts (s : State) (v : Nat) : (s.irq v).heldPkts = s.heldPkts := by
  obtain ⟨_, _, _, _, h⟩ := s.irq_frame v; rw [h]

@[simp] theorem State.irq_unitEvents (s : State) (v : Nat) : (s.irq v).unitEvents = s.unitEvents := by
  obtain ⟨_, _, _, _, h⟩ := s.irq_frame v; rw [h]

@[simp] theorem State.irq_nextCast (s : State) (v : Nat) : (s.irq v).nextCast = s.nextCast := by
  obtain ⟨_, _, _, _, h⟩ := s.irq_frame v; rw [h]

@[simp] theorem State.irq_bindCount (s : State) (v : Nat) : (s.irq v).bindCount = s.bindCount := by
  obtain ⟨_, _, _, _, h⟩ := s.irq_frame v; rw [h]

@[simp] theorem State.irq_instCount (s : State) (v : Nat) : (s.irq v).instCount = s.instCount := by
  obtain ⟨_, _, _, _, h⟩ := s.irq_frame v; rw [h]

@[simp] theorem State.irq_topDown (s : State) (v : Nat) : (s.irq v).topDown = s.topDown := by
  obtain ⟨_, _, _, _, h⟩ := s.irq_frame v; rw [h]

@[simp] theorem State.irq_waitCmds (s : State) (v : Nat) : (s.irq v).waitCmds = s.waitCmds := by
  obtain ⟨_, _, _, _, h⟩ := s.irq_frame v; rw [h]

@[simp] theorem State.irq_restarting (s : State) (v : Nat) : (s.irq v).restarting = s.restarting := by
  obtain ⟨_, _, _, _, h⟩ := s.irq_frame v; rw [h]

@[simp] theorem State.irq_verifySlices (s : State) (v : Nat) : (s.irq v).verifySlices = s.verifySlices := by
  obtain ⟨_, _, _, _, h⟩ := s.irq_frame v; rw [h]

@[simp] theorem State.irq_groups (s : State) (v : Nat) : (s.irq v).groups = s.groups := by
  obtain ⟨_, _, _, _, h⟩ := s.irq_frame v; rw [h]

@[simp] theorem State.irq_slots (s : State) (v : Nat) : (s.irq v).slots = s.slots := by
  obtain ⟨_, _, _, _, h⟩ := s.irq_frame v; rw [h]

@[simp] theorem State.irq_bindWaits (s : State) (v : Nat) : (s.irq v).bindWaits = s.bindWaits := by
  obtain ⟨_, _, _, _, h⟩ := s.irq_frame v; rw [h]

@[simp] theorem State.irq_insts (s : State) (v : Nat) : (s.irq v).insts = s.insts := by
  obtain ⟨_, _, _, _, h⟩ := s.irq_frame v; rw [h]

@[simp] theorem State.irq_banks (s : State) (v : Nat) : (s.irq v).banks = s.banks := by
  obtain ⟨_, _, _, _, h⟩ := s.irq_frame v; rw [h]

@[simp] theorem State.irq_retired (s : State) (v : Nat) : (s.irq v).retired = s.retired := by
  obtain ⟨_, _, _, _, h⟩ := s.irq_frame v; rw [h]

@[simp] theorem State.irq_spares (s : State) (v : Nat) : (s.irq v).spares = s.spares := by
  obtain ⟨_, _, _, _, h⟩ := s.irq_frame v; rw [h]

@[simp] theorem State.irq_symTimes (s : State) (v : Nat) : (s.irq v).symTimes = s.symTimes := by
  obtain ⟨_, _, _, _, h⟩ := s.irq_frame v; rw [h]

@[simp] theorem State.irq_ueWords (s : State) (v : Nat) : (s.irq v).ueWords = s.ueWords := by
  obtain ⟨_, _, _, _, h⟩ := s.irq_frame v; rw [h]

@[simp] theorem State.irq_retireAsk (s : State) (v : Nat) : (s.irq v).retireAsk = s.retireAsk := by
  obtain ⟨_, _, _, _, h⟩ := s.irq_frame v; rw [h]

@[simp] theorem State.irq_recarve (s : State) (v : Nat) : (s.irq v).recarve = s.recarve := by
  obtain ⟨_, _, _, _, h⟩ := s.irq_frame v; rw [h]

@[simp] theorem State.irq_outOfService (s : State) (v : Nat) : (s.irq v).outOfService = s.outOfService := by
  obtain ⟨_, _, _, _, h⟩ := s.irq_frame v; rw [h]

@[simp] theorem State.irq_cdcOut (s : State) (v : Nat) : (s.irq v).cdcOut = s.cdcOut := by
  obtain ⟨_, _, _, _, h⟩ := s.irq_frame v; rw [h]

@[simp] theorem State.irq_dmaCount (s : State) (v : Nat) : (s.irq v).dmaCount = s.dmaCount := by
  obtain ⟨_, _, _, _, h⟩ := s.irq_frame v; rw [h]

@[simp] theorem State.irq_ctxs (s : State) (v : Nat) : (s.irq v).ctxs = s.ctxs := by
  obtain ⟨_, _, _, _, h⟩ := s.irq_frame v; rw [h]

@[simp] theorem State.irq_coreFenced (s : State) (v : Nat) : (s.irq v).coreFenced = s.coreFenced := by
  obtain ⟨_, _, _, _, h⟩ := s.irq_frame v; rw [h]

@[simp] theorem State.irq_rrCtx (s : State) (v : Nat) : (s.irq v).rrCtx = s.rrCtx := by
  obtain ⟨_, _, _, _, h⟩ := s.irq_frame v; rw [h]

@[simp] theorem State.irq_programs (s : State) (v : Nat) : (s.irq v).programs = s.programs := by
  obtain ⟨_, _, _, _, h⟩ := s.irq_frame v; rw [h]

@[simp] theorem State.irq_mem (s : State) (v : Nat) : (s.irq v).mem = s.mem := by
  obtain ⟨_, _, _, _, h⟩ := s.irq_frame v; rw [h]

@[simp] theorem State.irq_memPoison (s : State) (v : Nat) : (s.irq v).memPoison = s.memPoison := by
  obtain ⟨_, _, _, _, h⟩ := s.irq_frame v; rw [h]

@[simp] theorem State.irq_memReads (s : State) (v : Nat) : (s.irq v).memReads = s.memReads := by
  obtain ⟨_, _, _, _, h⟩ := s.irq_frame v; rw [h]

@[simp] theorem State.irq_nextMemTag (s : State) (v : Nat) : (s.irq v).nextMemTag = s.nextMemTag := by
  obtain ⟨_, _, _, _, h⟩ := s.irq_frame v; rw [h]

@[simp] theorem State.irq_ownReqs (s : State) (v : Nat) : (s.irq v).ownReqs = s.ownReqs := by
  obtain ⟨_, _, _, _, h⟩ := s.irq_frame v; rw [h]

@[simp] theorem State.irq_ownRsps (s : State) (v : Nat) : (s.irq v).ownRsps = s.ownRsps := by
  obtain ⟨_, _, _, _, h⟩ := s.irq_frame v; rw [h]

@[simp] theorem State.irq_scrubPos (s : State) (v : Nat) : (s.irq v).scrubPos = s.scrubPos := by
  obtain ⟨_, _, _, _, h⟩ := s.irq_frame v; rw [h]

@[simp] theorem State.irq_scrubClock (s : State) (v : Nat) : (s.irq v).scrubClock = s.scrubClock := by
  obtain ⟨_, _, _, _, h⟩ := s.irq_frame v; rw [h]

@[simp] theorem State.irq_scrubMark (s : State) (v : Nat) : (s.irq v).scrubMark = s.scrubMark := by
  obtain ⟨_, _, _, _, h⟩ := s.irq_frame v; rw [h]

@[simp] theorem State.irq_refreshes (s : State) (v : Nat) : (s.irq v).refreshes = s.refreshes := by
  obtain ⟨_, _, _, _, h⟩ := s.irq_frame v; rw [h]

@[simp] theorem State.irq_streams (s : State) (v : Nat) : (s.irq v).streams = s.streams := by
  obtain ⟨_, _, _, _, h⟩ := s.irq_frame v; rw [h]

@[simp] theorem State.irq_streamShadow (s : State) (v : Nat) : (s.irq v).streamShadow = s.streamShadow := by
  obtain ⟨_, _, _, _, h⟩ := s.irq_frame v; rw [h]

@[simp] theorem State.irq_runs (s : State) (v : Nat) : (s.irq v).runs = s.runs := by
  obtain ⟨_, _, _, _, h⟩ := s.irq_frame v; rw [h]

@[simp] theorem State.irq_sepoch (s : State) (v : Nat) : (s.irq v).sepoch = s.sepoch := by
  obtain ⟨_, _, _, _, h⟩ := s.irq_frame v; rw [h]

@[simp] theorem State.irq_streamSwitch (s : State) (v : Nat) : (s.irq v).streamSwitch = s.streamSwitch := by
  obtain ⟨_, _, _, _, h⟩ := s.irq_frame v; rw [h]

@[simp] theorem State.irq_streamHeld (s : State) (v : Nat) : (s.irq v).streamHeld = s.streamHeld := by
  obtain ⟨_, _, _, _, h⟩ := s.irq_frame v; rw [h]

@[simp] theorem State.irq_streamTurn (s : State) (v : Nat) : (s.irq v).streamTurn = s.streamTurn := by
  obtain ⟨_, _, _, _, h⟩ := s.irq_frame v; rw [h]

@[simp] theorem State.irq_eth (s : State) (v : Nat) : (s.irq v).eth = s.eth := by
  obtain ⟨_, _, _, _, h⟩ := s.irq_frame v; rw [h]

@[simp] theorem State.irq_ethAddr (s : State) (v : Nat) : (s.irq v).ethAddr = s.ethAddr := by
  obtain ⟨_, _, _, _, h⟩ := s.irq_frame v; rw [h]

@[simp] theorem State.irq_dmaIdx (s : State) (v : Nat) : (s.irq v).dmaIdx = s.dmaIdx := by
  obtain ⟨_, _, _, _, h⟩ := s.irq_frame v; rw [h]

@[simp] theorem State.irq_dmaRecheck (s : State) (v : Nat) : (s.irq v).dmaRecheck = s.dmaRecheck := by
  obtain ⟨_, _, _, _, h⟩ := s.irq_frame v; rw [h]

@[simp] theorem State.irq_msixTable (s : State) (v : Nat) : (s.irq v).msixTable = s.msixTable := by
  obtain ⟨_, _, _, _, h⟩ := s.irq_frame v; rw [h]

@[simp] theorem State.irq_mbx (s : State) (v : Nat) : (s.irq v).mbx = s.mbx := by
  obtain ⟨_, _, _, _, h⟩ := s.irq_frame v; rw [h]

@[simp] theorem State.irq_mbxImage (s : State) (v : Nat) : (s.irq v).mbxImage = s.mbxImage := by
  obtain ⟨_, _, _, _, h⟩ := s.irq_frame v; rw [h]

@[simp] theorem State.irq_stored (s : State) (v : Nat) : (s.irq v).stored = s.stored := by
  obtain ⟨_, _, _, _, h⟩ := s.irq_frame v; rw [h]

@[simp] theorem State.irq_hello (s : State) (v : Nat) : (s.irq v).hello = s.hello := by
  obtain ⟨_, _, _, _, h⟩ := s.irq_frame v; rw [h]

@[simp] theorem State.irq_grants (s : State) (v : Nat) : (s.irq v).grants = s.grants := by
  obtain ⟨_, _, _, _, h⟩ := s.irq_frame v; rw [h]

@[simp] theorem State.irq_stages (s : State) (v : Nat) : (s.irq v).stages = s.stages := by
  obtain ⟨_, _, _, _, h⟩ := s.irq_frame v; rw [h]

@[simp] theorem State.irq_recvCount (s : State) (v : Nat) : (s.irq v).recvCount = s.recvCount := by
  obtain ⟨_, _, _, _, h⟩ := s.irq_frame v; rw [h]

@[simp] theorem State.irq_errs (s : State) (v : Nat) : (s.irq v).errs = s.errs := by
  obtain ⟨_, _, _, _, h⟩ := s.irq_frame v; rw [h]

@[simp] theorem State.irq_rseq (s : State) (v : Nat) : (s.irq v).rseq = s.rseq := by
  obtain ⟨_, _, _, _, h⟩ := s.irq_frame v; rw [h]

@[simp] theorem State.irq_dice (s : State) (v : Nat) : (s.irq v).dice = s.dice := by
  obtain ⟨_, _, _, _, h⟩ := s.irq_frame v; rw [h]

@[simp] theorem State.irq_ledger (s : State) (v : Nat) : (s.irq v).ledger = s.ledger := by
  obtain ⟨_, _, _, _, h⟩ := s.irq_frame v; rw [h]

@[simp] theorem State.irq_trust (s : State) (v : Nat) : (s.irq v).trust = s.trust := by
  obtain ⟨_, _, _, _, h⟩ := s.irq_frame v; rw [h]

@[simp] theorem State.irq_cond (s : State) (v : Nat) : (s.irq v).cond = s.cond := by
  obtain ⟨_, _, _, _, h⟩ := s.irq_frame v; rw [h]

@[simp] theorem State.irq_ckpts (s : State) (v : Nat) : (s.irq v).ckpts = s.ckpts := by
  obtain ⟨_, _, _, _, h⟩ := s.irq_frame v; rw [h]

@[simp] theorem State.irq_pair (s : State) (v : Nat) : (s.irq v).pair = s.pair := by
  obtain ⟨_, _, _, _, h⟩ := s.irq_frame v; rw [h]

@[simp] theorem State.irq_agent (s : State) (v : Nat) : (s.irq v).agent = s.agent := by
  obtain ⟨_, _, _, _, h⟩ := s.irq_frame v; rw [h]

@[simp] theorem State.irq_power (s : State) (v : Nat) : (s.irq v).power = s.power := by
  obtain ⟨_, _, _, _, h⟩ := s.irq_frame v; rw [h]

@[simp] theorem State.irq_phys (s : State) (v : Nat) : (s.irq v).phys = s.phys := by
  obtain ⟨_, _, _, _, h⟩ := s.irq_frame v; rw [h]

@[simp] theorem State.irq_mainSince (s : State) (v : Nat) : (s.irq v).mainSince = s.mainSince := by
  obtain ⟨_, _, _, _, h⟩ := s.irq_frame v; rw [h]

@[simp] theorem State.irq_cntHeld (s : State) (v : Nat) : (s.irq v).cntHeld = s.cntHeld := by
  obtain ⟨_, _, _, _, h⟩ := s.irq_frame v; rw [h]

@[simp] theorem State.irq_always (s : State) (v : Nat) : (s.irq v).always = s.always := by
  obtain ⟨_, _, _, _, h⟩ := s.irq_frame v; rw [h]

@[simp] theorem State.irq_linkCnt (s : State) (v : Nat) : (s.irq v).linkCnt = s.linkCnt := by
  obtain ⟨_, _, _, _, h⟩ := s.irq_frame v; rw [h]

@[simp] theorem State.irq_ssSeq (s : State) (v : Nat) : (s.irq v).ssSeq = s.ssSeq := by
  obtain ⟨_, _, _, _, h⟩ := s.irq_frame v; rw [h]

@[simp] theorem State.irq_ssBusy (s : State) (v : Nat) : (s.irq v).ssBusy = s.ssBusy := by
  obtain ⟨_, _, _, _, h⟩ := s.irq_frame v; rw [h]

@[simp] theorem State.irq_ssSkippedBefore (s : State) (v : Nat) : (s.irq v).ssSkippedBefore = s.ssSkippedBefore := by
  obtain ⟨_, _, _, _, h⟩ := s.irq_frame v; rw [h]

@[simp] theorem State.irq_ssRecord (s : State) (v : Nat) : (s.irq v).ssRecord = s.ssRecord := by
  obtain ⟨_, _, _, _, h⟩ := s.irq_frame v; rw [h]

@[simp] theorem State.irq_ssPending (s : State) (v : Nat) : (s.irq v).ssPending = s.ssPending := by
  obtain ⟨_, _, _, _, h⟩ := s.irq_frame v; rw [h]

@[simp] theorem State.irq_mismatchHours (s : State) (v : Nat) : (s.irq v).mismatchHours = s.mismatchHours := by
  obtain ⟨_, _, _, _, h⟩ := s.irq_frame v; rw [h]


/-! ## Reports and ledger requests -/

/-- What a report to the conductor does (14 R336, R339): one number, one report kept until acknowledged, one output. -/
theorem State.report_frame (s : State) (r : Report) :
    ∃ rg c ag, ag = { s.agent with aseq := s.agent.aseq + 1, unacked := s.agent.unacked ++ [(s.agent.aseq, r)] } ∧
      s.report r = { s with regs := rg, cnt := c, out := s.out ++ [.report r s.agent.aseq], agent := ag } := by
  obtain ⟨rg, c, h⟩ := (({ s with agent := { s.agent with aseq := s.agent.aseq + 1, unacked := s.agent.unacked ++ [(s.agent.aseq, r)] } } :
    State).emit (.report r s.agent.aseq)).ev_frame U.hub 0x03 1
  exact ⟨rg, c, _, rfl, h⟩


@[simp] theorem State.report_pending (s : State) (r : Report) : (s.report r).pending = s.pending := by
  obtain ⟨_, _, _, _, h⟩ := s.report_frame r; rw [h]

@[simp] theorem State.report_now (s : State) (r : Report) : (s.report r).now = s.now := by
  obtain ⟨_, _, _, _, h⟩ := s.report_frame r; rw [h]

@[simp] theorem State.report_tick (s : State) (r : Report) : (s.report r).tick = s.tick := by
  obtain ⟨_, _, _, _, h⟩ := s.report_frame r; rw [h]

@[simp] theorem State.report_fresh (s : State) (r : Report) : (s.report r).fresh = s.fresh := by
  obtain ⟨_, _, _, _, h⟩ := s.report_frame r; rw [h]

@[simp] theorem State.report_plane (s : State) (r : Report) : (s.report r).plane = s.plane := by
  obtain ⟨_, _, _, _, h⟩ := s.report_frame r; rw [h]

@[simp] theorem State.report_tray (s : State) (r : Report) : (s.report r).tray = s.tray := by
  obtain ⟨_, _, _, _, h⟩ := s.report_frame r; rw [h]

@[simp] theorem State.report_plan (s : State) (r : Report) : (s.report r).plan = s.plan := by
  obtain ⟨_, _, _, _, h⟩ := s.report_frame r; rw [h]

@[simp] theorem State.report_planLive (s : State) (r : Report) : (s.report r).planLive = s.planLive := by
  obtain ⟨_, _, _, _, h⟩ := s.report_frame r; rw [h]

@[simp] theorem State.report_planHash (s : State) (r : Report) : (s.report r).planHash = s.planHash := by
  obtain ⟨_, _, _, _, h⟩ := s.report_frame r; rw [h]

@[simp] theorem State.report_ports (s : State) (r : Report) : (s.report r).ports = s.ports := by
  obtain ⟨_, _, _, _, h⟩ := s.report_frame r; rw [h]

@[simp] theorem State.report_lanes (s : State) (r : Report) : (s.report r).lanes = s.lanes := by
  obtain ⟨_, _, _, _, h⟩ := s.report_frame r; rw [h]

@[simp] theorem State.report_tx (s : State) (r : Report) : (s.report r).tx = s.tx := by
  obtain ⟨_, _, _, _, h⟩ := s.report_frame r; rw [h]

@[simp] theorem State.report_lines (s : State) (r : Report) : (s.report r).lines = s.lines := by
  obtain ⟨_, _, _, _, h⟩ := s.report_frame r; rw [h]

@[simp] theorem State.report_rx (s : State) (r : Report) : (s.report r).rx = s.rx := by
  obtain ⟨_, _, _, _, h⟩ := s.report_frame r; rw [h]

@[simp] theorem State.report_inq (s : State) (r : Report) : (s.report r).inq = s.inq := by
  obtain ⟨_, _, _, _, h⟩ := s.report_frame r; rw [h]

@[simp] theorem State.report_outq (s : State) (r : Report) : (s.report r).outq = s.outq := by
  obtain ⟨_, _, _, _, h⟩ := s.report_frame r; rw [h]

@[simp] theorem State.report_vcbuf (s : State) (r : Report) : (s.report r).vcbuf = s.vcbuf := by
  obtain ⟨_, _, _, _, h⟩ := s.report_frame r; rw [h]

@[simp] theorem State.report_qcharge (s : State) (r : Report) : (s.report r).qcharge = s.qcharge := by
  obtain ⟨_, _, _, _, h⟩ := s.report_frame r; rw [h]

@[simp] theorem State.report_shared (s : State) (r : Report) : (s.report r).shared = s.shared := by
  obtain ⟨_, _, _, _, h⟩ := s.report_frame r; rw [h]

@[simp] theorem State.report_arb (s : State) (r : Report) : (s.report r).arb = s.arb := by
  obtain ⟨_, _, _, _, h⟩ := s.report_frame r; rw [h]

@[simp] theorem State.report_tables (s : State) (r : Report) : (s.report r).tables = s.tables := by
  obtain ⟨_, _, _, _, h⟩ := s.report_frame r; rw [h]

@[simp] theorem State.report_shadow (s : State) (r : Report) : (s.report r).shadow = s.shadow := by
  obtain ⟨_, _, _, _, h⟩ := s.report_frame r; rw [h]

@[simp] theorem State.report_escVia (s : State) (r : Report) : (s.report r).escVia = s.escVia := by
  obtain ⟨_, _, _, _, h⟩ := s.report_frame r; rw [h]

@[simp] theorem State.report_lfsr (s : State) (r : Report) : (s.report r).lfsr = s.lfsr := by
  obtain ⟨_, _, _, _, h⟩ := s.report_frame r; rw [h]

@[simp] theorem State.report_inFlows (s : State) (r : Report) : (s.report r).inFlows = s.inFlows := by
  obtain ⟨_, _, _, _, h⟩ := s.report_frame r; rw [h]

@[simp] theorem State.report_egFlows (s : State) (r : Report) : (s.report r).egFlows = s.egFlows := by
  obtain ⟨_, _, _, _, h⟩ := s.report_frame r; rw [h]

@[simp] theorem State.report_buckets (s : State) (r : Report) : (s.report r).buckets = s.buckets := by
  obtain ⟨_, _, _, _, h⟩ := s.report_frame r; rw [h]

@[simp] theorem State.report_local_ (s : State) (r : Report) : (s.report r).local_ = s.local_ := by
  obtain ⟨_, _, _, _, h⟩ := s.report_frame r; rw [h]

@[simp] theorem State.report_cellWait (s : State) (r : Report) : (s.report r).cellWait = s.cellWait := by
  obtain ⟨_, _, _, _, h⟩ := s.report_frame r; rw [h]

@[simp] theorem State.report_notices (s : State) (r : Report) : (s.report r).notices = s.notices := by
  obtain ⟨_, _, _, _, h⟩ := s.report_frame r; rw [h]

@[simp] theorem State.report_heldPkts (s : State) (r : Report) : (s.report r).heldPkts = s.heldPkts := by
  obtain ⟨_, _, _, _, h⟩ := s.report_frame r; rw [h]

@[simp] theorem State.report_unitEvents (s : State) (r : Report) : (s.report r).unitEvents = s.unitEvents := by
  obtain ⟨_, _, _, _, h⟩ := s.report_frame r; rw [h]

@[simp] theorem State.report_nextCast (s : State) (r : Report) : (s.report r).nextCast = s.nextCast := by
  obtain ⟨_, _, _, _, h⟩ := s.report_frame r; rw [h]

@[simp] theorem State.report_bindCount (s : State) (r : Report) : (s.report r).bindCount = s.bindCount := by
  obtain ⟨_, _, _, _, h⟩ := s.report_frame r; rw [h]

@[simp] theorem State.report_instCount (s : State) (r : Report) : (s.report r).instCount = s.instCount := by
  obtain ⟨_, _, _, _, h⟩ := s.report_frame r; rw [h]

@[simp] theorem State.report_topDown (s : State) (r : Report) : (s.report r).topDown = s.topDown := by
  obtain ⟨_, _, _, _, h⟩ := s.report_frame r; rw [h]

@[simp] theorem State.report_waitCmds (s : State) (r : Report) : (s.report r).waitCmds = s.waitCmds := by
  obtain ⟨_, _, _, _, h⟩ := s.report_frame r; rw [h]

@[simp] theorem State.report_restarting (s : State) (r : Report) : (s.report r).restarting = s.restarting := by
  obtain ⟨_, _, _, _, h⟩ := s.report_frame r; rw [h]

@[simp] theorem State.report_verifySlices (s : State) (r : Report) : (s.report r).verifySlices = s.verifySlices := by
  obtain ⟨_, _, _, _, h⟩ := s.report_frame r; rw [h]

@[simp] theorem State.report_groups (s : State) (r : Report) : (s.report r).groups = s.groups := by
  obtain ⟨_, _, _, _, h⟩ := s.report_frame r; rw [h]

@[simp] theorem State.report_slots (s : State) (r : Report) : (s.report r).slots = s.slots := by
  obtain ⟨_, _, _, _, h⟩ := s.report_frame r; rw [h]

@[simp] theorem State.report_bindWaits (s : State) (r : Report) : (s.report r).bindWaits = s.bindWaits := by
  obtain ⟨_, _, _, _, h⟩ := s.report_frame r; rw [h]

@[simp] theorem State.report_insts (s : State) (r : Report) : (s.report r).insts = s.insts := by
  obtain ⟨_, _, _, _, h⟩ := s.report_frame r; rw [h]

@[simp] theorem State.report_banks (s : State) (r : Report) : (s.report r).banks = s.banks := by
  obtain ⟨_, _, _, _, h⟩ := s.report_frame r; rw [h]

@[simp] theorem State.report_retired (s : State) (r : Report) : (s.report r).retired = s.retired := by
  obtain ⟨_, _, _, _, h⟩ := s.report_frame r; rw [h]

@[simp] theorem State.report_spares (s : State) (r : Report) : (s.report r).spares = s.spares := by
  obtain ⟨_, _, _, _, h⟩ := s.report_frame r; rw [h]

@[simp] theorem State.report_symTimes (s : State) (r : Report) : (s.report r).symTimes = s.symTimes := by
  obtain ⟨_, _, _, _, h⟩ := s.report_frame r; rw [h]

@[simp] theorem State.report_ueWords (s : State) (r : Report) : (s.report r).ueWords = s.ueWords := by
  obtain ⟨_, _, _, _, h⟩ := s.report_frame r; rw [h]

@[simp] theorem State.report_retireAsk (s : State) (r : Report) : (s.report r).retireAsk = s.retireAsk := by
  obtain ⟨_, _, _, _, h⟩ := s.report_frame r; rw [h]

@[simp] theorem State.report_recarve (s : State) (r : Report) : (s.report r).recarve = s.recarve := by
  obtain ⟨_, _, _, _, h⟩ := s.report_frame r; rw [h]

@[simp] theorem State.report_outOfService (s : State) (r : Report) : (s.report r).outOfService = s.outOfService := by
  obtain ⟨_, _, _, _, h⟩ := s.report_frame r; rw [h]

@[simp] theorem State.report_cdcOut (s : State) (r : Report) : (s.report r).cdcOut = s.cdcOut := by
  obtain ⟨_, _, _, _, h⟩ := s.report_frame r; rw [h]

@[simp] theorem State.report_dmaCount (s : State) (r : Report) : (s.report r).dmaCount = s.dmaCount := by
  obtain ⟨_, _, _, _, h⟩ := s.report_frame r; rw [h]

@[simp] theorem State.report_ctxs (s : State) (r : Report) : (s.report r).ctxs = s.ctxs := by
  obtain ⟨_, _, _, _, h⟩ := s.report_frame r; rw [h]

@[simp] theorem State.report_coreFenced (s : State) (r : Report) : (s.report r).coreFenced = s.coreFenced := by
  obtain ⟨_, _, _, _, h⟩ := s.report_frame r; rw [h]

@[simp] theorem State.report_rrCtx (s : State) (r : Report) : (s.report r).rrCtx = s.rrCtx := by
  obtain ⟨_, _, _, _, h⟩ := s.report_frame r; rw [h]

@[simp] theorem State.report_programs (s : State) (r : Report) : (s.report r).programs = s.programs := by
  obtain ⟨_, _, _, _, h⟩ := s.report_frame r; rw [h]

@[simp] theorem State.report_mem (s : State) (r : Report) : (s.report r).mem = s.mem := by
  obtain ⟨_, _, _, _, h⟩ := s.report_frame r; rw [h]

@[simp] theorem State.report_memPoison (s : State) (r : Report) : (s.report r).memPoison = s.memPoison := by
  obtain ⟨_, _, _, _, h⟩ := s.report_frame r; rw [h]

@[simp] theorem State.report_memReads (s : State) (r : Report) : (s.report r).memReads = s.memReads := by
  obtain ⟨_, _, _, _, h⟩ := s.report_frame r; rw [h]

@[simp] theorem State.report_nextMemTag (s : State) (r : Report) : (s.report r).nextMemTag = s.nextMemTag := by
  obtain ⟨_, _, _, _, h⟩ := s.report_frame r; rw [h]

@[simp] theorem State.report_ownReqs (s : State) (r : Report) : (s.report r).ownReqs = s.ownReqs := by
  obtain ⟨_, _, _, _, h⟩ := s.report_frame r; rw [h]

@[simp] theorem State.report_ownRsps (s : State) (r : Report) : (s.report r).ownRsps = s.ownRsps := by
  obtain ⟨_, _, _, _, h⟩ := s.report_frame r; rw [h]

@[simp] theorem State.report_scrubPos (s : State) (r : Report) : (s.report r).scrubPos = s.scrubPos := by
  obtain ⟨_, _, _, _, h⟩ := s.report_frame r; rw [h]

@[simp] theorem State.report_scrubClock (s : State) (r : Report) : (s.report r).scrubClock = s.scrubClock := by
  obtain ⟨_, _, _, _, h⟩ := s.report_frame r; rw [h]

@[simp] theorem State.report_scrubMark (s : State) (r : Report) : (s.report r).scrubMark = s.scrubMark := by
  obtain ⟨_, _, _, _, h⟩ := s.report_frame r; rw [h]

@[simp] theorem State.report_refreshes (s : State) (r : Report) : (s.report r).refreshes = s.refreshes := by
  obtain ⟨_, _, _, _, h⟩ := s.report_frame r; rw [h]

@[simp] theorem State.report_streams (s : State) (r : Report) : (s.report r).streams = s.streams := by
  obtain ⟨_, _, _, _, h⟩ := s.report_frame r; rw [h]

@[simp] theorem State.report_streamShadow (s : State) (r : Report) : (s.report r).streamShadow = s.streamShadow := by
  obtain ⟨_, _, _, _, h⟩ := s.report_frame r; rw [h]

@[simp] theorem State.report_runs (s : State) (r : Report) : (s.report r).runs = s.runs := by
  obtain ⟨_, _, _, _, h⟩ := s.report_frame r; rw [h]

@[simp] theorem State.report_sepoch (s : State) (r : Report) : (s.report r).sepoch = s.sepoch := by
  obtain ⟨_, _, _, _, h⟩ := s.report_frame r; rw [h]

@[simp] theorem State.report_streamSwitch (s : State) (r : Report) : (s.report r).streamSwitch = s.streamSwitch := by
  obtain ⟨_, _, _, _, h⟩ := s.report_frame r; rw [h]

@[simp] theorem State.report_streamHeld (s : State) (r : Report) : (s.report r).streamHeld = s.streamHeld := by
  obtain ⟨_, _, _, _, h⟩ := s.report_frame r; rw [h]

@[simp] theorem State.report_streamTurn (s : State) (r : Report) : (s.report r).streamTurn = s.streamTurn := by
  obtain ⟨_, _, _, _, h⟩ := s.report_frame r; rw [h]

@[simp] theorem State.report_eth (s : State) (r : Report) : (s.report r).eth = s.eth := by
  obtain ⟨_, _, _, _, h⟩ := s.report_frame r; rw [h]

@[simp] theorem State.report_ethAddr (s : State) (r : Report) : (s.report r).ethAddr = s.ethAddr := by
  obtain ⟨_, _, _, _, h⟩ := s.report_frame r; rw [h]

@[simp] theorem State.report_dmaIdx (s : State) (r : Report) : (s.report r).dmaIdx = s.dmaIdx := by
  obtain ⟨_, _, _, _, h⟩ := s.report_frame r; rw [h]

@[simp] theorem State.report_dmaRecheck (s : State) (r : Report) : (s.report r).dmaRecheck = s.dmaRecheck := by
  obtain ⟨_, _, _, _, h⟩ := s.report_frame r; rw [h]

@[simp] theorem State.report_msixTable (s : State) (r : Report) : (s.report r).msixTable = s.msixTable := by
  obtain ⟨_, _, _, _, h⟩ := s.report_frame r; rw [h]

@[simp] theorem State.report_pba (s : State) (r : Report) : (s.report r).pba = s.pba := by
  obtain ⟨_, _, _, _, h⟩ := s.report_frame r; rw [h]

@[simp] theorem State.report_mbx (s : State) (r : Report) : (s.report r).mbx = s.mbx := by
  obtain ⟨_, _, _, _, h⟩ := s.report_frame r; rw [h]

@[simp] theorem State.report_mbxImage (s : State) (r : Report) : (s.report r).mbxImage = s.mbxImage := by
  obtain ⟨_, _, _, _, h⟩ := s.report_frame r; rw [h]

@[simp] theorem State.report_stored (s : State) (r : Report) : (s.report r).stored = s.stored := by
  obtain ⟨_, _, _, _, h⟩ := s.report_frame r; rw [h]

@[simp] theorem State.report_hello (s : State) (r : Report) : (s.report r).hello = s.hello := by
  obtain ⟨_, _, _, _, h⟩ := s.report_frame r; rw [h]

@[simp] theorem State.report_grants (s : State) (r : Report) : (s.report r).grants = s.grants := by
  obtain ⟨_, _, _, _, h⟩ := s.report_frame r; rw [h]

@[simp] theorem State.report_stages (s : State) (r : Report) : (s.report r).stages = s.stages := by
  obtain ⟨_, _, _, _, h⟩ := s.report_frame r; rw [h]

@[simp] theorem State.report_recvCount (s : State) (r : Report) : (s.report r).recvCount = s.recvCount := by
  obtain ⟨_, _, _, _, h⟩ := s.report_frame r; rw [h]

@[simp] theorem State.report_errs (s : State) (r : Report) : (s.report r).errs = s.errs := by
  obtain ⟨_, _, _, _, h⟩ := s.report_frame r; rw [h]

@[simp] theorem State.report_rseq (s : State) (r : Report) : (s.report r).rseq = s.rseq := by
  obtain ⟨_, _, _, _, h⟩ := s.report_frame r; rw [h]

@[simp] theorem State.report_dice (s : State) (r : Report) : (s.report r).dice = s.dice := by
  obtain ⟨_, _, _, _, h⟩ := s.report_frame r; rw [h]

@[simp] theorem State.report_ledger (s : State) (r : Report) : (s.report r).ledger = s.ledger := by
  obtain ⟨_, _, _, _, h⟩ := s.report_frame r; rw [h]

@[simp] theorem State.report_trust (s : State) (r : Report) : (s.report r).trust = s.trust := by
  obtain ⟨_, _, _, _, h⟩ := s.report_frame r; rw [h]

@[simp] theorem State.report_cond (s : State) (r : Report) : (s.report r).cond = s.cond := by
  obtain ⟨_, _, _, _, h⟩ := s.report_frame r; rw [h]

@[simp] theorem State.report_ckpts (s : State) (r : Report) : (s.report r).ckpts = s.ckpts := by
  obtain ⟨_, _, _, _, h⟩ := s.report_frame r; rw [h]

@[simp] theorem State.report_pair (s : State) (r : Report) : (s.report r).pair = s.pair := by
  obtain ⟨_, _, _, _, h⟩ := s.report_frame r; rw [h]

@[simp] theorem State.report_power (s : State) (r : Report) : (s.report r).power = s.power := by
  obtain ⟨_, _, _, _, h⟩ := s.report_frame r; rw [h]

@[simp] theorem State.report_phys (s : State) (r : Report) : (s.report r).phys = s.phys := by
  obtain ⟨_, _, _, _, h⟩ := s.report_frame r; rw [h]

@[simp] theorem State.report_mainSince (s : State) (r : Report) : (s.report r).mainSince = s.mainSince := by
  obtain ⟨_, _, _, _, h⟩ := s.report_frame r; rw [h]

@[simp] theorem State.report_cntHeld (s : State) (r : Report) : (s.report r).cntHeld = s.cntHeld := by
  obtain ⟨_, _, _, _, h⟩ := s.report_frame r; rw [h]

@[simp] theorem State.report_always (s : State) (r : Report) : (s.report r).always = s.always := by
  obtain ⟨_, _, _, _, h⟩ := s.report_frame r; rw [h]

@[simp] theorem State.report_linkCnt (s : State) (r : Report) : (s.report r).linkCnt = s.linkCnt := by
  obtain ⟨_, _, _, _, h⟩ := s.report_frame r; rw [h]

@[simp] theorem State.report_ssSeq (s : State) (r : Report) : (s.report r).ssSeq = s.ssSeq := by
  obtain ⟨_, _, _, _, h⟩ := s.report_frame r; rw [h]

@[simp] theorem State.report_ssBusy (s : State) (r : Report) : (s.report r).ssBusy = s.ssBusy := by
  obtain ⟨_, _, _, _, h⟩ := s.report_frame r; rw [h]

@[simp] theorem State.report_ssSkippedBefore (s : State) (r : Report) : (s.report r).ssSkippedBefore = s.ssSkippedBefore := by
  obtain ⟨_, _, _, _, h⟩ := s.report_frame r; rw [h]

@[simp] theorem State.report_ssRecord (s : State) (r : Report) : (s.report r).ssRecord = s.ssRecord := by
  obtain ⟨_, _, _, _, h⟩ := s.report_frame r; rw [h]

@[simp] theorem State.report_ssPending (s : State) (r : Report) : (s.report r).ssPending = s.ssPending := by
  obtain ⟨_, _, _, _, h⟩ := s.report_frame r; rw [h]

@[simp] theorem State.report_mismatchHours (s : State) (r : Report) : (s.report r).mismatchHours = s.mismatchHours := by
  obtain ⟨_, _, _, _, h⟩ := s.report_frame r; rw [h]

@[simp] theorem State.report_out (s : State) (r : Report) : (s.report r).out = s.out ++ [.report r s.agent.aseq] := by
  obtain ⟨_, _, _, _, h⟩ := s.report_frame r; rw [h]

@[simp] theorem State.report_agent (s : State) (r : Report) : (s.report r).agent =
    { s.agent with aseq := s.agent.aseq + 1, unacked := s.agent.unacked ++ [(s.agent.aseq, r)] } := by
  obtain ⟨_, _, _, h, g⟩ := s.report_frame r
  rw [g, h]

theorem State.report_rd (s : State) (r : Report) (f : Fld) (j : Nat) (hr : f.reg ≠ .cntSel) (hj : j < 2 ^ 20) :
    (s.report r).rd f j = s.rd f j := by
  rw [State.report, State.ev_rd _ _ _ _ _ _ hr hj (by decide)]; rfl

/-- What a ledger request does (16 R390): it joins the queue, and is counted. -/
theorem State.askLedger_frame (s : State) (type key : Nat) (p : List Byte) (rs : Option Nat) :
    ∃ rg c a l, l = { s.ledger with queue := s.ledger.queue ++ [CommitReq.mk type key p rs 0] } ∧
      s.askLedger type key p rs = { s with regs := rg, cnt := c, always := a, ledger := l } := by
  simp only [State.askLedger]
  split
  · exact ⟨_, _, _, _, rfl, rfl⟩
  · obtain ⟨rg, c, h⟩ := ({ s with ledger := { s.ledger with queue := s.ledger.queue ++ [CommitReq.mk type key p rs 0] } } :
      State).ev_frame U.hub 0x05 1
    exact ⟨rg, c, s.always, _, rfl, h⟩


@[simp] theorem State.askLedger_pending (s : State) (a k : Nat) (p : List Byte) (r : Option Nat) : (s.askLedger a k p r).pending = s.pending := by
  obtain ⟨_, _, _, _, _, h⟩ := s.askLedger_frame a k p r; rw [h]

@[simp] theorem State.askLedger_now (s : State) (a k : Nat) (p : List Byte) (r : Option Nat) : (s.askLedger a k p r).now = s.now := by
  obtain ⟨_, _, _, _, _, h⟩ := s.askLedger_frame a k p r; rw [h]

@[simp] theorem State.askLedger_tick (s : State) (a k : Nat) (p : List Byte) (r : Option Nat) : (s.askLedger a k p r).tick = s.tick := by
  obtain ⟨_, _, _, _, _, h⟩ := s.askLedger_frame a k p r; rw [h]

@[simp] theorem State.askLedger_fresh (s : State) (a k : Nat) (p : List Byte) (r : Option Nat) : (s.askLedger a k p r).fresh = s.fresh := by
  obtain ⟨_, _, _, _, _, h⟩ := s.askLedger_frame a k p r; rw [h]

@[simp] theorem State.askLedger_out (s : State) (a k : Nat) (p : List Byte) (r : Option Nat) : (s.askLedger a k p r).out = s.out := by
  obtain ⟨_, _, _, _, _, h⟩ := s.askLedger_frame a k p r; rw [h]

@[simp] theorem State.askLedger_plane (s : State) (a k : Nat) (p : List Byte) (r : Option Nat) : (s.askLedger a k p r).plane = s.plane := by
  obtain ⟨_, _, _, _, _, h⟩ := s.askLedger_frame a k p r; rw [h]

@[simp] theorem State.askLedger_tray (s : State) (a k : Nat) (p : List Byte) (r : Option Nat) : (s.askLedger a k p r).tray = s.tray := by
  obtain ⟨_, _, _, _, _, h⟩ := s.askLedger_frame a k p r; rw [h]

@[simp] theorem State.askLedger_plan (s : State) (a k : Nat) (p : List Byte) (r : Option Nat) : (s.askLedger a k p r).plan = s.plan := by
  obtain ⟨_, _, _, _, _, h⟩ := s.askLedger_frame a k p r; rw [h]

@[simp] theorem State.askLedger_planLive (s : State) (a k : Nat) (p : List Byte) (r : Option Nat) : (s.askLedger a k p r).planLive = s.planLive := by
  obtain ⟨_, _, _, _, _, h⟩ := s.askLedger_frame a k p r; rw [h]

@[simp] theorem State.askLedger_planHash (s : State) (a k : Nat) (p : List Byte) (r : Option Nat) : (s.askLedger a k p r).planHash = s.planHash := by
  obtain ⟨_, _, _, _, _, h⟩ := s.askLedger_frame a k p r; rw [h]

@[simp] theorem State.askLedger_ports (s : State) (a k : Nat) (p : List Byte) (r : Option Nat) : (s.askLedger a k p r).ports = s.ports := by
  obtain ⟨_, _, _, _, _, h⟩ := s.askLedger_frame a k p r; rw [h]

@[simp] theorem State.askLedger_lanes (s : State) (a k : Nat) (p : List Byte) (r : Option Nat) : (s.askLedger a k p r).lanes = s.lanes := by
  obtain ⟨_, _, _, _, _, h⟩ := s.askLedger_frame a k p r; rw [h]

@[simp] theorem State.askLedger_tx (s : State) (a k : Nat) (p : List Byte) (r : Option Nat) : (s.askLedger a k p r).tx = s.tx := by
  obtain ⟨_, _, _, _, _, h⟩ := s.askLedger_frame a k p r; rw [h]

@[simp] theorem State.askLedger_lines (s : State) (a k : Nat) (p : List Byte) (r : Option Nat) : (s.askLedger a k p r).lines = s.lines := by
  obtain ⟨_, _, _, _, _, h⟩ := s.askLedger_frame a k p r; rw [h]

@[simp] theorem State.askLedger_rx (s : State) (a k : Nat) (p : List Byte) (r : Option Nat) : (s.askLedger a k p r).rx = s.rx := by
  obtain ⟨_, _, _, _, _, h⟩ := s.askLedger_frame a k p r; rw [h]

@[simp] theorem State.askLedger_inq (s : State) (a k : Nat) (p : List Byte) (r : Option Nat) : (s.askLedger a k p r).inq = s.inq := by
  obtain ⟨_, _, _, _, _, h⟩ := s.askLedger_frame a k p r; rw [h]

@[simp] theorem State.askLedger_outq (s : State) (a k : Nat) (p : List Byte) (r : Option Nat) : (s.askLedger a k p r).outq = s.outq := by
  obtain ⟨_, _, _, _, _, h⟩ := s.askLedger_frame a k p r; rw [h]

@[simp] theorem State.askLedger_vcbuf (s : State) (a k : Nat) (p : List Byte) (r : Option Nat) : (s.askLedger a k p r).vcbuf = s.vcbuf := by
  obtain ⟨_, _, _, _, _, h⟩ := s.askLedger_frame a k p r; rw [h]

@[simp] theorem State.askLedger_qcharge (s : State) (a k : Nat) (p : List Byte) (r : Option Nat) : (s.askLedger a k p r).qcharge = s.qcharge := by
  obtain ⟨_, _, _, _, _, h⟩ := s.askLedger_frame a k p r; rw [h]

@[simp] theorem State.askLedger_shared (s : State) (a k : Nat) (p : List Byte) (r : Option Nat) : (s.askLedger a k p r).shared = s.shared := by
  obtain ⟨_, _, _, _, _, h⟩ := s.askLedger_frame a k p r; rw [h]

@[simp] theorem State.askLedger_arb (s : State) (a k : Nat) (p : List Byte) (r : Option Nat) : (s.askLedger a k p r).arb = s.arb := by
  obtain ⟨_, _, _, _, _, h⟩ := s.askLedger_frame a k p r; rw [h]

@[simp] theorem State.askLedger_tables (s : State) (a k : Nat) (p : List Byte) (r : Option Nat) : (s.askLedger a k p r).tables = s.tables := by
  obtain ⟨_, _, _, _, _, h⟩ := s.askLedger_frame a k p r; rw [h]

@[simp] theorem State.askLedger_shadow (s : State) (a k : Nat) (p : List Byte) (r : Option Nat) : (s.askLedger a k p r).shadow = s.shadow := by
  obtain ⟨_, _, _, _, _, h⟩ := s.askLedger_frame a k p r; rw [h]

@[simp] theorem State.askLedger_escVia (s : State) (a k : Nat) (p : List Byte) (r : Option Nat) : (s.askLedger a k p r).escVia = s.escVia := by
  obtain ⟨_, _, _, _, _, h⟩ := s.askLedger_frame a k p r; rw [h]

@[simp] theorem State.askLedger_lfsr (s : State) (a k : Nat) (p : List Byte) (r : Option Nat) : (s.askLedger a k p r).lfsr = s.lfsr := by
  obtain ⟨_, _, _, _, _, h⟩ := s.askLedger_frame a k p r; rw [h]

@[simp] theorem State.askLedger_inFlows (s : State) (a k : Nat) (p : List Byte) (r : Option Nat) : (s.askLedger a k p r).inFlows = s.inFlows := by
  obtain ⟨_, _, _, _, _, h⟩ := s.askLedger_frame a k p r; rw [h]

@[simp] theorem State.askLedger_egFlows (s : State) (a k : Nat) (p : List Byte) (r : Option Nat) : (s.askLedger a k p r).egFlows = s.egFlows := by
  obtain ⟨_, _, _, _, _, h⟩ := s.askLedger_frame a k p r; rw [h]

@[simp] theorem State.askLedger_buckets (s : State) (a k : Nat) (p : List Byte) (r : Option Nat) : (s.askLedger a k p r).buckets = s.buckets := by
  obtain ⟨_, _, _, _, _, h⟩ := s.askLedger_frame a k p r; rw [h]

@[simp] theorem State.askLedger_local_ (s : State) (a k : Nat) (p : List Byte) (r : Option Nat) : (s.askLedger a k p r).local_ = s.local_ := by
  obtain ⟨_, _, _, _, _, h⟩ := s.askLedger_frame a k p r; rw [h]

@[simp] theorem State.askLedger_cellWait (s : State) (a k : Nat) (p : List Byte) (r : Option Nat) : (s.askLedger a k p r).cellWait = s.cellWait := by
  obtain ⟨_, _, _, _, _, h⟩ := s.askLedger_frame a k p r; rw [h]

@[simp] theorem State.askLedger_notices (s : State) (a k : Nat) (p : List Byte) (r : Option Nat) : (s.askLedger a k p r).notices = s.notices := by
  obtain ⟨_, _, _, _, _, h⟩ := s.askLedger_frame a k p r; rw [h]

@[simp] theorem State.askLedger_heldPkts (s : State) (a k : Nat) (p : List Byte) (r : Option Nat) : (s.askLedger a k p r).heldPkts = s.heldPkts := by
  obtain ⟨_, _, _, _, _, h⟩ := s.askLedger_frame a k p r; rw [h]

@[simp] theorem State.askLedger_unitEvents (s : State) (a k : Nat) (p : List Byte) (r : Option Nat) : (s.askLedger a k p r).unitEvents = s.unitEvents := by
  obtain ⟨_, _, _, _, _, h⟩ := s.askLedger_frame a k p r; rw [h]

@[simp] theorem State.askLedger_nextCast (s : State) (a k : Nat) (p : List Byte) (r : Option Nat) : (s.askLedger a k p r).nextCast = s.nextCast := by
  obtain ⟨_, _, _, _, _, h⟩ := s.askLedger_frame a k p r; rw [h]

@[simp] theorem State.askLedger_bindCount (s : State) (a k : Nat) (p : List Byte) (r : Option Nat) : (s.askLedger a k p r).bindCount = s.bindCount := by
  obtain ⟨_, _, _, _, _, h⟩ := s.askLedger_frame a k p r; rw [h]

@[simp] theorem State.askLedger_instCount (s : State) (a k : Nat) (p : List Byte) (r : Option Nat) : (s.askLedger a k p r).instCount = s.instCount := by
  obtain ⟨_, _, _, _, _, h⟩ := s.askLedger_frame a k p r; rw [h]

@[simp] theorem State.askLedger_topDown (s : State) (a k : Nat) (p : List Byte) (r : Option Nat) : (s.askLedger a k p r).topDown = s.topDown := by
  obtain ⟨_, _, _, _, _, h⟩ := s.askLedger_frame a k p r; rw [h]

@[simp] theorem State.askLedger_waitCmds (s : State) (a k : Nat) (p : List Byte) (r : Option Nat) : (s.askLedger a k p r).waitCmds = s.waitCmds := by
  obtain ⟨_, _, _, _, _, h⟩ := s.askLedger_frame a k p r; rw [h]

@[simp] theorem State.askLedger_restarting (s : State) (a k : Nat) (p : List Byte) (r : Option Nat) : (s.askLedger a k p r).restarting = s.restarting := by
  obtain ⟨_, _, _, _, _, h⟩ := s.askLedger_frame a k p r; rw [h]

@[simp] theorem State.askLedger_verifySlices (s : State) (a k : Nat) (p : List Byte) (r : Option Nat) : (s.askLedger a k p r).verifySlices = s.verifySlices := by
  obtain ⟨_, _, _, _, _, h⟩ := s.askLedger_frame a k p r; rw [h]

@[simp] theorem State.askLedger_groups (s : State) (a k : Nat) (p : List Byte) (r : Option Nat) : (s.askLedger a k p r).groups = s.groups := by
  obtain ⟨_, _, _, _, _, h⟩ := s.askLedger_frame a k p r; rw [h]

@[simp] theorem State.askLedger_slots (s : State) (a k : Nat) (p : List Byte) (r : Option Nat) : (s.askLedger a k p r).slots = s.slots := by
  obtain ⟨_, _, _, _, _, h⟩ := s.askLedger_frame a k p r; rw [h]

@[simp] theorem State.askLedger_bindWaits (s : State) (a k : Nat) (p : List Byte) (r : Option Nat) : (s.askLedger a k p r).bindWaits = s.bindWaits := by
  obtain ⟨_, _, _, _, _, h⟩ := s.askLedger_frame a k p r; rw [h]

@[simp] theorem State.askLedger_insts (s : State) (a k : Nat) (p : List Byte) (r : Option Nat) : (s.askLedger a k p r).insts = s.insts := by
  obtain ⟨_, _, _, _, _, h⟩ := s.askLedger_frame a k p r; rw [h]

@[simp] theorem State.askLedger_banks (s : State) (a k : Nat) (p : List Byte) (r : Option Nat) : (s.askLedger a k p r).banks = s.banks := by
  obtain ⟨_, _, _, _, _, h⟩ := s.askLedger_frame a k p r; rw [h]

@[simp] theorem State.askLedger_retired (s : State) (a k : Nat) (p : List Byte) (r : Option Nat) : (s.askLedger a k p r).retired = s.retired := by
  obtain ⟨_, _, _, _, _, h⟩ := s.askLedger_frame a k p r; rw [h]

@[simp] theorem State.askLedger_spares (s : State) (a k : Nat) (p : List Byte) (r : Option Nat) : (s.askLedger a k p r).spares = s.spares := by
  obtain ⟨_, _, _, _, _, h⟩ := s.askLedger_frame a k p r; rw [h]

@[simp] theorem State.askLedger_symTimes (s : State) (a k : Nat) (p : List Byte) (r : Option Nat) : (s.askLedger a k p r).symTimes = s.symTimes := by
  obtain ⟨_, _, _, _, _, h⟩ := s.askLedger_frame a k p r; rw [h]

@[simp] theorem State.askLedger_ueWords (s : State) (a k : Nat) (p : List Byte) (r : Option Nat) : (s.askLedger a k p r).ueWords = s.ueWords := by
  obtain ⟨_, _, _, _, _, h⟩ := s.askLedger_frame a k p r; rw [h]

@[simp] theorem State.askLedger_retireAsk (s : State) (a k : Nat) (p : List Byte) (r : Option Nat) : (s.askLedger a k p r).retireAsk = s.retireAsk := by
  obtain ⟨_, _, _, _, _, h⟩ := s.askLedger_frame a k p r; rw [h]

@[simp] theorem State.askLedger_recarve (s : State) (a k : Nat) (p : List Byte) (r : Option Nat) : (s.askLedger a k p r).recarve = s.recarve := by
  obtain ⟨_, _, _, _, _, h⟩ := s.askLedger_frame a k p r; rw [h]

@[simp] theorem State.askLedger_outOfService (s : State) (a k : Nat) (p : List Byte) (r : Option Nat) : (s.askLedger a k p r).outOfService = s.outOfService := by
  obtain ⟨_, _, _, _, _, h⟩ := s.askLedger_frame a k p r; rw [h]

@[simp] theorem State.askLedger_cdcOut (s : State) (a k : Nat) (p : List Byte) (r : Option Nat) : (s.askLedger a k p r).cdcOut = s.cdcOut := by
  obtain ⟨_, _, _, _, _, h⟩ := s.askLedger_frame a k p r; rw [h]

@[simp] theorem State.askLedger_dmaCount (s : State) (a k : Nat) (p : List Byte) (r : Option Nat) : (s.askLedger a k p r).dmaCount = s.dmaCount := by
  obtain ⟨_, _, _, _, _, h⟩ := s.askLedger_frame a k p r; rw [h]

@[simp] theorem State.askLedger_ctxs (s : State) (a k : Nat) (p : List Byte) (r : Option Nat) : (s.askLedger a k p r).ctxs = s.ctxs := by
  obtain ⟨_, _, _, _, _, h⟩ := s.askLedger_frame a k p r; rw [h]

@[simp] theorem State.askLedger_coreFenced (s : State) (a k : Nat) (p : List Byte) (r : Option Nat) : (s.askLedger a k p r).coreFenced = s.coreFenced := by
  obtain ⟨_, _, _, _, _, h⟩ := s.askLedger_frame a k p r; rw [h]

@[simp] theorem State.askLedger_rrCtx (s : State) (a k : Nat) (p : List Byte) (r : Option Nat) : (s.askLedger a k p r).rrCtx = s.rrCtx := by
  obtain ⟨_, _, _, _, _, h⟩ := s.askLedger_frame a k p r; rw [h]

@[simp] theorem State.askLedger_programs (s : State) (a k : Nat) (p : List Byte) (r : Option Nat) : (s.askLedger a k p r).programs = s.programs := by
  obtain ⟨_, _, _, _, _, h⟩ := s.askLedger_frame a k p r; rw [h]

@[simp] theorem State.askLedger_mem (s : State) (a k : Nat) (p : List Byte) (r : Option Nat) : (s.askLedger a k p r).mem = s.mem := by
  obtain ⟨_, _, _, _, _, h⟩ := s.askLedger_frame a k p r; rw [h]

@[simp] theorem State.askLedger_memPoison (s : State) (a k : Nat) (p : List Byte) (r : Option Nat) : (s.askLedger a k p r).memPoison = s.memPoison := by
  obtain ⟨_, _, _, _, _, h⟩ := s.askLedger_frame a k p r; rw [h]

@[simp] theorem State.askLedger_memReads (s : State) (a k : Nat) (p : List Byte) (r : Option Nat) : (s.askLedger a k p r).memReads = s.memReads := by
  obtain ⟨_, _, _, _, _, h⟩ := s.askLedger_frame a k p r; rw [h]

@[simp] theorem State.askLedger_nextMemTag (s : State) (a k : Nat) (p : List Byte) (r : Option Nat) : (s.askLedger a k p r).nextMemTag = s.nextMemTag := by
  obtain ⟨_, _, _, _, _, h⟩ := s.askLedger_frame a k p r; rw [h]

@[simp] theorem State.askLedger_ownReqs (s : State) (a k : Nat) (p : List Byte) (r : Option Nat) : (s.askLedger a k p r).ownReqs = s.ownReqs := by
  obtain ⟨_, _, _, _, _, h⟩ := s.askLedger_frame a k p r; rw [h]

@[simp] theorem State.askLedger_ownRsps (s : State) (a k : Nat) (p : List Byte) (r : Option Nat) : (s.askLedger a k p r).ownRsps = s.ownRsps := by
  obtain ⟨_, _, _, _, _, h⟩ := s.askLedger_frame a k p r; rw [h]

@[simp] theorem State.askLedger_scrubPos (s : State) (a k : Nat) (p : List Byte) (r : Option Nat) : (s.askLedger a k p r).scrubPos = s.scrubPos := by
  obtain ⟨_, _, _, _, _, h⟩ := s.askLedger_frame a k p r; rw [h]

@[simp] theorem State.askLedger_scrubClock (s : State) (a k : Nat) (p : List Byte) (r : Option Nat) : (s.askLedger a k p r).scrubClock = s.scrubClock := by
  obtain ⟨_, _, _, _, _, h⟩ := s.askLedger_frame a k p r; rw [h]

@[simp] theorem State.askLedger_scrubMark (s : State) (a k : Nat) (p : List Byte) (r : Option Nat) : (s.askLedger a k p r).scrubMark = s.scrubMark := by
  obtain ⟨_, _, _, _, _, h⟩ := s.askLedger_frame a k p r; rw [h]

@[simp] theorem State.askLedger_refreshes (s : State) (a k : Nat) (p : List Byte) (r : Option Nat) : (s.askLedger a k p r).refreshes = s.refreshes := by
  obtain ⟨_, _, _, _, _, h⟩ := s.askLedger_frame a k p r; rw [h]

@[simp] theorem State.askLedger_streams (s : State) (a k : Nat) (p : List Byte) (r : Option Nat) : (s.askLedger a k p r).streams = s.streams := by
  obtain ⟨_, _, _, _, _, h⟩ := s.askLedger_frame a k p r; rw [h]

@[simp] theorem State.askLedger_streamShadow (s : State) (a k : Nat) (p : List Byte) (r : Option Nat) : (s.askLedger a k p r).streamShadow = s.streamShadow := by
  obtain ⟨_, _, _, _, _, h⟩ := s.askLedger_frame a k p r; rw [h]

@[simp] theorem State.askLedger_runs (s : State) (a k : Nat) (p : List Byte) (r : Option Nat) : (s.askLedger a k p r).runs = s.runs := by
  obtain ⟨_, _, _, _, _, h⟩ := s.askLedger_frame a k p r; rw [h]

@[simp] theorem State.askLedger_sepoch (s : State) (a k : Nat) (p : List Byte) (r : Option Nat) : (s.askLedger a k p r).sepoch = s.sepoch := by
  obtain ⟨_, _, _, _, _, h⟩ := s.askLedger_frame a k p r; rw [h]

@[simp] theorem State.askLedger_streamSwitch (s : State) (a k : Nat) (p : List Byte) (r : Option Nat) : (s.askLedger a k p r).streamSwitch = s.streamSwitch := by
  obtain ⟨_, _, _, _, _, h⟩ := s.askLedger_frame a k p r; rw [h]

@[simp] theorem State.askLedger_streamHeld (s : State) (a k : Nat) (p : List Byte) (r : Option Nat) : (s.askLedger a k p r).streamHeld = s.streamHeld := by
  obtain ⟨_, _, _, _, _, h⟩ := s.askLedger_frame a k p r; rw [h]

@[simp] theorem State.askLedger_streamTurn (s : State) (a k : Nat) (p : List Byte) (r : Option Nat) : (s.askLedger a k p r).streamTurn = s.streamTurn := by
  obtain ⟨_, _, _, _, _, h⟩ := s.askLedger_frame a k p r; rw [h]

@[simp] theorem State.askLedger_eth (s : State) (a k : Nat) (p : List Byte) (r : Option Nat) : (s.askLedger a k p r).eth = s.eth := by
  obtain ⟨_, _, _, _, _, h⟩ := s.askLedger_frame a k p r; rw [h]

@[simp] theorem State.askLedger_ethAddr (s : State) (a k : Nat) (p : List Byte) (r : Option Nat) : (s.askLedger a k p r).ethAddr = s.ethAddr := by
  obtain ⟨_, _, _, _, _, h⟩ := s.askLedger_frame a k p r; rw [h]

@[simp] theorem State.askLedger_dmaIdx (s : State) (a k : Nat) (p : List Byte) (r : Option Nat) : (s.askLedger a k p r).dmaIdx = s.dmaIdx := by
  obtain ⟨_, _, _, _, _, h⟩ := s.askLedger_frame a k p r; rw [h]

@[simp] theorem State.askLedger_dmaRecheck (s : State) (a k : Nat) (p : List Byte) (r : Option Nat) : (s.askLedger a k p r).dmaRecheck = s.dmaRecheck := by
  obtain ⟨_, _, _, _, _, h⟩ := s.askLedger_frame a k p r; rw [h]

@[simp] theorem State.askLedger_msixTable (s : State) (a k : Nat) (p : List Byte) (r : Option Nat) : (s.askLedger a k p r).msixTable = s.msixTable := by
  obtain ⟨_, _, _, _, _, h⟩ := s.askLedger_frame a k p r; rw [h]

@[simp] theorem State.askLedger_pba (s : State) (a k : Nat) (p : List Byte) (r : Option Nat) : (s.askLedger a k p r).pba = s.pba := by
  obtain ⟨_, _, _, _, _, h⟩ := s.askLedger_frame a k p r; rw [h]

@[simp] theorem State.askLedger_mbx (s : State) (a k : Nat) (p : List Byte) (r : Option Nat) : (s.askLedger a k p r).mbx = s.mbx := by
  obtain ⟨_, _, _, _, _, h⟩ := s.askLedger_frame a k p r; rw [h]

@[simp] theorem State.askLedger_mbxImage (s : State) (a k : Nat) (p : List Byte) (r : Option Nat) : (s.askLedger a k p r).mbxImage = s.mbxImage := by
  obtain ⟨_, _, _, _, _, h⟩ := s.askLedger_frame a k p r; rw [h]

@[simp] theorem State.askLedger_stored (s : State) (a k : Nat) (p : List Byte) (r : Option Nat) : (s.askLedger a k p r).stored = s.stored := by
  obtain ⟨_, _, _, _, _, h⟩ := s.askLedger_frame a k p r; rw [h]

@[simp] theorem State.askLedger_hello (s : State) (a k : Nat) (p : List Byte) (r : Option Nat) : (s.askLedger a k p r).hello = s.hello := by
  obtain ⟨_, _, _, _, _, h⟩ := s.askLedger_frame a k p r; rw [h]

@[simp] theorem State.askLedger_grants (s : State) (a k : Nat) (p : List Byte) (r : Option Nat) : (s.askLedger a k p r).grants = s.grants := by
  obtain ⟨_, _, _, _, _, h⟩ := s.askLedger_frame a k p r; rw [h]

@[simp] theorem State.askLedger_stages (s : State) (a k : Nat) (p : List Byte) (r : Option Nat) : (s.askLedger a k p r).stages = s.stages := by
  obtain ⟨_, _, _, _, _, h⟩ := s.askLedger_frame a k p r; rw [h]

@[simp] theorem State.askLedger_recvCount (s : State) (a k : Nat) (p : List Byte) (r : Option Nat) : (s.askLedger a k p r).recvCount = s.recvCount := by
  obtain ⟨_, _, _, _, _, h⟩ := s.askLedger_frame a k p r; rw [h]

@[simp] theorem State.askLedger_errs (s : State) (a k : Nat) (p : List Byte) (r : Option Nat) : (s.askLedger a k p r).errs = s.errs := by
  obtain ⟨_, _, _, _, _, h⟩ := s.askLedger_frame a k p r; rw [h]

@[simp] theorem State.askLedger_rseq (s : State) (a k : Nat) (p : List Byte) (r : Option Nat) : (s.askLedger a k p r).rseq = s.rseq := by
  obtain ⟨_, _, _, _, _, h⟩ := s.askLedger_frame a k p r; rw [h]

@[simp] theorem State.askLedger_dice (s : State) (a k : Nat) (p : List Byte) (r : Option Nat) : (s.askLedger a k p r).dice = s.dice := by
  obtain ⟨_, _, _, _, _, h⟩ := s.askLedger_frame a k p r; rw [h]

@[simp] theorem State.askLedger_trust (s : State) (a k : Nat) (p : List Byte) (r : Option Nat) : (s.askLedger a k p r).trust = s.trust := by
  obtain ⟨_, _, _, _, _, h⟩ := s.askLedger_frame a k p r; rw [h]

@[simp] theorem State.askLedger_cond (s : State) (a k : Nat) (p : List Byte) (r : Option Nat) : (s.askLedger a k p r).cond = s.cond := by
  obtain ⟨_, _, _, _, _, h⟩ := s.askLedger_frame a k p r; rw [h]

@[simp] theorem State.askLedger_ckpts (s : State) (a k : Nat) (p : List Byte) (r : Option Nat) : (s.askLedger a k p r).ckpts = s.ckpts := by
  obtain ⟨_, _, _, _, _, h⟩ := s.askLedger_frame a k p r; rw [h]

@[simp] theorem State.askLedger_pair (s : State) (a k : Nat) (p : List Byte) (r : Option Nat) : (s.askLedger a k p r).pair = s.pair := by
  obtain ⟨_, _, _, _, _, h⟩ := s.askLedger_frame a k p r; rw [h]

@[simp] theorem State.askLedger_agent (s : State) (a k : Nat) (p : List Byte) (r : Option Nat) : (s.askLedger a k p r).agent = s.agent := by
  obtain ⟨_, _, _, _, _, h⟩ := s.askLedger_frame a k p r; rw [h]

@[simp] theorem State.askLedger_power (s : State) (a k : Nat) (p : List Byte) (r : Option Nat) : (s.askLedger a k p r).power = s.power := by
  obtain ⟨_, _, _, _, _, h⟩ := s.askLedger_frame a k p r; rw [h]

@[simp] theorem State.askLedger_phys (s : State) (a k : Nat) (p : List Byte) (r : Option Nat) : (s.askLedger a k p r).phys = s.phys := by
  obtain ⟨_, _, _, _, _, h⟩ := s.askLedger_frame a k p r; rw [h]

@[simp] theorem State.askLedger_mainSince (s : State) (a k : Nat) (p : List Byte) (r : Option Nat) : (s.askLedger a k p r).mainSince = s.mainSince := by
  obtain ⟨_, _, _, _, _, h⟩ := s.askLedger_frame a k p r; rw [h]

@[simp] theorem State.askLedger_cntHeld (s : State) (a k : Nat) (p : List Byte) (r : Option Nat) : (s.askLedger a k p r).cntHeld = s.cntHeld := by
  obtain ⟨_, _, _, _, _, h⟩ := s.askLedger_frame a k p r; rw [h]

@[simp] theorem State.askLedger_linkCnt (s : State) (a k : Nat) (p : List Byte) (r : Option Nat) : (s.askLedger a k p r).linkCnt = s.linkCnt := by
  obtain ⟨_, _, _, _, _, h⟩ := s.askLedger_frame a k p r; rw [h]

@[simp] theorem State.askLedger_ssSeq (s : State) (a k : Nat) (p : List Byte) (r : Option Nat) : (s.askLedger a k p r).ssSeq = s.ssSeq := by
  obtain ⟨_, _, _, _, _, h⟩ := s.askLedger_frame a k p r; rw [h]

@[simp] theorem State.askLedger_ssBusy (s : State) (a k : Nat) (p : List Byte) (r : Option Nat) : (s.askLedger a k p r).ssBusy = s.ssBusy := by
  obtain ⟨_, _, _, _, _, h⟩ := s.askLedger_frame a k p r; rw [h]

@[simp] theorem State.askLedger_ssSkippedBefore (s : State) (a k : Nat) (p : List Byte) (r : Option Nat) : (s.askLedger a k p r).ssSkippedBefore = s.ssSkippedBefore := by
  obtain ⟨_, _, _, _, _, h⟩ := s.askLedger_frame a k p r; rw [h]

@[simp] theorem State.askLedger_ssRecord (s : State) (a k : Nat) (p : List Byte) (r : Option Nat) : (s.askLedger a k p r).ssRecord = s.ssRecord := by
  obtain ⟨_, _, _, _, _, h⟩ := s.askLedger_frame a k p r; rw [h]

@[simp] theorem State.askLedger_ssPending (s : State) (a k : Nat) (p : List Byte) (r : Option Nat) : (s.askLedger a k p r).ssPending = s.ssPending := by
  obtain ⟨_, _, _, _, _, h⟩ := s.askLedger_frame a k p r; rw [h]

@[simp] theorem State.askLedger_mismatchHours (s : State) (a k : Nat) (p : List Byte) (r : Option Nat) : (s.askLedger a k p r).mismatchHours = s.mismatchHours := by
  obtain ⟨_, _, _, _, _, h⟩ := s.askLedger_frame a k p r; rw [h]

@[simp] theorem State.askLedger_ledger (s : State) (a k : Nat) (p : List Byte) (r : Option Nat) :
    (s.askLedger a k p r).ledger = { s.ledger with queue := s.ledger.queue ++ [CommitReq.mk a k p r 0] } := by
  obtain ⟨_, _, _, _, h, g⟩ := s.askLedger_frame a k p r
  rw [g, h]

theorem State.askLedger_rd (s : State) (a k : Nat) (p : List Byte) (r : Option Nat) (f : Fld) (j : Nat)
    (hr : f.reg ≠ .cntSel) (hj : j < 2 ^ 20) : (s.askLedger a k p r).rd f j = s.rd f j := by
  simp only [State.askLedger]
  split
  · rfl
  · rw [State.ev_rd _ _ _ _ _ _ hr hj (by decide)]; rfl

end Sys2Proof.Machine
end

