-- ==== Sys2Proof/Laws/Err.lean ====
section
/-! SUPPORT. What an error record and the evaluation of a detector can change (17): the ring, the counters, the ledger's queue and
interrupt 44, and, for a fatal record, what 17 R414 stops. Everything else keeps its value. -/

namespace Sys2Proof.Machine

/-- The two states differ in nothing but the error ring, registers, counters, the ledger, the interrupt outputs, the loaded dice
and what a fatal record stops. -/
structure ErrStep (s t : State) : Prop where
  pending : t.pending = s.pending
  now : t.now = s.now
  tick : t.tick = s.tick
  plane : t.plane = s.plane
  tray : t.tray = s.tray
  plan : t.plan = s.plan
  planLive : t.planLive = s.planLive
  planHash : t.planHash = s.planHash
  ports : t.ports = s.ports
  lanes : t.lanes = s.lanes
  tx : t.tx = s.tx
  lines : t.lines = s.lines
  rx : t.rx = s.rx
  inq : t.inq = s.inq
  outq : t.outq = s.outq
  vcbuf : t.vcbuf = s.vcbuf
  qcharge : t.qcharge = s.qcharge
  shared : t.shared = s.shared
  arb : t.arb = s.arb
  tables : t.tables = s.tables
  shadow : t.shadow = s.shadow
  escVia : t.escVia = s.escVia
  lfsr : t.lfsr = s.lfsr
  inFlows : t.inFlows = s.inFlows
  egFlows : t.egFlows = s.egFlows
  buckets : t.buckets = s.buckets
  local_ : t.local_ = s.local_
  cellWait : t.cellWait = s.cellWait
  notices : t.notices = s.notices
  heldPkts : t.heldPkts = s.heldPkts
  unitEvents : t.unitEvents = s.unitEvents
  nextCast : t.nextCast = s.nextCast
  bindCount : t.bindCount = s.bindCount
  instCount : t.instCount = s.instCount
  topDown : t.topDown = s.topDown
  waitCmds : t.waitCmds = s.waitCmds
  restarting : t.restarting = s.restarting
  verifySlices : t.verifySlices = s.verifySlices
  groups : t.groups = s.groups
  slots : t.slots = s.slots
  bindWaits : t.bindWaits = s.bindWaits
  insts : t.insts = s.insts
  banks : t.banks = s.banks
  retired : t.retired = s.retired
  spares : t.spares = s.spares
  symTimes : t.symTimes = s.symTimes
  ueWords : t.ueWords = s.ueWords
  retireAsk : t.retireAsk = s.retireAsk
  recarve : t.recarve = s.recarve
  outOfService : t.outOfService = s.outOfService
  cdcOut : t.cdcOut = s.cdcOut
  dmaCount : t.dmaCount = s.dmaCount
  coreFenced : t.coreFenced = s.coreFenced
  rrCtx : t.rrCtx = s.rrCtx
  programs : t.programs = s.programs
  mem : t.mem = s.mem
  memPoison : t.memPoison = s.memPoison
  memReads : t.memReads = s.memReads
  nextMemTag : t.nextMemTag = s.nextMemTag
  ownReqs : t.ownReqs = s.ownReqs
  ownRsps : t.ownRsps = s.ownRsps
  scrubPos : t.scrubPos = s.scrubPos
  scrubClock : t.scrubClock = s.scrubClock
  scrubMark : t.scrubMark = s.scrubMark
  refreshes : t.refreshes = s.refreshes
  streams : t.streams = s.streams
  streamShadow : t.streamShadow = s.streamShadow
  sepoch : t.sepoch = s.sepoch
  streamSwitch : t.streamSwitch = s.streamSwitch
  streamHeld : t.streamHeld = s.streamHeld
  streamTurn : t.streamTurn = s.streamTurn
  eth : t.eth = s.eth
  ethAddr : t.ethAddr = s.ethAddr
  dmaIdx : t.dmaIdx = s.dmaIdx
  dmaRecheck : t.dmaRecheck = s.dmaRecheck
  msixTable : t.msixTable = s.msixTable
  mbx : t.mbx = s.mbx
  mbxImage : t.mbxImage = s.mbxImage
  stored : t.stored = s.stored
  hello : t.hello = s.hello
  grants : t.grants = s.grants
  stages : t.stages = s.stages
  recvCount : t.recvCount = s.recvCount
  trust : t.trust = s.trust
  cond : t.cond = s.cond
  ckpts : t.ckpts = s.ckpts
  pair : t.pair = s.pair
  agent : t.agent = s.agent
  power : t.power = s.power
  mainSince : t.mainSince = s.mainSince
  cntHeld : t.cntHeld = s.cntHeld
  linkCnt : t.linkCnt = s.linkCnt
  ssSeq : t.ssSeq = s.ssSeq
  ssBusy : t.ssBusy = s.ssBusy
  ssSkippedBefore : t.ssSkippedBefore = s.ssSkippedBefore
  ssRecord : t.ssRecord = s.ssRecord
  ssPending : t.ssPending = s.ssPending
  mismatchHours : t.mismatchHours = s.mismatchHours

theorem ErrStep.refl (s : State) : ErrStep s s := by constructor <;> rfl

theorem ErrStep.trans {s t u : State} (h : ErrStep s t) (g : ErrStep t u) : ErrStep s u :=
  ⟨g.pending.trans h.pending, g.now.trans h.now, g.tick.trans h.tick, g.plane.trans h.plane, g.tray.trans h.tray, g.plan.trans h.plan, g.planLive.trans h.planLive, g.planHash.trans h.planHash, g.ports.trans h.ports, g.lanes.trans h.lanes, g.tx.trans h.tx, g.lines.trans h.lines, g.rx.trans h.rx, g.inq.trans h.inq, g.outq.trans h.outq, g.vcbuf.trans h.vcbuf, g.qcharge.trans h.qcharge, g.shared.trans h.shared, g.arb.trans h.arb, g.tables.trans h.tables, g.shadow.trans h.shadow, g.escVia.trans h.escVia, g.lfsr.trans h.lfsr, g.inFlows.trans h.inFlows, g.egFlows.trans h.egFlows, g.buckets.trans h.buckets, g.local_.trans h.local_, g.cellWait.trans h.cellWait, g.notices.trans h.notices, g.heldPkts.trans h.heldPkts, g.unitEvents.trans h.unitEvents, g.nextCast.trans h.nextCast, g.bindCount.trans h.bindCount, g.instCount.trans h.instCount, g.topDown.trans h.topDown, g.waitCmds.trans h.waitCmds, g.restarting.trans h.restarting, g.verifySlices.trans h.verifySlices, g.groups.trans h.groups, g.slots.trans h.slots, g.bindWaits.trans h.bindWaits, g.insts.trans h.insts, g.banks.trans h.banks, g.retired.trans h.retired, g.spares.trans h.spares, g.symTimes.trans h.symTimes, g.ueWords.trans h.ueWords, g.retireAsk.trans h.retireAsk, g.recarve.trans h.recarve, g.outOfService.trans h.outOfService, g.cdcOut.trans h.cdcOut, g.dmaCount.trans h.dmaCount, g.coreFenced.trans h.coreFenced, g.rrCtx.trans h.rrCtx, g.programs.trans h.programs, g.mem.trans h.mem, g.memPoison.trans h.memPoison, g.memReads.trans h.memReads, g.nextMemTag.trans h.nextMemTag, g.ownReqs.trans h.ownReqs, g.ownRsps.trans h.ownRsps, g.scrubPos.trans h.scrubPos, g.scrubClock.trans h.scrubClock, g.scrubMark.trans h.scrubMark, g.refreshes.trans h.refreshes, g.streams.trans h.streams, g.streamShadow.trans h.streamShadow, g.sepoch.trans h.sepoch, g.streamSwitch.trans h.streamSwitch, g.streamHeld.trans h.streamHeld, g.streamTurn.trans h.streamTurn, g.eth.trans h.eth, g.ethAddr.trans h.ethAddr, g.dmaIdx.trans h.dmaIdx, g.dmaRecheck.trans h.dmaRecheck, g.msixTable.trans h.msixTable, g.mbx.trans h.mbx, g.mbxImage.trans h.mbxImage, g.stored.trans h.stored, g.hello.trans h.hello, g.grants.trans h.grants, g.stages.trans h.stages, g.recvCount.trans h.recvCount, g.trust.trans h.trust, g.cond.trans h.cond, g.ckpts.trans h.ckpts, g.pair.trans h.pair, g.agent.trans h.agent, g.power.trans h.power, g.mainSince.trans h.mainSince, g.cntHeld.trans h.cntHeld, g.linkCnt.trans h.linkCnt, g.ssSeq.trans h.ssSeq, g.ssBusy.trans h.ssBusy, g.ssSkippedBefore.trans h.ssSkippedBefore, g.ssRecord.trans h.ssRecord, g.ssPending.trans h.ssPending, g.mismatchHours.trans h.mismatchHours⟩

theorem State.wr_errStep (s : State) (f : Fld) (n i : Nat) : ErrStep s (s.wr f n i) := by constructor <;> rfl

theorem State.addSat_errStep (s : State) (f : Fld) (n i : Nat) : ErrStep s (s.addSat f n i) := by constructor <;> rfl

theorem State.bump_errStep (s : State) (i n : Nat) : ErrStep s (s.bump i n) := by constructor <;> rfl

theorem State.ev_errStep (s : State) (u e n : Nat) : ErrStep s (s.ev u e n) := by
  obtain ⟨_, _, h⟩ := s.ev_frame u e n
  rw [h]
  constructor <;> rfl

theorem State.irq_errStep (s : State) (v : Nat) : ErrStep s (s.irq v) := by
  obtain ⟨_, _, _, _, h⟩ := s.irq_frame v
  rw [h]
  constructor <;> rfl

theorem State.askLedger_errStep (s : State) (a k : Nat) (p : List Byte) (r : Option Nat) : ErrStep s (s.askLedger a k p r) := by
  obtain ⟨_, _, _, _, _, h⟩ := s.askLedger_frame a k p r
  rw [h]
  constructor <;> rfl

theorem State.putErr_errStep (s : State) (i : Nat) (r : ErrRec) : ErrStep s (s.putErr i r) := by constructor <;> rfl

theorem State.modErr_errStep (s : State) (i : Nat) (g : ErrRec → ErrRec) : ErrStep s (s.modErr i g) := by
  simp only [State.modErr]
  split
  · exact s.putErr_errStep _ _
  · exact .refl s

/-- An optional step. -/
theorem State.onlyIf_errStep (s : State) (c : Bool) (f : State → State) (h : ErrStep s (f s)) : ErrStep s (s.onlyIf c f) := by
  simp only [State.onlyIf]
  split
  · exact h
  · exact .refl s

/-- A step taken for each of a list. -/
theorem State.each_errStep (ks : List Nat) (f : State → Nat → State) (h : ∀ s k, ErrStep s (f s k)) (s : State) :
    ErrStep s (s.each ks f) := by
  simp only [State.each]
  induction ks generalizing s with
  | nil => exact .refl s
  | cons k ks ih => exact (h s k).trans (ih (f s k))

theorem State.ringPut_errStep (s : State) (r : ErrRec) : ErrStep s (s.ringPut r) := by
  simp only [State.ringPut]
  split
  · exact s.addSat_errStep _ _ _
  · split
    · exact ((s.onlyIf_errStep _ _ (s.addSat_errStep _ _ _)).trans (State.putErr_errStep _ _ _)).trans (State.wr_errStep _ _ _ _)
    · split
      · exact (s.addSat_errStep _ _ _).trans (State.putErr_errStep _ _ _)
      · exact s.addSat_errStep _ _ _

theorem State.endRunsFree_errStep (s : State) : ErrStep s s.endRunsFree := by constructor <;> rfl

theorem State.setCtxs_errStep (s : State) (c : Tab PipCtx) : ErrStep s { s with ctxs := c } := by constructor <;> rfl

theorem State.setPhys_errStep (s : State) (p : Physical) : ErrStep s { s with phys := p } := by constructor <;> rfl

theorem State.setDice_errStep (s : State) (d : List Die) : ErrStep s { s with dice := d } := by constructor <;> rfl

theorem State.fatalStop_errStep (s : State) : ErrStep s s.fatalStop := by
  unfold State.fatalStop
  exact ((((s.setPhys_errStep _).trans (State.wr_errStep _ _ _ _)).trans
    (State.each_errStep (List.range 8) (fun s k => s.wr F.ethStatLink 0 k) (fun s k => s.wr_errStep _ _ _) _)).trans
    (State.setCtxs_errStep _ _)).trans (State.endRunsFree_errStep _)

theorem State.newRecord_errStep (s : State) (r : ErrRec) : ErrStep s (s.newRecord r) := by
  have h1 : ErrStep s { s with rseq := s.rseq + 1 } := by constructor <;> rfl
  have h2 := fun r => h1.trans ((State.ringPut_errStep _ r).trans (State.bump_errStep _ (32 + r.sev) 1))
  have h3 : ∀ (t : State), ErrStep t { t with ledger := { t.ledger with runError := t.ledger.runError + 1 } } := fun t =>
    by constructor <;> rfl
  simp only [State.newRecord]
  split
  · split
    · exact (((h2 _).trans ((State.irq_errStep _ _).trans (State.askLedger_errStep _ _ _ _ _))).trans
        (State.onlyIf_errStep _ _ _ (h3 _))).trans (State.fatalStop_errStep _)
    · exact ((h2 _).trans (State.onlyIf_errStep _ _ _ (h3 _))).trans (State.fatalStop_errStep _)
  · split
    · exact ((h2 _).trans ((State.irq_errStep _ _).trans (State.askLedger_errStep _ _ _ _ _))).trans
        (State.onlyIf_errStep _ _ _ (h3 _))
    · exact (h2 _).trans (State.onlyIf_errStep _ _ _ (h3 _))

/-- Everything a detection can change. -/
theorem State.raise_errStep (s : State) (code inst info info2 : Nat) (cause : Option Nat) (inj : Bool) (sev : Nat) :
    ErrStep s (s.raise code inst info info2 cause inj sev) := by
  simp only [State.raise]
  split
  · exact s.newRecord_errStep _
  · split
    · exact s.modErr_errStep _ _
    · split
      · exact (s.onlyIf_errStep _ _ (s.modErr_errStep _ _)).trans (State.newRecord_errStep _ _)
      · exact s.newRecord_errStep _

/-- Everything the evaluation of a detector can change. -/
theorem State.evaluate_errStep (s : State) (code inst : Nat) (real : Bool) : ErrStep s (s.evaluate code inst real).1 := by
  unfold State.evaluate
  split
  · exact .refl s
  · simp only [State.onlyIf]
    split
    · exact ((s.setDice_errStep _).trans (State.addSat_errStep _ _ _ _)).trans (State.wr_errStep _ _ _ _)
    · exact s.setDice_errStep _

/-- Everything the check of a detector can change. -/
theorem State.check_errStep (s : State) (code inst : Nat) (real : Bool) (info info2 : Nat) (cause : Option Nat) :
    ErrStep s (s.check code inst real info info2 cause).1 := by
  simp only [State.check]
  split
  · exact (s.evaluate_errStep _ _ _).trans (State.raise_errStep _ _ _ _ _ _ _ _)
  · exact s.evaluate_errStep _ _ _

/-- With no die loaded a detector answers what is so, and nothing else happens (17 R425). -/
theorem State.evaluate_noDice (s : State) (code inst : Nat) (real : Bool) (h : s.dice = []) :
    s.evaluate code inst real = (s, real, false) := by simp [State.evaluate, h]

theorem State.check_noDice (s : State) (code inst : Nat) (real : Bool) (info info2 : Nat) (cause : Option Nat) (h : s.dice = []) :
    s.check code inst real info info2 cause = if real then (s.raise code inst info info2 cause, true) else (s, false) := by
  simp [State.check, State.evaluate_noDice _ _ _ _ h]

end Sys2Proof.Machine
end

