-- ==== Sys2Proof/Laws/Mbx.lean ====
section
/-! SUPPORT. What raising an interrupt changes, and what completing a mailbox command does (13 R311, R312, R316, R330). -/

namespace Sys2Proof.Machine

/-! ## Interrupts -/

/-- A message or a pending bit: nothing else but counts. -/
theorem State.msix_counted (s : State) (v : Nat) : CountedIrq s (s.msix v) := by
  simp only [State.msix]
  split
  · exact ⟨⟨s.regs, s.cnt, s.pba ||| (1 <<< v), [], by rw [List.append_nil]⟩, fun _ _ _ _ => rfl⟩
  · refine ⟨?_, ?_⟩
    · obtain ⟨r, c, h⟩ := (s.emit (.msix v)).ev_frame U.hub 0x06 1
      exact ⟨r, c, s.pba, [.msix v], by rw [h]; rfl⟩
    · intro r j hr hj
      rw [State.ev_reg _ _ _ _ _ _ (by simp at hr; exact hr.1) hj (by decide)]
      rfl

theorem CountedIrq.trans {s t u : State} (h : CountedIrq s t) (g : CountedIrq t u) : CountedIrq s u := by
  obtain ⟨⟨r, c, b, o, h1⟩, h2⟩ := h
  obtain ⟨⟨r', c', b', o', g1⟩, g2⟩ := g
  exact ⟨⟨r', c', b', o ++ o', by rw [g1, h1]; simp⟩, fun r j hr hj => (g2 r j hr hj).trans (h2 r j hr hj)⟩

/-- Raising a vector changes HUB_IRQ_STAT, the PBA, what is sent, and counters. -/
theorem State.irq_counted (s : State) (v : Nat) : CountedIrq s (s.irq v) := by
  have base : CountedIrq s (s.setReg .hubIrqStat 0 (s.reg .hubIrqStat 0 ||| (1 <<< v))) := by
    refine ⟨⟨_, s.cnt, s.pba, [], by simp [State.setReg]; rfl⟩, ?_⟩
    intro r j hr hj
    exact State.reg_setReg_ne _ _ _ _ _ _ (Reg.key_ne (by simp at hr; exact hr.2) hj (by decide))
  simp only [State.irq]
  split
  · exact ⟨⟨s.regs, s.cnt, s.pba, [], by simp⟩, fun _ _ _ _ => rfl⟩
  · split
    · exact base
    · exact base.trans (State.msix_counted _ _)

/-! ## Mailboxes -/

theorem State.mbxOf_putMbxOf (s : State) (k : Nat) (x : MbxSt) (j : Nat) :
    (s.putMbxOf k x).mbxOf j = if j = k then x else s.mbxOf j := Tab.getD_setD ..

/-- The state is `u` but for the ends of mailbox commands: records, images, registers of mailboxes and interrupts, what is sent. -/
def MbxFrame (u t : State) : Prop :=
  (∃ mx im rg o pb c, t = { u with mbx := mx, mbxImage := im, regs := rg, out := u.out ++ o, pba := pb, cnt := c }) ∧
  SameRegs u t [.cntSel, .hubIrqStat, .hubMbxCtl]

theorem MbxFrame.refl (s : State) : MbxFrame s s :=
  ⟨⟨s.mbx, s.mbxImage, s.regs, [], s.pba, s.cnt, by simp⟩, fun _ _ _ _ => rfl⟩

theorem MbxFrame.trans {s t u : State} (h : MbxFrame s t) (g : MbxFrame t u) : MbxFrame s u := by
  obtain ⟨⟨m, i, r, o, b, c, h1⟩, h2⟩ := h
  obtain ⟨⟨m', i', r', o', b', c', g1⟩, g2⟩ := g
  exact ⟨⟨m', i', r', o ++ o', b', c', by rw [g1, h1]; simp⟩, fun r j hr hj => (g2 r j hr hj).trans (h2 r j hr hj)⟩

theorem CountedIrq.mbxFrame {s t : State} (h : CountedIrq s t) : MbxFrame s t := by
  obtain ⟨⟨r, c, b, o, h1⟩, h2⟩ := h
  refine ⟨⟨s.mbx, s.mbxImage, r, o, b, c, by rw [h1]⟩, fun r j hr hj => h2 r j ?_ hj⟩
  simp only [List.mem_cons, List.not_mem_nil, or_false, not_or] at hr ⊢
  exact ⟨hr.1, hr.2.1⟩

theorem State.putMbxBytes_mbxFrame (s : State) (m o : Nat) (bs : List Byte) : MbxFrame s (s.putMbxBytes m o bs) :=
  ⟨⟨s.mbx, _, s.regs, [], s.pba, s.cnt, by simp [State.putMbxBytes]; rfl⟩, fun _ _ _ _ => rfl⟩

theorem State.putMbxOf_mbxFrame (s : State) (k : Nat) (x : MbxSt) : MbxFrame s (s.putMbxOf k x) :=
  ⟨⟨_, s.mbxImage, s.regs, [], s.pba, s.cnt, by simp [State.putMbxOf]; rfl⟩, fun _ _ _ _ => rfl⟩

theorem State.wrMbxCtl_mbxFrame (s : State) (f : Fld) (n k : Nat) (hf : f.reg = .hubMbxCtl) (hk : k < 2 ^ 20) :
    MbxFrame s (s.wr f n k) := by
  refine ⟨⟨s.mbx, s.mbxImage, _, [], s.pba, s.cnt, by simp [State.wr, State.setReg]; rfl⟩, ?_⟩
  intro r j hr hj
  refine State.reg_setReg_ne _ _ _ _ _ _ (Reg.key_ne ?_ hj hk)
  rw [hf]
  simp only [List.mem_cons, List.not_mem_nil, or_false, not_or] at hr
  exact hr.2.2

/-- The image and record of a host mailbox that ends, before its vector. -/
theorem State.mbxHost_frame (s : State) (k : Nat) (x : MbxSt) (a b c : List Byte) (hk : k < 32) (t : State)
    (ht : t = (((((s.putMbxBytes k 14 a).putMbxBytes k 32 b).putMbxBytes k 64 c).putMbxOf k x).wr F.hubMbxCtlState x.state k).wr
      F.hubMbxCtlOwn 0 k) : MbxFrame s t ∧ ∀ j, t.mbxOf j = if j = k then x else s.mbxOf j := by
  have f1 := ((s.putMbxBytes_mbxFrame k 14 a).trans (State.putMbxBytes_mbxFrame _ k 32 b)).trans (State.putMbxBytes_mbxFrame _ k 64 c)
  have m1 : ∀ j, (((s.putMbxBytes k 14 a).putMbxBytes k 32 b).putMbxBytes k 64 c).mbxOf j = s.mbxOf j := fun _ => rfl
  generalize ((s.putMbxBytes k 14 a).putMbxBytes k 32 b).putMbxBytes k 64 c = u at ht f1 m1
  have f2 := f1.trans (u.putMbxOf_mbxFrame k x)
  have m2 : ∀ j, (u.putMbxOf k x).mbxOf j = if j = k then x else s.mbxOf j := fun j => by
    rw [State.mbxOf_putMbxOf, m1]
  generalize u.putMbxOf k x = v at ht f2 m2
  have f3 := (f2.trans (v.wrMbxCtl_mbxFrame F.hubMbxCtlState x.state k rfl (by omega))).trans
    (State.wrMbxCtl_mbxFrame _ F.hubMbxCtlOwn 0 k rfl (by omega))
  subst ht
  exact ⟨f3, m2⟩

/-- A mailbox's end: that mailbox's record, and the frame. -/
theorem State.mbxEnd_frame (s : State) (k : Nat) (x : MbxSt) :
    (s.mbxEnd k x).mbxOf k = x ∧ (∀ j, j ≠ k → (s.mbxEnd k x).mbxOf j = s.mbxOf j) ∧ MbxFrame s (s.mbxEnd k x) := by
  have irqm : ∀ (t : State) v j, (t.irq v).mbxOf j = t.mbxOf j := fun t v j => by
    obtain ⟨_, _, _, _, h⟩ := t.irq_frame v; rw [h]; rfl
  by_cases hk : k < 32
  · obtain ⟨t, ht⟩ : ∃ t, t = (((((s.putMbxBytes k 14 (leBytes 2 x.rsp.length ++ leBytes 2 x.status ++ leBytes 2 x.detail)).putMbxBytes
        k 32 (leBytes 8 x.doneTime)).putMbxBytes k 64 x.rsp).putMbxOf k x).wr F.hubMbxCtlState x.state k).wr F.hubMbxCtlOwn 0 k := ⟨_, rfl⟩
    have e : s.mbxEnd k x = if t.flag F.hubMbxCtlIrqEn k then t.irq k else t := by
      subst ht
      simp [State.mbxEnd, State.setMbx, State.mbxSay, hk]
    obtain ⟨fr, mx⟩ := s.mbxHost_frame k x _ _ _ hk t ht
    rw [e]
    split
    · refine ⟨?_, fun j hj => ?_, fr.trans (State.irq_counted _ _).mbxFrame⟩
      · rw [irqm, mx]; simp
      · rw [irqm, mx]; simp [hj]
    · exact ⟨by rw [mx]; simp, fun j hj => by rw [mx]; simp [hj], fr⟩
  · have e : s.mbxEnd k x = (s.putMbxOf k x).emit (.mbxMsg (keyMbx k) x.seq x.req.token x.state x.status x.detail x.rsp) := by
      simp [State.mbxEnd, State.setMbx, State.mbxSay, hk, State.mbxOf_putMbxOf]
    rw [e]
    refine ⟨?_, fun j hj => ?_, (State.putMbxOf_mbxFrame s k x).trans
      ⟨⟨_, _, _, [.mbxMsg (keyMbx k) x.seq x.req.token x.state x.status x.detail x.rsp], _, _, rfl⟩, fun _ _ _ _ => rfl⟩⟩
    · exact (State.mbxOf_putMbxOf ..).trans (if_pos rfl)
    · exact (State.mbxOf_putMbxOf ..).trans (if_neg hj)

/-- DONE: what the answer to an accepted mailbox command is. -/
theorem State.complete_answered (s : State) (mb : MbxRef) (status : Nat) (rsp : List Byte) (detail : Nat)
    (h : (s.mbxOf (mbxKey mb)).state = 2) : Answered mb status detail rsp s (s.complete mb status rsp detail) := by
  obtain ⟨m1, m2, ⟨mx, im, rg, o, pb, c, m3⟩, m4⟩ := s.mbxEnd_frame (mbxKey mb)
    { s.mbxOf (mbxKey mb) with state := 4, status := status, detail := detail, rsp := rsp.take 4032, doneTime := s.rackTime }
  simp only [State.complete, h, ne_eq, not_true_eq_false, if_false]
  generalize s.mbxEnd (mbxKey mb) { s.mbxOf (mbxKey mb) with
    state := 4, status := status, detail := detail, rsp := rsp.take 4032, doneTime := s.rackTime } = t at m1 m2 m3 m4
  split
  · refine ⟨by rw [m1], by rw [m1], by rw [m1], by rw [m1], m2, ⟨mx, im, rg, o, pb, c, s.stored, by rw [m3]⟩, m4⟩
  · refine ⟨?_, ?_, ?_, ?_, fun k hk => m2 k hk, ⟨mx, im, rg, o, pb, c, _, by rw [m3]⟩, m4⟩
    · exact (congrArg MbxSt.state m1)
    · exact (congrArg MbxSt.status m1)
    · exact (congrArg MbxSt.detail m1)
    · exact (congrArg MbxSt.rsp m1)

/-- A request that its row runs now stands in its mailbox, accepted. -/
theorem State.ready_request {s : State} {mb : MbxRef} {op : Nat} {x : MbxSt} (h : s.ready? mb op = some x) :
    x = s.mbxOf (mbxKey mb) ∧ x.state = 2 ∧ x.req.opcode = op ∧ mb.idx < setSize mb.set := by
  simp only [State.ready?, State.request?] at h
  split at h
  · cases h
  · rename_i y hy
    split at hy
    · cases hy
      rename_i hc
      simp only [Bool.and_eq_true, decide_eq_true_eq] at hc
      split at h
      · cases h
      · split at h
        · cases h
        · cases h
          exact ⟨rfl, hc.1.2, hc.2, hc.1.1⟩
    · cases hy

/-- A row that answers its request at once. -/
theorem State.rcs_complete {s : State} {mb : MbxRef} {op : Nat} {x : MbxSt} (h : s.ready? mb op = some x)
    (f : State → MbxSt → State) : s.rcs mb op f = f s x := by
  simp [State.rcs, h]

end Sys2Proof.Machine
end

