-- ==== Sys2Proof/Laws/Mem.lean ====
section
/-! SUPPORT. Fabric memory: a read after a write, and the canonical form, which every memory operation keeps (10 R239, R242). -/

namespace Sys2Proof.Machine

theorem Memory.wf_nil : Memory.wf [] = true := rfl

theorem Memory.read_write (m : List Host.Cell) (a c : Nat) (b : Byte) :
    Memory.read (Memory.write m a b) c = if c = a then b else Memory.read m c := Tab.getD_setD ..

theorem Memory.wf_write {m : List Host.Cell} (a : Nat) (b : Byte) (h : Memory.wf m = true) :
    Memory.wf (Memory.write m a b) = true := Tab.wf_setD h

theorem Memory.wf_writes {m : List Host.Cell} (a : Nat) (bs : List Byte) (h : Memory.wf m = true) :
    Memory.wf (Memory.writes m a bs) = true := by
  induction bs generalizing m a with
  | nil => exact h
  | cons b bs ih => exact ih (a + 1) (Memory.wf_write a b h)

/-- Bytes below the written range read as before. -/
theorem Memory.read_writes_below (m : List Host.Cell) (a c : Nat) (bs : List Byte) (h : c < a) :
    Memory.read (Memory.writes m a bs) c = Memory.read m c := by
  induction bs generalizing m a with
  | nil => rfl
  | cons b bs ih =>
    rw [Memory.writes, ih _ (a + 1) (by omega), Memory.read_write, if_neg (by omega)]

/-- A read after a write of several bytes: the byte written in the range, the old one outside it. -/
theorem Memory.read_writes (m : List Host.Cell) (a c : Nat) (bs : List Byte) :
    Memory.read (Memory.writes m a bs) c = if a ≤ c ∧ c < a + bs.length then bs.getD (c - a) 0 else Memory.read m c := by
  induction bs generalizing m a with
  | nil => rw [if_neg (by simp only [List.length_nil]; omega)]; rfl
  | cons b bs ih =>
    by_cases hc : c = a
    · subst hc
      rw [Memory.writes, Memory.read_writes_below _ _ _ _ (by omega), Memory.read_write, if_pos rfl,
        if_pos ⟨Nat.le_refl _, by simp only [List.length_cons]; omega⟩, Nat.sub_self]
      rfl
    · rw [Memory.writes, ih, Memory.read_write, if_neg hc]
      by_cases h : a + 1 ≤ c ∧ c < a + 1 + bs.length
      · rw [if_pos h, if_pos ⟨by omega, by simp only [List.length_cons]; omega⟩]
        obtain ⟨k, hk⟩ : ∃ k, c = a + 1 + k := ⟨c - (a + 1), by omega⟩
        subst hk
        rw [show a + 1 + k - (a + 1) = k by omega, show a + 1 + k - a = k + 1 by omega]
        rfl
      · rw [if_neg h, if_neg (by simp only [List.length_cons]; omega)]

/-- A range of memory is a canonical memory. -/
theorem Memory.wf_range {m : List Host.Cell} (a n : Nat) (h : Memory.wf m = true) : Memory.wf (Memory.range m a n) = true := by
  obtain ⟨h1, h2⟩ := (Tab.wf_iff 0 m).mp h
  exact (Tab.wf_iff 0 _).mpr ⟨fun e he => h1 e (List.mem_filter.mp he).1, h2.sublist (List.filter_sublist ..)⟩

/-- Storing a word keeps the canonical form, and its bytes read back. -/
theorem State.putMemWord_wf (s : State) (w : Nat) (f : Flit) (p : Bool) (h : Memory.wf s.mem = true) :
    Memory.wf (s.putMemWord w f p).mem = true := by
  unfold State.putMemWord
  generalize flitBytes f = bs
  exact Memory.wf_writes (64 * w) bs h

theorem State.poisonMemWord_mem (s : State) (w : Nat) : (s.poisonMemWord w).mem = s.mem := by
  unfold State.poisonMemWord; split <;> rfl

theorem State.reset_mem_wf : Memory.wf State.reset.mem = true := rfl

end Sys2Proof.Machine
end

