-- ==== Sys2Proof/Laws/Pip.lean ====
section
/-! SUPPORT. What an issued instruction does (08 R184): the issue itself, and the two ways it ends without an exception. -/

namespace Sys2Proof.Machine

/-- Counting is counting. -/
theorem State.ev_counted (s : State) (u e n : Nat) (hu : u < 2 ^ 16) : Counted s (s.ev u e n) := by
  refine ⟨s.ev_frame u e n, ?_⟩
  intro r j hr hj
  exact s.ev_reg u e n r j (by simpa using hr) hj hu

theorem Counted.refl (s : State) : Counted s s := ⟨⟨s.regs, s.cnt, rfl⟩, fun _ _ _ _ => rfl⟩

theorem Counted.trans {s t u : State} (h : Counted s t) (g : Counted t u) : Counted s u := by
  obtain ⟨⟨r, c, h1⟩, h2⟩ := h
  obtain ⟨⟨r', c', g1⟩, g2⟩ := g
  exact ⟨⟨r', c', by rw [g1, h1]⟩, fun r j hr hj => (g2 r j hr hj).trans (h2 r j hr hj)⟩

/-- An instruction that may be issued is issued: no die fires at its fetch. -/
theorem State.issue_eq {s : State} {i : Instr} {x : CtxId} (h : Issuable i x s) (f : State → CtxId → PipCtx → Bool → State) :
    ∃ w, xoWord i = some (x, w) ∧
      s.issue i f = f { s with rrCtx := s.rrCtx.setD x.core 0 x.ctx } x (s.ctx (ctxNum x)) (xoVector w) := by
  obtain ⟨⟨w, hw, hc⟩, hl, h1, h2, h3, h4, h5, h6, h7⟩ := h
  refine ⟨w, hw, ?_⟩
  simp only [State.issue, hw]
  rw [if_pos (by simp [h1, h2, h3, h4, hl, hc, h6]; exact h5)]
  simp [State.fetch, State.evaluate_noDice, h7]

/-- What a slot count changes: one top-down counter of its core. -/
theorem State.slotCount_frame (s : State) (core k : Nat) :
    ∃ td, s.slotCount core k = { s with topDown := td } ∧ ∀ j, j ≠ 4 * core + k → td.getD j 0 = s.topDown.getD j 0 := by
  unfold State.slotCount
  split
  · exact ⟨_, rfl, fun j hj => Tab.getD_setD_ne _ _ _ _ hj⟩
  · exact ⟨s.topDown, rfl, fun _ _ => rfl⟩

/-- What retiring does. -/
theorem State.retireAt_retired (s : State) (x : CtxId) (vec : Bool) (c : PipCtx) (pc : Nat) (hx : x.core < 128) :
    Retired x (c.goto pc) s (({ s with rrCtx := s.rrCtx.setD x.core 0 x.ctx } : State).retireAt x vec c pc) := by
  unfold State.retireAt
  obtain ⟨⟨r, n, h1⟩, h2⟩ := ((({ s with rrCtx := s.rrCtx.setD x.core 0 x.ctx } : State).putCtx (ctxNum x)
    { c with pc := pc, run := .ready })).ev_counted (U.core x.core) (if vec then 2 else 1) 1 (by simp [U.core]; omega)
  obtain ⟨td, h3, h4⟩ := State.slotCount_frame ((({ s with rrCtx := s.rrCtx.setD x.core 0 x.ctx } : State).putCtx (ctxNum x)
    { c with pc := pc, run := .ready }).ev (U.core x.core) (if vec then 2 else 1)) x.core 0
  rw [h3]
  refine ⟨td, fun k hk => (h4 k hk).trans (by rw [State.ev_topDown]; rfl), ⟨r, n, by rw [h1]; rfl⟩, ?_⟩
  intro q j hq hj
  exact h2 q j hq hj

/-- What blocking does. -/
theorem State.stall_waits (s : State) (x : CtxId) (hx : x.core < 128) (hr : (s.ctx (ctxNum x)).run = .ready) :
    Waits x (s.ctx (ctxNum x)) s
      (({ s with rrCtx := s.rrCtx.setD x.core 0 x.ctx } : State).stall x (s.ctx (ctxNum x))) := by
  simp only [State.stall]
  rw [if_neg (by simp [hr])]
  exact State.ev_counted _ _ _ _ (by simp [U.core]; omega)

end Sys2Proof.Machine
end

