-- ==== Sys2Proof/Tests/Slice0.lean ====
section
/-! SUPPORT. Tests: ill-formed commands that WellFormed refuses, words and values written out from the spec, and for every statement a concrete state
and operands that meet its hypotheses. Where a hypothesis speaks of a function without a body (a signature, a hash, a plan's image), the witness takes
that fact as its own hypothesis. -/

section Tests

set_option Elab.async false

open Sys2Proof Sys2Proof.Machine

/-! ### Helpers -/

/-- `Issuable` as a computation. -/
def Tests.canIssue (i : Instr) (x : CtxId) (s : State) : Bool :=
  match xoWord i with
  | some (y, w) => decide (y = x) && s.codeHas (s.ctx (ctxNum x)).program (s.ctx (ctxNum x)).pc w && xoLegal i && decide (x.core < 128) &&
      decide (x.ctx < 4) && !s.phys.fatal && !s.coreFenced.contains x.core &&
      (decide ((s.ctx (ctxNum x)).run = .ready) || decide ((s.ctx (ctxNum x)).run = .blocked)) && s.turn x.core x.ctx && decide (s.dice = [])
  | none => false

theorem Tests.issuable {i : Instr} {x : CtxId} {s : State} (h : Tests.canIssue i x s = true) : Issuable i x s := by
  unfold Tests.canIssue at h
  split at h
  · rename_i y w hw
    simp only [Bool.and_eq_true, decide_eq_true_eq, Bool.not_eq_true', Bool.or_eq_true] at h
    obtain ⟨⟨⟨⟨⟨⟨⟨⟨⟨rfl, h1⟩, h2⟩, h3⟩, h4⟩, h5⟩, h6⟩, h7⟩, h8⟩, h9⟩ := h
    exact ⟨⟨w, hw, h1⟩, h2, h3, h4, h5, by simpa using h6, h7, h8, h9⟩
  · exact absurd h (by decide)

/-- Context 0 of core 0, in instance 7 of slot 5, at the start of loaded program 256. -/
def Tests.x0 : CtxId := ⟨0, 0⟩

def Tests.c0 : PipCtx :=
  { run := .ready, program := 256, slot := 5, step := 7, regs := [(2, 64), (3, 9), (31, 8)], vregs := [(1, 3), (2, 0x3F800000)] }

def Tests.s0 : State := { ctxs := [(0, Tests.c0)] }

/-- A state with program 256 loaded, whose first word is an instruction; its channel 0 takes the packets of members. -/
def Tests.load (i : Instr) (s : State) : State :=
  { s with programs := [{ cls := 256, version := 0, flags := 0, entry := 0, code := [((xoWord i).map fun p => p.2).getD 0, 0, 0], codeLen := 3, data := [],
                          channels := [1], unchecked := false, digest := 0 }] }

/-- Each of some instructions can issue as the first word of the program. -/
def Tests.canAll (is : List Instr) (s : State) : Bool := is.all fun i => Tests.canIssue i Tests.x0 (Tests.load i s)

theorem Tests.issues {is : List Instr} {s : State} (h : Tests.canAll is s = true) : ∀ i ∈ is, Issuable i Tests.x0 (Tests.load i s) :=
  fun i hi => Tests.issuable (List.all_eq_true.mp h i hi)

/-- Slot 5 bound to group 40 of four ranks for an FP32 SUM ALLREDUCE of four chunks, its step 7 open and running on context 0. -/
def Tests.b1 : Binding := { group := 40, program := 256, elems := 65536, step0 := 7 }

def Tests.g1 : Group := { dfn := ⟨40, 7, 0, 0, 1, 1, 0, 4, 1⟩, r0 := 0, c0 := 0, height := 1, width := 4 }

def Tests.i1 : Instance := { state := .running, ctx := some Tests.x0, opened := [0], first := [0, 1, 2, 3], flight := 4 }

def Tests.c1 : PipCtx :=
  { Tests.c0 with regs := [(2, 64), (4, 4097), (6, 9)], mem := [(1, 64 * 2 ^ 32), (2, 1)] }

def Tests.plan1 : Plan := { g := 8, m := 16 }

def Tests.s1 : State :=
  ({ ctxs := [(0, Tests.c1)], groups := [(40, Tests.g1)], slots := [(5, { bound := some Tests.b1, base := 7 })], insts := [(65536 * 5 + 7, Tests.i1)], plan := Tests.plan1,
     tables := { regions := [(0, ⟨0, 1, 7, 7⟩)] } } : State).wr F.memcTopTop 1024000000000 0

/-- The same with another context or slot. -/
def Tests.s1c (f : PipCtx → PipCtx) : State := { Tests.s1 with ctxs := [(0, f Tests.c1)] }

def Tests.s1i (f : Instance → Instance) : State := { Tests.s1 with insts := [(65536 * 5 + 7, f Tests.i1)] }

/-- Port 14 in a stage, and ACTIVE with its link states. -/
def Tests.p14 (st : Nat) : State := State.reset.wr F.laneStatStage st 14

def Tests.link (rxState : Nat) : State := ((Tests.p14 5).wr F.portLlstatTxState 1 14).wr F.portLlstatRxState rxState 14

/-! ### Ill-formed commands -/

theorem test_wf_ports : Instr.wf (.slotTransmit 144 none 0 {}) = false ∧ Instr.wf (.slotTransmit 0 (some 11) 0 {}) = false ∧
    Instr.wf (.slotTransmit 0 none 11 {}) = false ∧ Instr.wf (.slotReceive 144 ⟨0, 0⟩) = false ∧ Instr.wf (.headReceive 143 11) = false ∧
    Instr.wf (.trainingFrameReceive 0 4 0 ⟨false, false, false, 0, 0, 0, 0, []⟩) = false ∧ Instr.wf (.prbsCheck 576 []) = false ∧
    Instr.wf (.slotTransmit 143 (some 10) 7 {}) = true := by decide

theorem test_wf_units : Instr.wf (.dealerPlace 4 .clean) = false ∧ Instr.wf (.promotion (.memScrub 64 .clean)) = false ∧ Instr.wf (.refresh 64) = false ∧
    Instr.wf (.memoryInitComplete [3, 64]) = false ∧ Instr.wf (.coreHwError 128 0) = false ∧ Instr.wf (.bankOpComplete ⟨128, 0⟩ []) = false ∧
    Instr.wf (.ethFrameSend 8 0) = false ∧ Instr.wf (.ethFrameSend 0 2) = false ∧ Instr.wf (.contribDeposit 4096 []) = false ∧
    Instr.wf (.chessClockExpire 0 65536) = false ∧ Instr.wf (.streamStart 1024) = false ∧ Instr.wf (.dmaRun 8) = false ∧
    Instr.wf (.mailboxSubmit 32 0 false) = false ∧ Instr.wf (.hello ⟨.mctp, 4⟩) = false ∧ Instr.wf (.presenceBreak 16) = false ∧
    Instr.wf (.ropeTest 4) = false ∧ Instr.wf (.sensorFault 13 0 0) = false ∧ Instr.wf (.thermalTrip 13) = false ∧
    Instr.wf (.cdcTimeout 0 0) = false ∧ Instr.wf (.counterClear 274 0) = false ∧ Instr.wf (.counterClear 273 7) = true := by decide

/-- Words the loader refuses: a context out of range, a special register that is not there or takes no write, VFMA on INT32, VSEL on p0, FENCE of no
class (08 R188, R191, R192, R197). -/
theorem test_wf_instructions : Instr.wf (.add ⟨0, 4⟩ 1 2 3) = false ∧ Instr.wf (.csrr Tests.x0 1 0x012) = false ∧
    Instr.wf (.csrw Tests.x0 1 0x018) = false ∧ Instr.wf (.vfma Tests.x0 1 2 3 0 7) = false ∧ Instr.wf (.vsel Tests.x0 1 2 3 0 0) = false ∧
    Instr.wf (.fence Tests.x0 0) = false ∧ Instr.wf (.add ⟨127, 3⟩ 1 2 3) = true := by decide

/-! ### Words and values written out from the spec -/

/-- One word of each format of 08 R190, written out field by field. -/
theorem test_decode_sr : xoDecode Tests.x0 0b000000_00001_00010_00011_00000000001#32 = some (.sub Tests.x0 1 2 3) ∧
    xoDecode Tests.x0 0b100101_00001_00010_00011_000000_1_0101#32 = some (.mwait Tests.x0 1 2 3 5 true) ∧
    xoDecode Tests.x0 0b011101_00001_00010_00011_00000000010#32 = some (.pand Tests.x0 1 2 3) := by decide +kernel

theorem test_decode_si : xoDecode Tests.x0 0b000001_00001_00010_1111111111111111#32 = some (.addi Tests.x0 1 2 (-1)) ∧
    xoDecode Tests.x0 0b001010_00001_00000_0000_000000110010#32 = some (.csrr Tests.x0 1 0x032) ∧
    xoDecode Tests.x0 0b000111_00001_00010_0000000000_111111#32 = some (.srai Tests.x0 1 2 63) ∧
    xoDecode Tests.x0 0b101100_00010_00011_0000000000000010#32 = some (.ireportDropped Tests.x0 3) ∧
    xoDecode Tests.x0 0b101101_00000_00000_000000000000_0101#32 = some (.fence Tests.x0 5) := by decide +kernel

theorem test_decode_branches : xoDecode Tests.x0 0b010001_00001_00010_1111111111111110#32 = some (.bne Tests.x0 1 2 (-2)) ∧
    xoDecode Tests.x0 (0b010110#6 ++ (0x3FFFFFC : BitVec 26)) = some (.jal Tests.x0 (-4)) := by decide +kernel

theorem test_decode_vector : xoDecode Tests.x0 0b011010_00001_00010_00011_010_0001_0011#32 = some (.vfma Tests.x0 1 2 3 2 1) ∧
    xoDecode Tests.x0 0b011100_00001_00010_01_110_000_0000_0000#32 = some (.vcvt Tests.x0 1 2 6 1 0 0) := by decide +kernel

theorem test_decode_bank : xoDecode Tests.x0 0b100001_00001_00010_0000000000000011#32 = some (.bst Tests.x0 1 2 3 false) ∧
    xoDecode Tests.x0 0b100010_00001_00010_0001_1_101_11111111#32 = some (.batomMax Tests.x0 1 2 1 true (-1) .clean) := by decide +kernel

/-- Reserved bits and codes are refused: FUNC 16, MAJOR 0x3F, FMT 8, a nonzero reserved field of RET (08 R190). -/
theorem test_decode_refused : xoDecode Tests.x0 16 = none ∧ xoDecode Tests.x0 0xFC000000 = none ∧
    xoDecode Tests.x0 0b011010_00001_00010_00011_000_1000_0000#32 = none ∧ xoDecode Tests.x0 0b010111_00001_00000_00000_00000000000#32 = none := by
  decide +kernel

/-- 06 R150's example: BF16 1.0, 2^-8, 2^-8 in two orders of arrival. -/
theorem test_bf16_orders :
    laneGet 1 (addWord 1 {} false (addWord 1 {} false 0x3F80 0x3B80).1 0x3B80).1 0 = 0x3F80 ∧
    laneGet 1 (addWord 1 {} false (addWord 1 {} false 0x3B80 0x3B80).1 0x3F80).1 0 = 0x3F81 := by decide +kernel

/-- The E4M3 example of 06: 256 + 9 + 9 - 256, exactly and in rank order. -/
theorem test_e4m3_disciplines : toAcc 3 0x78 = (0x00020000, 0) ∧ toAcc 3 0x51 = (0x00001200, 0) ∧ toAcc 3 0xF8 = (0xFFFE0000, 0) ∧
    (convertTo 3 (.fin false 0x2400 (-9))).1 = 0x59 ∧
    laneGet 3 (addWord 3 {} false (addWord 3 {} false (addWord 3 {} false 0x78 0x51).1 0x51).1 0xF8).1 0 = 0 ∧
    laneGet 3 (addWord 3 {} false (addWord 3 {} false (addWord 3 {} false 0x51 0x51).1 0x78).1 0xF8).1 0 = 0x60 := by decide +kernel

/-- The MXFP4 block add of 06 R157. -/
theorem test_mxfp4_block : ((addBlocks 6 (0x80, [7, 5, 0xB, 1] ++ List.replicate 28 0) (0x7F, [6, 3, 1, 0xF] ++ List.replicate 28 0)).1.1,
    (addBlocks 6 (0x80, [7, 5, 0xB, 1] ++ List.replicate 28 0) (0x7F, [6, 3, 1, 0xF] ++ List.replicate 28 0)).1.2.take 4) = (0x81, [6, 4, 9, 0xA]) := by
  decide +kernel

/-- 07 R164 and R181: the word of row 1,165 of bank 21, before and after retirements. -/
theorem test_relocation : logicalPlace 0x01234567 = ⟨21, 1165⟩ ∧ ({ retired := [1024 + 21] } : State).placeOf 2 0x01234567 = ⟨146, 8164⟩ ∧
    ({ retired := [1024 + 200, 1024 + 21] } : State).placeOf 2 0x01234567 = ⟨150, 8132⟩ := by decide +kernel

/-- The COLL_CONTRIB header of 02's example, byte by byte. -/
def Tests.header : Flit := flitOf (([0x50, 0x00, 0x40, 0x03, 0x50, 0x06, 0x02, 0, 0, 0, 0x07, 0, 0, 0, 0, 0, 0x12, 0, 3, 0, 0x12, 4, 0xC8, 1, 5, 0x10, 1, 1, 0x23, 0, 0, 0,
  0xD4, 0xA1, 0x6E, 0x3C, 0xC0, 3, 0, 0] : List Byte))

theorem test_header_fields : [H.gen, H.ptype, H.tc, H.len, H.dst, H.dmod, H.src, H.smod, H.slice, H.group, H.gepoch, H.slot].map (hget Tests.header) =
      [0, 4, 1, 64, 3, 1, 0x65, 0, 7, 18, 3, 1042] ∧
    [H.step, H.rank, H.format, H.disc, H.op, H.reducer, H.last, H.chunk, H.descHash, H.foff].map (hget Tests.header) =
      [456, 5, 1, 1, 0, 0, 1, 35, 0x3C6EA1D4, 960] := by decide +kernel

/-- The head slot's sideband of the same example: 81 23 00 00 00 00 00 00. -/
theorem test_sideband : mkSide 1 0 false true 3 2 0 0 = 0x2381 := by decide

/-- The descriptor image of 05 R117's example. -/
theorem test_descriptor_hash :
    descHashOf { disc := 1, op := 0, reducer := 0, format := 1, group := 40, root := 0x1FF, elems := 33554432 } 7 =
      crc32c ([0x01, 0x01, 0x28, 0, 7, 0, 0xFF, 1, 0, 0, 0, 2] ++ List.replicate 20 0) := by decide +kernel

/-- CRC-32C and CRC-16 of the bytes "123456789": the published check values of those functions. -/
theorem test_checks : crc32c [0x31, 0x32, 0x33, 0x34, 0x35, 0x36, 0x37, 0x38, 0x39] = 0xE3069283 ∧
    crc16 [0x31, 0x32, 0x33, 0x34, 0x35, 0x36, 0x37, 0x38, 0x39] = 0x29B1 := by decide +kernel

/-- 03 R61: slice 9 beside slice 7 takes indices 4 and 5; the SPRAY entries of slice 7 at group 6 for group 1. -/
theorem test_slice_links : ({ lg := 6, g := 8, m := 16 } : Plan).linksFor [⟨7, 6, 4, 12, 8, 0b1111, false, false⟩] ⟨9, 0, 2, 0, 4, 0, false, false⟩ = some 0b110000 ∧
    (sprayPaths 32 [6, 7, 0, 1] 0b1111 6 1).take 4 = [0x160, 0x161, 0x162, 0x163] ∧
    ((sprayPaths 32 [6, 7, 0, 1] 0b1111 6 1).filter fun e => e / 16 = 0x17).length = 16 ∧
    0x170 ∈ sprayPaths 32 [6, 7, 0, 1] 0b1111 6 1 ∧ 0x101 ∈ sprayPaths 32 [6, 7, 0, 1] 0b1111 6 1 := by decide +kernel

/-! ### Witnesses: instructions of the reduction cores -/

theorem witness_StepRunsFrontCommand : ({ Tests.s0 with pending := [.refclkReturn, .mainFull] } : State).pending = [.refclkReturn, .mainFull] := by decide

theorem witness_EmptyQueueIsOneTick : State.reset.pending = [] ∧ State.reset.phys.refclk = true ∧
    ({ phys := { refclk := false } } : State).pending = [] ∧ ({ phys := { refclk := false } } : State).phys.refclk = false ∧
    (({} : State).vcbuf.getD 0 {}).waits = false ∧ State.reset.toCarry = [] := by decide

theorem witness_RegisterInstructions : ∀ e ∈ Claims.scalarOps, ∀ i ∈ [e.1 Tests.x0 1 2 3, e.1 Tests.x0 0 2 3], Issuable i Tests.x0 (Tests.load i Tests.s0) :=
  fun e he => Tests.issues ((by decide +kernel : ∀ e ∈ Claims.scalarOps, Tests.canAll [e.1 Tests.x0 1 2 3, e.1 Tests.x0 0 2 3] Tests.s0 = true) e he)

theorem witness_ImmediateInstructions : (∀ e ∈ Claims.immOps, ∀ i ∈ [e.1 Tests.x0 1 2 (-1)], Issuable i Tests.x0 (Tests.load i Tests.s0)) ∧
    (∀ e ∈ Claims.shiftOps, ∀ i ∈ [e.1 Tests.x0 1 2 63], Issuable i Tests.x0 (Tests.load i Tests.s0)) ∧
    ∀ i ∈ [Instr.lui Tests.x0 1 0x8000], Issuable i Tests.x0 (Tests.load i Tests.s0) :=
  ⟨fun e he => Tests.issues ((by decide +kernel : ∀ e ∈ Claims.immOps, Tests.canAll [e.1 Tests.x0 1 2 (-1)] Tests.s0 = true) e he),
   fun e he => Tests.issues ((by decide +kernel : ∀ e ∈ Claims.shiftOps, Tests.canAll [e.1 Tests.x0 1 2 63] Tests.s0 = true) e he),
   Tests.issues (by decide +kernel)⟩

theorem witness_SpecialRegisters : (∀ e ∈ Claims.specials, ∀ i ∈ [Instr.csrr Tests.x0 1 e.1], Issuable i Tests.x0 (Tests.load i Tests.s0)) ∧
    ∀ i ∈ [Instr.csrr Tests.x0 1 0x02F, .csrw Tests.x0 2 0x030, .csrw Tests.x0 2 0x031, .csrw Tests.x0 2 0x034], Issuable i Tests.x0 (Tests.load i Tests.s0) :=
  ⟨fun e he => Tests.issues ((by decide +kernel : ∀ e ∈ Claims.specials, Tests.canAll [.csrr Tests.x0 1 e.1] Tests.s0 = true) e he),
   Tests.issues (by decide +kernel)⟩

/-- The last word of the window, and the first. -/
theorem witness_LocalLoadsAndStores : (∀ i ∈ [Instr.ld Tests.x0 1 2 0x7FF8 .clean, .lw Tests.x0 1 2 4 .clean, .st Tests.x0 1 2 0x7FF8, .sw Tests.x0 1 2 4,
      .vld Tests.x0 1 2 (-1) .clean, .vst Tests.x0 1 2 (-1)], Issuable i Tests.x0 (Tests.load i Tests.s0)) ∧
    Claims.InWindow (Claims.addr Tests.c0 2 (0x7FF8 : BitVec 16).toInt) 8 ∧ Claims.InWindow (Claims.addr Tests.c0 2 (-64)) 64 ∧
    Claims.addr Tests.c0 2 (-64) = 0 ∧ Claims.InWindow 65528 8 ∧ Claims.InWindow 65532 4 ∧ Claims.InWindow 65472 64 :=
  ⟨Tests.issues (by decide +kernel), by unfold Claims.InWindow; decide +kernel⟩

/-- Each branch both taken and not taken; RET to the address in s31. -/
theorem witness_BranchesAndCalls :
    (∀ e ∈ Claims.branchOps, ∀ a ∈ [(2 : Reg5), 3], ∀ b ∈ [(2 : Reg5), 3], ∀ i ∈ [e.1 Tests.x0 a b 5], Issuable i Tests.x0 (Tests.load i Tests.s0)) ∧
    (∀ e ∈ Claims.branchOps, (∃ a ∈ [(2 : Reg5), 3], ∃ b ∈ [(2 : Reg5), 3], e.2 (Tests.c0.s a) (Tests.c0.s b)) ∧
      ∃ a ∈ [(2 : Reg5), 3], ∃ b ∈ [(2 : Reg5), 3], ¬e.2 (Tests.c0.s a) (Tests.c0.s b)) ∧
    (∀ i ∈ [Instr.jal Tests.x0 5, .ret Tests.x0], Issuable i Tests.x0 (Tests.load i Tests.s0)) ∧ (Tests.c0.s 31).toNat % 4 = 0 ∧
    (Tests.c0.s 31).toNat / 4 < (Tests.load (.ret Tests.x0) Tests.s0).codeLen Tests.c0.program := by
  refine ⟨fun e he a ha b hb => Tests.issues ((by decide +kernel : ∀ e ∈ Claims.branchOps, ∀ a ∈ [(2 : Reg5), 3], ∀ b ∈ [(2 : Reg5), 3],
      Tests.canAll [e.1 Tests.x0 a b 5] Tests.s0 = true) e he a ha b hb), ?_, Tests.issues (by decide +kernel), by decide, by decide⟩
  intro e he
  simp only [Claims.branchOps, List.mem_cons, List.not_mem_nil, or_false] at he
  rcases he with rfl | rfl | rfl | rfl | rfl | rfl <;> dsimp only <;> decide

theorem witness_VectorLanes : ∀ e ∈ Claims.laneOps, isMx (e.2.1 0) = false ∧ ∀ i ∈ [e.1 Tests.x0 1 2 3 1 0], Issuable i Tests.x0 (Tests.load i Tests.s0) := fun e he =>
  ⟨(by decide +kernel : ∀ e ∈ Claims.laneOps, isMx (e.2.1 0) = false) e he,
   Tests.issues ((by decide +kernel : ∀ e ∈ Claims.laneOps, Tests.canAll [e.1 Tests.x0 1 2 3 1 0] Tests.s0 = true) e he)⟩

theorem witness_VectorBlocks : ∀ e ∈ Claims.blockOps, ∀ i ∈ [e.1 Tests.x0 1 2 3 0 5, e.1 Tests.x0 1 2 3 0 6], Issuable i Tests.x0 (Tests.load i Tests.s0) :=
  fun e he => Tests.issues ((by decide +kernel : ∀ e ∈ Claims.blockOps, Tests.canAll [e.1 Tests.x0 1 2 3 0 5, e.1 Tests.x0 1 2 3 0 6] Tests.s0 = true) e he)

theorem witness_VectorMoves : (∀ i ∈ [Instr.vabs Tests.x0 1 2 0 7, .vneg Tests.x0 1 2 0 0, .vsel Tests.x0 1 2 3 1 5, .vextr Tests.x0 1 2 3 4, .vinsr Tests.x0 1 2 3 4,
      .vcvt Tests.x0 1 2 2 0 0 1, .vcmpeq Tests.x0 1 2 3 0 0, .vcmplt Tests.x0 1 2 3 0 1, .vcmple Tests.x0 1 2 3 0 3, .vcmpun Tests.x0 1 2 3 0 4],
      Issuable i Tests.x0 (Tests.load i Tests.s0)) ∧ lanesOf 1 = lanesOf 2 := ⟨Tests.issues (by decide +kernel), by decide⟩

theorem witness_Predicates : ∀ i ∈ [Instr.pread Tests.x0 1 2, .pmov Tests.x0 0 2, .pand Tests.x0 1 2 3, .por Tests.x0 1 2 3, .pnot Tests.x0 7 7],
    Issuable i Tests.x0 (Tests.load i Tests.s0) := Tests.issues (by decide +kernel)

/-! ### Witnesses: banks, messages, transfers, ends, the dealer -/

theorem witness_BankLoadsAndStores :
    (∀ i ∈ [Instr.bld Tests.x0 1 2 (-1) .clean, .bst Tests.x0 1 2 0 false, .bst Tests.x0 1 2 0 true], Issuable i Tests.x0 (Tests.load i Tests.s1)) ∧
    Claims.BankOk Tests.s1 Tests.x0 0 false ∧ Claims.BankOk Tests.s1 Tests.x0 64 true ∧
    Claims.addr Tests.c1 2 (64 * (-1 : BitVec 16).toInt) = 0 ∧ Claims.addr Tests.c1 2 (64 * (0 : BitVec 16).toInt) = 64 ∧
    (let s := Tests.s1c fun c => { c with bankOps := 3 }
     11 < (s.ctx 0).program ∧ 0 < (s.ctx 0).bankOps ∧ (s.ctx 0).run ≠ .stopped) :=
  ⟨Tests.issues (by decide +kernel), by unfold Claims.BankOk; decide +kernel⟩

/-- Of a word poisoned and of one that is not. -/
theorem witness_BankAtomics : (∀ e ∈ Claims.atomics, ∀ i ∈ [e.1 Tests.x0 1 2 1 true 0], Issuable i Tests.x0 (Tests.load i Tests.s1)) ∧
    Claims.BankOk Tests.s1 Tests.x0 64 true ∧ (Tests.s1.bankWord (bankKey 0 64)).poison = false ∧
    (({ Tests.s1 with banks := [(1, { poison := true, empty := false })] } : State).bankWord (bankKey 0 64)).poison = true :=
  ⟨fun e he => Tests.issues ((by decide +kernel : ∀ e ∈ Claims.atomics, Tests.canAll [e.1 Tests.x0 1 2 1 true 0] Tests.s1 = true) e he),
   by unfold Claims.BankOk; decide +kernel⟩

/-- A send to one rank; a count reached and one that is not; a descriptor for channel 2. -/
theorem witness_MessagesAndWaits :
    (∀ i ∈ [Instr.msend Tests.x0 2 4, .mwait Tests.x0 1 0 0 0 false, .mwait Tests.x0 1 0 6 0 false], Issuable i Tests.x0 (Tests.load i Tests.s1)) ∧
    (let s := Tests.load (.mwait Tests.x0 1 0 0 0 false) Tests.s1
     s.bindingOf 5 = some (Tests.b1, Tests.g1) ∧ s.inst? 5 7 = some Tests.i1 ∧ s.chanSource 256 0 = some 0 ∧ (Tests.c1.s 0).toNat < Tests.b1.chunks ∧
       s.waitAnswer 5 Tests.b1 Tests.g1 Tests.i1 0 0 0 0 false = some 0 ∧ s.waitAnswer 5 Tests.b1 Tests.g1 Tests.i1 0 0 0 9 false = none ∧ Tests.c1.run = .ready ∧
       dLen (Tests.c1.s 4) ≤ 64 ∧ dFoff (Tests.c1.s 4) + dLen (Tests.c1.s 4) ≤ Tests.b1.sendLimit Tests.i1.disc (dKind (Tests.c1.s 4)) (dChunk (Tests.c1.s 4)) ∧
       dType (Tests.c1.s 4) < 2 ∧ dKind (Tests.c1.s 4) = 0 ∧ dTarget (Tests.c1.s 4) < Tests.g1.count ∧
       s.mayAccess Tests.c1 (Tests.c1.s 2).toNat (64 * dLen (Tests.c1.s 4)) false = true ∧ (Tests.c1.s 2).toNat % 64 = 0) ∧
    (∀ i ∈ [Instr.mrecv Tests.x0 1 2], Issuable i Tests.x0 (Tests.load i (Tests.s1i fun i => { i with descs := [⟨1, 5, 0⟩, ⟨2, 6, 0⟩] }))) ∧
    (([⟨1, 5, 0⟩, ⟨2, 6, 0⟩] : List Arrival).find? fun v => v.chan = (2 : BitVec 4).toNat) = some ⟨2, 6, 0⟩ :=
  ⟨Tests.issues (by decide +kernel), by decide +kernel, Tests.issues (by decide +kernel), by decide +kernel⟩

def Tests.tag (st : Option Nat) : DmaTag := { tag := 0, faddr := 0, baddr := 0, bytes := 64, toMem := true, status := st }

theorem witness_TransfersAndFences :
    (∀ i ∈ [Instr.dma Tests.x0 1 0 .clean, .fence Tests.x0 7], Issuable i Tests.x0 (Tests.load i Tests.s1)) ∧ Claims.InWindow (Tests.c1.s 0).toNat 32 ∧
    Claims.DmaOk Tests.s1 Tests.c1 0 ∧ (Tests.c1.dmas.filter fun t => t.status.isNone).length < 8 ∧
    (let s := Tests.s1c fun c => { c with dmas := [Tests.tag none] }
     (s.ctx 0).dmas.find? (fun t => t.status.isNone) = some (Tests.tag none) ∧ (Tests.tag none).tag = 0 ∧ (Tests.tag none).toCtl = false ∧ 0 ∉ s.recarve ∧
       ∀ e ∈ s.ctxs, ∀ v ∈ e.2.dmas, (Tests.tag none).order ≤ v.order) ∧
    (∀ i ∈ [Instr.dmawait Tests.x0 1 0], Issuable i Tests.x0 (Tests.load i (Tests.s1c fun c => { c with dmas := [Tests.tag (some 3)] }))) ∧
    ([Tests.tag (some 3)].find? fun t => t.tag = (Tests.c1.s 0).toNat && t.status.isSome) = some (Tests.tag (some 3)) ∧
    Tests.c1.bankOps = 0 ∧ Tests.c1.sends = [] ∧ (∀ t ∈ Tests.c1.dmas, t.status.isSome = true) ∧
    ∀ i ∈ [Instr.fence Tests.x0 1], Issuable i Tests.x0 (Tests.load i (Tests.s1c fun c => { c with bankOps := 1 })) :=
  ⟨Tests.issues (by decide +kernel), by unfold Claims.InWindow; decide, by unfold Claims.DmaOk; decide +kernel, by decide, by decide +kernel,
   Tests.issues (by decide +kernel), by decide +kernel, by decide, by decide, by decide, Tests.issues (by decide +kernel)⟩

theorem witness_ReportsAndEnds :
    (∀ i ∈ [Instr.idone Tests.x0, .iabort Tests.x0 6, .ireportChunkDone Tests.x0 0, .ireportChunkFault Tests.x0 0, .ireportDropped Tests.x0 6, .ireportUser Tests.x0 6,
      .ickpt Tests.x0 2 6], Issuable i Tests.x0 (Tests.load i Tests.s1)) ∧
    (∀ i ∈ [Instr.ireportChunkDone Tests.x0 0], Issuable i Tests.x0 (Tests.load i { Tests.s1 with slots := [(5, { bound := some Tests.b1, helper := some 3 })] })) ∧
    Tests.c1.quiet 0xF = true ∧ Tests.c1.recoveryOf = none ∧ Tests.i1.status = none ∧ (Tests.s1.slot 5).helper = none ∧
    (Tests.c1.s 0).toNat ∈ Tests.i1.opened ∧ (Tests.c1.s 0).toNat ∉ Tests.i1.done ∧ Tests.s1.inst? 5 7 = some Tests.i1 ∧ Tests.i1.recovering = [] ∧
    Tests.i1.results = [] ∧ Tests.i1.recCtx = none := ⟨Tests.issues (by decide +kernel), Tests.issues (by decide +kernel), by decide +kernel⟩

theorem witness_CoreHardwareErrors : 127 ∉ Tests.s1.coreFenced ∧ E.pipLdmUe ∈ [E.pipLdmUe, E.pipImemUe, E.pipParity] ∧ 0 ∉ Tests.s1.coreFenced ∧
    E.pipLdmCe ∈ [E.pipImemCe, E.pipLdmCe] := by decide +kernel

theorem witness_Dealer :
    (let i : Instance := { opened := [0], first := [0] }
     let s : State := { Tests.s1 with ctxs := [], insts := [(65536 * 5 + 7, i)] }
     s.phys.fatal = false ∧ s.waitingInsts 0 = [(65536 * 5 + 7, i)] ∧
     (s.insts.find? fun e => e.1 / 65536 / 1024 = 0 && e.2.status.isNone && e.2.recovering ≠ [] && e.2.recCtx.isNone) = none ∧
     s.bindingOf 5 = some (Tests.b1, Tests.g1) ∧ s.freeCtx 0 none = some Tests.x0) := by decide +kernel

/-! ### Witnesses: links and lanes -/

def Tests.idle : Slot := ⟨0, 0⟩

/-- The first slot of a window and its last one; a packet's first flit and its last, and the tail of a stomped one; the retained slots of a replay; a port that is
down; a held member port. -/
theorem witness_SlotsAreSent :
    Claims.CanSend (Tests.link 1) 14 ∧ Claims.CanSend { Tests.link 1 with tx := [(14, { cur := List.replicate 31 Tests.idle })] } 14 ∧
    (∀ n ∈ [0, 1, 2], (let o : OutPkt := { flits := [5, 6], whole := true, stomp := decide (n = 2), sent := n, chg := { acct := 16 * 20, far := 2 - n } }
      let s : State := { Tests.link 1 with tx := [(14, { credits := [(0, 1)] })], outq := [(16 * 14, [o])] }
      Claims.CanSend s 14 ∧ s.dice = [] ∧ s.outqOf (16 * 14 + 0) = [o] ∧ 0 < (s.txOf 14).credits.getD 0 0 ∧
        (n = 2 ∧ o.stomp = true ∧ o.flits.length ≤ o.sent ∨ o.sent < o.flits.length ∧ o.chg.ready (16 * 14 + 0) ≠ 0 ∧
          s.bankFenced (portQuad 14) (384 + 0 % 64) = false))) ∧
    (∀ r ∈ [[], [Tests.idle]], (let s : State := { Tests.link 1 with tx := [(14, { resend := Tests.idle :: r })] }
      s.active 14 = true ∧ (s.txOf 14).askReplay = false ∧ (s.txOf 14).resend = Tests.idle :: r)) ∧ State.reset.active 14 = false ∧
    (let s : State := (Tests.link 1).wr F.portIngctlHold 1 14
     let s : State := { s with tables := { s.tables with memberPorts := [(0, 15)] } }
     Claims.CanSend s 14 ∧ s.memberOf 14 = some 0 ∧ s.flag F.portIngctlHold 14 = true) := by
  unfold Claims.CanSend; decide +kernel

/-- A line one slot short of a codeword, and one with room for another slot. -/
theorem witness_LinesCarryCodewords : (∀ n ∈ [4564, 4563], ∃ s : State, (s.lineOf 14).length = n ∧ (n + 576 < 5140 ∨ 5140 ≤ n + 576)) ∧ Claims.Levels [0, 3] ∧
    (5 : Nat) < 2 ^ (1 * 3) ∧ ∃ bits : Nat, bits < 2 ^ 5140 := by
  refine ⟨fun n hn => ⟨({} : State).putLine 14 { (({} : State).lineOf 14) with length := n }, ?_⟩, by unfold Claims.Levels; decide, by decide, 0, Nat.two_pow_pos 5140⟩
  simp only [List.mem_cons, List.not_mem_nil, or_false] at hn
  rcases hn with rfl | rfl <;> decide +kernel

/-- The five slots that bring the CRC of the window before them and its sequence number. -/
def Tests.crcSlot (w : List Slot) (i : Nat) : Slot := ⟨mkSide 0 0 false false 0 0 (bitsOf (windowCrc w) (16 * i) 16) 0, 0⟩

def Tests.prev : List Slot := [Tests.idle]

theorem witness_SlotsAreReceived :
    Claims.PlainSlot (Tests.link 2) 14 ∧ (Tests.link 2).rd F.portLlstatRxState 14 = 2 ∧
    Claims.PlainSlot (Tests.link 1) 14 ∧ (Tests.link 1).rd F.portLlstatRxState 14 = 1 ∧ ((Tests.link 1).rxOf 14).tested = true ∧
      ((Tests.link 1).rxOf 14).winIdx ∉ ((Tests.link 1).rxOf 14).badWins ∧ slotValid Tests.idle = false ∧
    (∀ ft ∈ [0, 3], (let x : Slot := ⟨mkSide 10 ft false true 0 0 0 0, 5⟩
      let s : State := { Tests.link 1 with vcbuf := [(16 * 14 + 10, { credits := 1 })] }
      slotValid x = true ∧ slotFtype x = ft ∧ slotVc x = 10 ∧ 0 < (s.vcb (16 * 14 + slotVc x)).credits ∧ slotVc x ∉ (s.rxOf 14).dropVcs ∧
        s.open? (16 * 14 + slotVc x) = none)) := by
  refine ⟨⟨by decide +kernel, by decide +kernel, by decide +kernel⟩, by decide +kernel, ⟨by decide +kernel, by decide +kernel, by decide +kernel⟩, by decide +kernel,
    by decide +kernel, by decide +kernel, by decide, by decide +kernel⟩

/-- A window that verifies (the statement asks only that it is not empty): its CRC and sequence 0 in the next one; and the same with the CRC left out. -/
theorem witness_WindowTest :
    (let s : State := { Tests.link 1 with rx := [(14, { prev := Tests.prev, cur := (List.range 4).map (Tests.crcSlot Tests.prev) })] }
     let w := (s.rxOf 14).cur ++ [Tests.idle]
     s.active 14 = true ∧ (s.rxOf 14).cur.length = 4 ∧ (s.rxOf 14).prev ≠ [] ∧ (s.rxOf 14).badWins = [] ∧ (∀ y ∈ w, slotValid y = false) ∧
     (windowCrc (s.rxOf 14).prev).toNat = Claims.slotField w 0 + 2 ^ 16 * Claims.slotField w 1 + 2 ^ 32 * Claims.slotField w 2 + 2 ^ 48 * Claims.slotField w 3 ∧
     Claims.slotField w 4 = (s.rxOf 14).expect ∧ Claims.slotField (s.rxOf 14).prev 6 % 2 = 0) ∧
    (let s : State := { Tests.link 1 with rx := [(14, { prev := Tests.prev, cur := List.replicate 4 Tests.idle })] }
     let w := (s.rxOf 14).cur ++ [Tests.idle]
     (∀ vc, vc < 11 → segments (s.rxOf 14).prev (s.rxOf 14).fwdPrev vc = []) ∧
     (windowCrc (s.rxOf 14).prev).toNat ≠ Claims.slotField w 0 + 2 ^ 16 * Claims.slotField w 1 + 2 ^ 32 * Claims.slotField w 2 + 2 ^ 48 * Claims.slotField w 3) := by
  decide +kernel

theorem witness_RetryAndCodewords :
    (∀ c ∈ [[], [Tests.idle]], (let s : State := { Tests.link 1 with tx := [(14, { cur := c, buf := [⟨0, [Tests.idle]⟩] })] }
      s.active 14 = true ∧ s.dice = [] ∧ (s.txOf 14).buf ≠ [] ∧ (∀ w ∈ (s.txOf 14).buf, w.slots ≠ []) ∧ s.rd F.portLlstatTxState 14 = 1 ∧
      (s.txOf 14).replayFrom ≠ ((s.txOf 14).buf.head?).map (·.seq) ∧ 1 ≤ s.retryLimit 14 ∧ (s.txOf 14).cur = c)) ∧
    (Tests.p14 3).stage 14 = Stage.lock ∧ 15 + 0 + 0 + 0 ≤ 15 ∧ 15 < 4 + 4 + 4 + 4 ∧
    (({ Tests.p14 3 with rx := [(14, { lockRun := 15 })] } : State).rxOf 14).lockRun + 1 = 16 ∧
    (Tests.link 2).active 14 = true ∧ (Tests.link 2).rd F.portLlstatRxState 14 = 2 ∧ ((Tests.link 2).rxOf 14).uncorrRun < 3 ∧
    ((Tests.link 2).rxOf 14).uncorrAt.length < 15 := by decide +kernel

theorem witness_PortsComeUp : (Tests.p14 1).stage 14 = Stage.detect ∧ ((Tests.p14 1).port 14).noPeer = false ∧
    (let s : State := { Tests.p14 2 with ports := [(14, { shortNow := true })] }
     s.stage 14 = Stage.train ∧ (s.port 14).wait = .none ∧ (s.port 14).shortNow = true) ∧
    (let s : State := { Tests.p14 2 with ports := [(14, { wait := .s1 })] }
     s.stage 14 = Stage.train ∧ (s.port 14).wait ≠ .none) ∧
    (Tests.p14 0).stage 14 = Stage.deep ∧ ((Tests.p14 0).wr F.laneCtlDeep 0 14).flag F.laneCtlDeep 14 = false ∧ (Tests.p14 0).portPlan 14 = none := by decide +kernel

theorem witness_BringUpFailures : ((Tests.p14 2).stage 14 = Stage.train ∧ ((Tests.p14 2).port 14).wait = .none ∧ ((Tests.p14 2).port 14).shortNow = false) ∧
    (Tests.p14 3).stage 14 = Stage.lock ∧ ((Tests.p14 4).stage 14 = Stage.caps ∧ ((Tests.p14 4).port 14).capsRun = 0) ∧
    (Tests.p14 2).bringupLimit 14 = 8 ∧ Nat.min (((Tests.p14 2).wr F.laneStatFails 7 14).rd F.laneStatFails 14 + 1) 127 = 8 := by decide +kernel

/-- A training word with its CRC. -/
def Tests.word (body : BitVec 64) : BitVec 64 := body ||| ((trainCrc body).setWidth 64 <<< 56)

def Tests.sense : TrainSense := ⟨false, false, true, 0, 0, 0, 0, []⟩

/-- Port 14 in TRAIN, its four lanes seen in place, with coefficients PRE and POST. -/
def Tests.training (f : LaneSt → LaneSt) : State :=
  { Tests.p14 2 with lanes := (List.range 4).map fun k => (56 + k, f { seen := true, farLane := k, pre := -4, post := -8 }) }

/-- Each preset code and the two reserved ones; an increment within the range and at its end; a reserved request. -/
theorem witness_TrainingFrames : (trainCrc (1 <<< 56)).toNat ≠ bitsOf (1 <<< 56) 56 8 ∧
    (∀ e ∈ [(Tests.word 1, 0), (Tests.word 65, 1), (Tests.word 129, 2), (Tests.word 193, 3), (Tests.word 257, 4), (Tests.word 321, 5), (Tests.word 385, 6), (Tests.word 449, 7)],
      Claims.GoodFrame (Tests.training id) 14 1 e.1 Tests.sense ∧ bitsOf e.1 6 3 = e.2) ∧
    ((Tests.training id).lane 57).answered = false ∧ presetOf 5 = some (-8, -20) ∧ presetOf 6 = none ∧
    bitsOf (Tests.word 5) 2 2 = 1 ∧ coeffOk (-4 + 1) (-8) = true ∧ coeffOk (0 + 1) (-8) = false ∧
    ((Tests.training fun y => { y with pre := 0 }).lane 57).pre = 0 ∧ Claims.GoodFrame (Tests.training fun y => { y with pre := 0 }) 14 1 (Tests.word 5) Tests.sense ∧
    bitsOf (Tests.word 13) 2 2 = 3 ∧
    (let s := Tests.training fun y => { y with ownReady := true, farReady := 2 }
     Claims.GoodFrame s 14 1 (Tests.word (1 + 1024)) Tests.sense ∧ bitsOf (Tests.word (1 + 1024)) 10 1 = 1 ∧
     ∀ j, j < 4 → (s.lane (4 * 14 + j)).ownReady = true ∧ (s.lane (4 * 14 + j)).farReady = 2) := by
  unfold Claims.GoodFrame; refine ⟨?_, ?_, ?_⟩ <;> decide +kernel

/-- The CAPS block of the endpoint in 11's example: ROLE 1, PORT 2, TRAY 0x4C (tray 12, position 2), with ACK and GO as given. -/
def Tests.caps (flags port : Nat) : Flit :=
  let body := leBytes 4 0x53504143 ++ [0] ++ leBytes 1 (1 + flags) ++ [4, 0] ++ leBytes 2 0 ++ leBytes 1 port ++ leBytes 19 0 ++ [0x4C] ++ leBytes 29 0
  flitOf (body ++ leBytes 4 (crc32c body).toNat)

/-- Port 14 in CAPS, which the plan gives to member 2 of group 3 in compute tray 12, with two blocks like `b` seen. -/
def Tests.inCaps (b : Flit) (y : PortSt) : State :=
  { Tests.p14 4 with ports := [(14, { y with capsLast := b, capsRun := 2 })], tray := 3, plan := { ports := [(256 * 3 + 14, ⟨0, 0x62, 2, 12, 2, 0x62, 2, none⟩)] } }

theorem test_caps_block_matches_plan : (Tests.inCaps 0 {}).capsHold 14 (Tests.caps 0 2) = 0 ∧ (Tests.inCaps 0 {}).capsHold 14 (Tests.caps 0 3) = 2 := by decide +kernel

/-- The block that holds the port (its far port is wrong), and the block of the example without ACK, with ACK, and with both. -/
theorem witness_CapabilityExchange : capsValid 0 = false ∧ capsValid (Tests.caps 0 2) = true ∧ capsCore (Tests.caps 0 2) ≠ capsCore ((Tests.p14 4).port 14).capsLast ∧
    (let s := Tests.inCaps (Tests.caps 0 3) {}
     capsValid (Tests.caps 0 3) = true ∧ s.stage 14 = Stage.caps ∧ 2 ≤ (s.port 14).capsRun ∧ capsField (Tests.caps 0 3) 6 1 = 4 ∧
     s.capsHold 14 (Tests.caps 0 3) ≠ 0 ∧ s.rd F.laneStatHoldCode 14 ≠ s.capsHold 14 (Tests.caps 0 3)) ∧
    (∀ f ∈ [0, 2, 6], (let s := Tests.inCaps (Tests.caps 0 2) { ack := true, go := true }
      capsValid (Tests.caps f 2) = true ∧ capsCore (Tests.caps f 2) = capsCore (s.port 14).capsLast ∧ s.stage 14 = Stage.caps ∧ 2 ≤ (s.port 14).capsRun ∧
      capsField (Tests.caps f 2) 6 1 = 4 ∧ s.capsHold 14 (Tests.caps f 2) = 0 ∧ capsField (Tests.caps f 2) 5 1 / 8 % 2 = 0)) := by decide +kernel

theorem witness_LanesLoseTheirLink : ((Tests.p14 3).port 14).wait = .none ∧ (Tests.p14 3).stage 14 = Stage.lock ∧ (Tests.p14 4).stage 14 = Stage.caps ∧
    ((Tests.training fun y => { y with signal := true }).lane (4 * 14 + 3)).signal = true ∧ (Tests.p14 5).stage 14 = Stage.active ∧ (Tests.p14 5).dice = [] ∧
    ((1 : Nat) ^ 10 * 10 ^ (Tests.p14 5).rd F.laneCtlDegrade 14 ≤ 1000000 ^ 10) ∧ ((1000 : Nat) ^ 10 < 1000 ^ 10 * 10 ^ (Tests.p14 5).rd F.laneCtlDegrade 14) ∧
    ((Tests.p14 5).rxOf 14).degradeRun < 2 ∧ 2 ≤ (({ Tests.p14 5 with rx := [(14, { degradeRun := 2 })] } : State).rxOf 14).degradeRun := by decide +kernel

theorem witness_LaneMeasurement : ((Tests.p14 5).lane 56).hours < ((Tests.p14 5).lane 56).snapHours + 7200 ∧
    (({ Tests.p14 5 with lanes := [(56, { hours := 7200 })] } : State).lane 56).snapHours + 7200 ≤ (({ Tests.p14 5 with lanes := [(56, { hours := 7200 })] } : State).lane 56).hours ∧
    ((Tests.p14 5).ledger.laneBase.getD 56 emptyLaneRec).kind ≠ 1 ∧
    ((Tests.p14 6).wr F.laneCtlTest 1 14).stage (56 / 4) = Stage.test ∧ ((Tests.p14 6).wr F.laneCtlTest 1 14).rd F.laneCtlTest (56 / 4) ≠ 0 := by decide +kernel

/-! ### Witnesses: packets, flows, switch core -/

/-- The plane A module of group 7 in slice 7 of 03's example: member 2 on port 14, global link 0 to group 1 on port 100, both ACTIVE; the first SPRAY entry
for group 1 is the direct path on link 0. -/
def Tests.fab : State :=
  let s : State :=
    { tray := 7, plan := { ports := [(256 * 7 + 14, ⟨0, 0xE2, 2, 12, 2, 0xE2, 2, none⟩)] },
      tables := { memberPorts := [(16, 15)], globalPorts := [(16, 101)], sliceLset := [(7, 0x1000F00C3)], sliceCols := [(7, 0xF00F)], portSlice := [(14, 0x107)],
                  spray := [(1024 * 7 + 64, 0x170)] } }
  ((s.wr F.laneStatStage 5 14).wr F.laneStatStage 5 100)

/-- A TC0 packet from endpoint `src` to `dst` of slice 7, with the path 0x70. -/
def Tests.pkt (src dst : Nat) : Packet := mkPacketF (mkHdr [(H.src, src), (H.dst, dst), (H.slice, 7), (H.spray, 0x70)]) []

def Tests.inp (p : Packet) (ended : Bool) (r : Route) : InPkt := { flits := p.hdr :: p.pay, ended := ended, crc := p.crc, route := r }

/-- A head with a wrong HCRC; one in transit on port 96; one from the member on port 14, with room in its flow and without. -/
theorem witness_PacketHeads :
    (let p : InPkt := { flits := [1] }
     let s : State := { Tests.fab with inq := [(16 * 96, [p])] }
     Claims.HeadWaits s (16 * 96 + 0) p [] ∧ s.dice = [] ∧ ∃ e ∈ s.checksOf 96 p.hdr, e.2.2 = true) ∧
    (let p := Tests.inp (Tests.pkt 0xC3 0x22) false .undecided
     let s : State := { Tests.fab with inq := [(16 * 96, [p])] }
     Claims.HeadWaits s (16 * 96 + 0) p [] ∧ Claims.HeadGood s 96 p.hdr ∧ s.isMemberPort 96 = false ∧
       (s.routeOf p.hdr 96 (some 0) false).1.route = .forward 100 0 ∧ Claims.NotTooLong p (s.routeOf p.hdr 96 (some 0) false).1.hdr) ∧
    (let p := Tests.inp (Tests.pkt 0xE2 0x22) false .undecided
     let s : State := { Tests.fab with inq := [(16 * 14, [p])] }
     let d := (s.routeOf (hset (hsets p.hdr [(H.hops, 0), (H.esc, 0), (H.spray, 0), (H.flowSeq, 0)]) H.flowSeq 0) 14 none true).1
     Claims.HeadWaits s (16 * 14 + 0) p [] ∧ Claims.HeadGood s 14 p.hdr ∧ s.isMemberPort 14 = true ∧ hget p.hdr H.ptype ≠ PT.gate ∧
       s.epFenced (hget p.hdr H.dst) = false ∧ s.flowRoom (flowKey (flowOf p.hdr)) (14 / 36) (hget p.hdr H.len + 1) = true ∧
       d.route = .forward 100 0 ∧ Claims.NotTooLong p d.hdr ∧ sequenced p.hdr = true ∧
       (({ s with inFlows := [(flowKey (flowOf p.hdr), { entries := List.replicate 16 ⟨0, ⟨0, [], 0⟩, 14, 0, true, 0, 0, 0, 0, .endpoint⟩ })] } : State).wr F.qswE2ecfg2FlowWindow 16 0).flowRoom
         (flowKey (flowOf p.hdr)) (14 / 36) (hget p.hdr H.len + 1) = false) := by
  unfold Claims.HeadWaits Claims.HeadGood Claims.NotTooLong; decide +kernel

/-- The output packet that port 96 feeds, of which `n` flits have left. -/
def Tests.fed (n : Nat) : OutPkt := { flits := [(Tests.pkt 0xC3 0x22).hdr], sent := n, src := some (16 * 96) }

/-- 03 R461, 14 R336: a COMMAND with DSEQ 5 for the module of group 1 leaves by the HUB generator of quadrant 1 (151) as a CTRL packet (10) of TC4
with SMOD = DMOD = 1, DVER 1 and DCLASS 4 in bytes 16 and 17, DSEQ in bytes 24 to 31; one for a module without a link is left to Ethernet. -/
theorem test_ctrl_packet : (let s := Tests.fab.wr F.hubIdStatMainOn 1
    let w (d : Nat) : DrpWire := { dest := d, dclass := 4, dtype := 1, cterm := 3, seq := 5, agent := d, digest := 0, rtime := 9, body := [] }
    let t := s.carryOne (w 1)
    let o : OutPkt := (t.outqOf (16 * 100 + 8)).headD (Tests.fed 0)
    let f := o.flits.headD 0
    o.gen = 151 ∧ [H.ptype, H.tc, H.dst, H.slice, H.smod, H.dmod, H.len].map (hget f) = [10, 4, 1, 0, 1, 1, 0] ∧
      bitsOf ((f >>> 128).setWidth 64) 0 16 = 0x0401 ∧ bitsOf ((f >>> 192).setWidth 64) 0 64 = 5 ∧ s.carryOne (w 2) = s) := by decide +kernel

/-- A whole packet of one flit, its head decided. -/
def Tests.tail (fs : List (HF × Nat)) (r : Route) : InPkt := { flits := [mkHdr fs], ended := true, crc := e2eCrc (mkHdr fs) [], route := r }

/-- A tail of a discarded packet, of a good one in transit, of one with a wrong CRC, and of one for this module. -/
theorem witness_PacketTails :
    (let p := Tests.inp (Tests.pkt 0xC3 0x22) true .discard
     Claims.TailCame { Tests.fab with inq := [(16 * 96, [p])] } (16 * 96 + 0) p [] ∧ p.route = .discard) ∧
    (let p := Tests.tail [(H.src, 0xC3), (H.dst, 0x22), (H.slice, 7)] (.forward 100 0)
     let s : State := { Tests.fab with inq := [(16 * 96, [p])], outq := [(16 * 100, [Tests.fed 0])] }
     Claims.TailCame s (16 * 96 + 0) p [] ∧ p.route = .forward 100 0 ∧ p.broken = 0 ∧ p.stomp = false ∧ s.dice = [] ∧ p.flits.length = hget p.hdr H.len + 1 ∧
       p.crc = e2eCrc p.hdr (p.flits.drop 1) ∧ s.outqOf (16 * 100 + 0) = [Tests.fed 0] ∧ (Tests.fed 0).src = some (16 * 96 + 0) ∧ (Tests.fed 0).whole = false ∧
       ({ p with crc := 0 } : InPkt).crc ≠ e2eCrc p.hdr (p.flits.drop 1) ∧ s.isMemberPort 96 = false ∧ 0 < (Tests.fed 1).sent) ∧
    (let p := Tests.tail [(H.ptype, 2), (H.src, 0xC3), (H.dst, 7), (H.dmod, 1), (H.slice, 7)] .local_
     let s : State := { Tests.fab with inq := [(16 * 96, [p])] }
     Claims.TailCame s (16 * 96 + 0) p [] ∧ p.flow = none ∧ p.flits.length = hget p.hdr H.len + 1 ∧ p.crc = e2eCrc p.hdr (p.flits.drop 1) ∧ sequenced p.hdr = true ∧
       hget p.hdr H.mcast = 0 ∧ hget p.hdr H.dmod = 1 ∧ hget p.hdr H.flowSeq = (s.egFlow (flowKey (flowOf p.hdr))).expect ∧
       (s.egFlow (flowKey (flowOf p.hdr))).held = [] ∧ (s.egFlow (flowKey (flowOf p.hdr))).sinceAck < 31 ∧
       ((s.egFlow (flowKey (flowOf p.hdr))).expect + 1) % 65536 ∉ (s.egFlow (flowKey (flowOf p.hdr))).dropped) := by
  unfold Claims.TailCame; decide +kernel

theorem witness_EscapeMoves : (let s : State := { Tests.fab with outq := [(16 * 100, [Tests.fed 0])] }
    s.outqOf (16 * 100 + 0) = [] ++ Tests.fed 0 :: [] ∧ (Tests.fed 0).sent = 0 ∧ (Tests.fed 0).flits ≠ [] ∧
    (s.escapeRoute ((Tests.fed 0).flits.headD 0) (Tests.fed 0).gen ((Tests.fed 0).src.map fun x => x % 16)).1.route = .forward 100 8) := by decide +kernel

/-- The flow from 0xE2 to module 7 in TC0, and a replay entry of it. -/
def Tests.flow : FlowId := { src := 0xE2, dst := 0x22, smod := false, dmod := false, tc := 0, plane := false, cast := 0 }

def Tests.entry (n : Nat) : Replay := { seq := n, pkt := Tests.pkt 0xE2 0x22, gen := 14, quad := 0 }

def Tests.ctl (t kind ncause : Nat) : Packet :=
  mkPacketF (mkHdr [(H.ptype, t), (H.fsrc, 0xE2), (H.fdst, 0x22), (H.kind, kind), (H.aseq, 3), (H.ncause, ncause), (H.rcount, 1)]) []

/-- A packet that waits for a unit, all its flits there. -/
def Tests.lp (p : Packet) : LocalPkt := { pkt := p, quad := 0, core := 6, chg := {} }

/-- An ACK due and one that is not; a unicast ACK; a cast ACK for an entry that is retained. -/
theorem witness_Acknowledgements : Tests.flow.cast = 0 ∧
    0 < (({ Tests.fab with egFlows := [(flowKey Tests.flow, { sinceAck := 4 })] } : State).egFlow (flowKey Tests.flow)).sinceAck ∧
    (Tests.fab.egFlow (flowKey Tests.flow)).sinceAck = 0 ∧
    (∀ k ∈ [0, 1], (let p := Tests.ctl 8 k 0
      let s : State := { Tests.fab with local_ := [Tests.lp p], inFlows := [(flowKey { Tests.flow with cast := k }, { entries := [Tests.entry 3] })] }
      (s.takeLocal (isType PT.e2eAck)).map (fun x => (x.1, x.2.1)) = some (p, 0) ∧ hget p.hdr H.kind = k ∧
        s.entry? (flowKey (flowNamed s p.hdr)) (hget p.hdr H.aseq) = some (Tests.entry 3))) := by decide +kernel

/-- Of two packets of one flow only the first may be taken, of two flows the second as well. -/
theorem witness_UnitsTakeTheFirst :
    (let a := Tests.lp (Tests.ctl 8 0 0)
     let l := Tests.lp (Tests.ctl 9 0 0)
     let s : State := { local_ := [a, l] }
     s.local_ = [a] ++ l :: [] ∧ isType PT.e2eNack l.pkt.hdr = true ∧ l.chg.due = 0 ∧ l.chg.near = 0 ∧ isType PT.e2eNack a.pkt.hdr = false ∧
       sequenced a.pkt.hdr = false) ∧
    (∀ l ∈ ({} : State).local_, isType PT.e2eAck l.pkt.hdr = false) := by decide +kernel

theorem witness_NacksTimeoutsAndFlowErrors :
    (({ Tests.fab with egFlows := [(flowKey Tests.flow, { seen := some 5 })] } : State).egFlow (flowKey Tests.flow)).gapOn = true ∧
    (Tests.fab.egFlow (flowKey Tests.flow)).gapOn = false ∧
    (let p := Tests.ctl 9 0 0
     let s : State := { Tests.fab with local_ := [Tests.lp p], inFlows := [(flowKey Tests.flow, { entries := [Tests.entry 3] })] }
     (s.takeLocal (fun h => isType PT.e2eNack h && hget h H.ncause ≠ 4)).map (fun x => (x.1, x.2.1)) = some (p, 0) ∧
     s.entry? (flowKey (flowNamed s p.hdr)) (hget p.hdr H.aseq) = some (Tests.entry 3) ∧
     hget p.hdr H.rcount + (Tests.entry 3).resends ≤ s.replayLimit 0 ∧ (Tests.entry 3).complete = true ∧ (Tests.entry 3).origin = .endpoint ∧
     (s.cellReads 0 3 [] [1]).2.2 = false ∧ (s.cellReads 0 3 [⟨.ue, 0, 0, false⟩] [1]).2.2 = true ∧
     s.replayLimit 0 < hget p.hdr H.rcount + ({ Tests.entry 3 with resends := 8 } : Replay).resends ∧
     (s.inFlow (flowKey Tests.flow)).entries = [Tests.entry 3] ∧ (Tests.entry 3).nacks + (Tests.entry 3).resends < s.replayLimit 0 ∧
     s.replayLimit 0 ≤ ({ Tests.entry 3 with nacks := 8 } : Replay).nacks) ∧
    (let p := mkPacketF (mkHdr [(H.ptype, 9), (H.fsrc, 0xC3), (H.fdst, 0xE3), (H.kind, 0), (H.ncause, 4)]) []
     let s : State := { Tests.fab with local_ := [Tests.lp p] }
     (s.takeLocal (fun h => isType PT.e2eNack h && hget h H.ncause = 4)).map (fun x => (x.1, x.2.1)) = some (p, 0) ∧
     ingressModule (flowNamed s p.hdr) ≠ s.self ∧ (flowNamed s p.hdr).dmod = false ∧
     (flowNamed s p.hdr).cast = 0 ∧ s.memberLinks ((flowNamed s p.hdr).dst % 32) = []) := by decide +kernel

theorem witness_StalledEndpoints : (let s : State := { Tests.fab with outq := [(16 * 14, [Tests.fed 0])] }
    0xE2 / 32 % 16 = s.group ∧ (∀ p ∈ s.memberPortsOf (0xE2 % 32), p < 144) ∧ ∃ p ∈ s.memberPortsOf (0xE2 % 32), s.active p = true ∧ s.outqOf (16 * p + 0) ≠ []) := by
  decide +kernel

theorem witness_TableGenerations : (let s : State := ({ State.reset with agent := { pendingSwitch := some (65535, 0) } } : State).wr F.hubIdStatMainOn 1
    s.agent.pendingSwitch = some (65535, 0) ∧ 65535 < 65536 ∧ 0 ≤ s.rackTime ∧ s.flag F.hubIdStatMainOn = true ∧ s.waitCmds = []) ∧
    State.reset.rackTime < 1 ∧ State.reset.agent.pendingSwitch = none := by decide +kernel

/-- Each arbiter past its threshold, and not. -/
theorem witness_Promotions :
    (∀ c ∈ [101, 2000000], (let s : State := { (State.reset.wr F.memcStatState 1).wr F.memcScrubEn 1 3 with scrubClock := [(3, c)] }
      s.memReady = true ∧ s.flag F.memcScrubEn (63 / 16) = true ∧
        (c = 101 ∧ ¬Claims.Past (s.scrubAge 63) (s.rd F.memcScrubPromo (63 / 16)) ∨ Claims.Past (s.scrubAge 63) (s.rd F.memcScrubPromo (63 / 16))))) ∧
    (∀ c ∈ [100, 65534], (let s : State := { State.reset with ledger := { queue := [⟨4, 0, [], none, c⟩] }, pair := { selftestAge := c } }
      s.ledger.queue = [⟨4, 0, [], none, c⟩] ∧ (Claims.Past c (s.rd F.ledgArbPromo) ↔ c = 65534) ∧
        (Claims.Past s.pair.selftestAge (s.rd F.condSelftestPromo) ↔ c = 65534))) ∧ State.reset.ledger.queue = [] ∧
    (∀ c ∈ [100, 65534], (let s : State := { Tests.link 1 with
        vcbuf := [(16 * 14, { resCells := 100000, allow := 200000, waits := true, age := c })], tx := [] }
      s.waiters 0 = [16 * 14] ∧ 0 < s.sharedFree 0 ∧ s.ires 0 ≤ (s.vcb (16 * 14)).resCells ∧
        (Claims.Past (s.vcb (16 * 14)).age (s.rd F.qswBufarbPromo 0) ↔ c = 65534))) ∧
    (∀ n ∈ [100, 70000], (let s : State := { Tests.s1 with tick := n, insts := [(65536 * 5 + 7, {})] }
      (65536 * 5 + 7, ({} : Instance)) ∈ s.waitingInsts 0 ∧ (Claims.Past (s.waitAge {}) (s.rd F.pipDealcfgPromo 0) ↔ n = 70000))) := by
  unfold Claims.Past; decide +kernel

/-! ### Witnesses: fabric memory, PCIe, Ethernet -/

def Tests.memPkt (t slice tag : Nat) : Packet :=
  { hdr := mkHdr [(H.ptype, t), (H.len, 1), (H.slice, slice), (H.faddr, 0x7FFC0), (H.bytes, 64), (H.cpl, 1), (H.tag, tag)], pay := [1], crc := 0 }

/-- Slice 7's region ends at 0x80000: its last word may be read and written; slice 8 has none. A request behind a packet of another type, whose
bytes just fit in the staging area. -/
theorem witness_MemoryRequests :
    (∀ k ∈ [(PT.memWr, 7), (PT.memWr, 8), (PT.memRdReq, 7), (PT.memRdReq, 8)], (let p := Tests.memPkt k.1 k.2 9
      let l := { Tests.lp p with quad := 2 }
      let s : State := { Tests.s1 with local_ := [l] }
      (s.takeRequest k.1).map (fun x => (x.1, x.2.1)) = some (p, 2) ∧ (s.mstatusOf p.hdr (k.1 = PT.memWr) = 0 ↔ k.2 = 7) ∧ hget p.hdr H.poison = 0 ∧
        hget p.hdr H.bytes ≤ (payBytes p).length ∧ s.dice = [] ∧ ∀ w ∈ wordsOf (hget p.hdr H.faddr % 2 ^ 48) (hget p.hdr H.bytes), w ∉ s.memPoison)) ∧
    (let p := Tests.memPkt PT.memRdReq 7 9
     let l := { Tests.lp p with quad := 2 }
     let e := Tests.lp (mkPacketF (mkHdr [(H.ptype, PT.memWr), (H.src, 9)]) [])
     let s : State := { Tests.s1 with local_ := [e] ++ l :: [], memReads := { tag := 4, req := mkHdr [(H.bytes, 4032)], quad := 2, words := [] } :: List.replicate 511 { tag := 4, req := mkHdr [(H.bytes, 4096)], quad := 2, words := [] } }
     l.chg.due = 0 ∧ l.chg.near = 0 ∧ s.stagingUsed l.quad false + hget p.hdr H.bytes = 2097152 ∧ isType PT.memRdReq e.pkt.hdr = false ∧
       flowOf e.pkt.hdr ≠ flowOf p.hdr) ∧
    (∀ b ∈ [false, true], (let r : MemRead := { tag := 4, req := 0, quad := 0, words := [(1, b)] }
      ({ Tests.s1 with memReads := [r] } : State).memReads.find? (fun r => decide (r.tag = 4)) = some r ∧ ∃ w ∈ r.words, w.2 = b)) ∧
    (∀ own ∈ [[9], []], (let p := Tests.memPkt PT.memRdRsp 7 9
      let s : State := { Tests.s1 with local_ := [Tests.lp p], ownReqs := own }
      (s.takeLocal (isType PT.memRdRsp)).map (fun x => (x.1, x.2.1)) = some (p, 0) ∧ (hget p.hdr H.tag ∈ s.ownReqs ↔ own = [9]))) := by decide +kernel

/-- Memory not started, READY with its scrub on, and neither. -/
theorem witness_MemoryChannels :
    (let s := State.reset.wr F.hubIdStatMainOn 1
     s.flag F.hubIdStatMainOn = true ∧ s.rd F.memcStatState = 0) ∧ (∃ c ∈ [63], c < 64) ∧
    (let s := (State.reset.wr F.memcStatState 1).wr F.memcScrubEn 1 3
     s.phys.resetKind ≠ some true ∧ s.rd F.memcStatState = 1 ∧ s.memReady = true ∧ s.flag F.memcScrubEn (63 / 16) = true ∧ s.dice = [] ∧
     memAddr 63 (64 * s.scrubPos.getD 63 0) / 64 ∉ s.memPoison) ∧
    State.reset.phys.resetKind ≠ some true ∧ State.reset.rd F.memcStatState ≠ 1 := by decide +kernel

/-- The window at its last gibibyte (953), an access that ends at the top of memory in service, and one beyond. -/
def Tests.pcie : State := (((State.reset.wr F.memcStatState 1).wr F.memcTopTop 1024000000000).wr F.hubPcieWinBase 0).wr F.hubPcieDmactlRingSize 16 7

theorem witness_PcieWindow : 64 + 64 ≤ 2 ^ 36 ∧ Tests.pcie.bar2Ok (Tests.pcie.winBase + 64) 64 = true ∧ Claims.CleanWords Tests.pcie (Tests.pcie.winBase + 64) 64 ∧
    2 ^ 36 < (2 ^ 36 - 1) + 2 ∧ State.reset.bar2Ok (State.reset.winBase + 64) 64 = false :=
  ⟨by decide, by decide +kernel, ⟨by decide, by decide +kernel⟩, by decide, by decide +kernel⟩

theorem witness_PcieDma : Tests.pcie.flag F.hubPcieDmactlRun 7 = false ∧ (Tests.pcie.wr F.hubPcieDmactlRun 1 7).flag F.hubPcieDmactlRun 7 = true ∧
    (∀ dir ∈ [false, true], (let s := Tests.pcie.wr F.hubPcieDmactlRun 1 7
      let d : HostDesc := ⟨0x1000, 1024000000000 - 64, 64, true, dir, false⟩
      Claims.DmaRuns s 7 ∧ d.own = true ∧ d.irq = false ∧ d.bytes ≠ 0 ∧ d.bytes ≤ 16777216 ∧ s.bar2Ok (d.faddr % 2 ^ 48) d.bytes = true ∧
        Claims.CleanWords s (d.faddr % 2 ^ 48) d.bytes)) ∧
    (Tests.pcie.wr F.hubPcieDmactlRun 1 7).bar2Ok (1024000000000 - 63) 64 = false ∧ 7 ∉ Tests.pcie.dmaRecheck ∧ 7 ∈ ({ Tests.pcie with dmaRecheck := [7] } : State).dmaRecheck := by
  refine ⟨by decide +kernel, by decide +kernel, fun dir h => ?_, by decide +kernel, by decide +kernel, by decide +kernel⟩
  simp only [List.mem_cons, List.not_mem_nil, or_false] at h
  rcases h with rfl | rfl <;>
    exact ⟨⟨by decide, by decide +kernel, by decide +kernel⟩, by decide, by decide, by decide, by decide, by decide +kernel, ⟨by decide, by decide +kernel⟩⟩

/-- Port 3 with its link, an address and a tunnel to member 2 of group 7. -/
def Tests.eth : State :=
  let s : State := { Tests.fab with ethAddr := [(12, 0x0A000001)], tables := { Tests.fab.tables with tunnels := [(4, { valid := true, slice := 7, port := 3, sub := 0, remote := 0x0A000002, keyRx := 77 })] } }
  (s.wr F.ethStatLink 1 3).wr F.ethGatecfgUdpPort 5000 3

def Tests.frame (k : FrameKind) (bytes : List Byte) : Frame :=
  ⟨k, 0, 0, 0, 0x0A000002, 0x0A000001, 4, 0, 64, 1, 5000, 0, true, bytes⟩

/-- A down port; a request to the port's address; a frame nobody takes; a tunnel frame with a wrong key; a good one; a pause frame. -/
theorem witness_EthernetFramesReceived : Tests.eth.ethUp 3 1 = false ∧ Tests.eth.ethUp 3 0 = true ∧ (Tests.frame .icmp []).dstIp ∈ Tests.eth.ownAddrs 3 ∧
    (Tests.frame .other []).kind = .other ∧ (Tests.frame .udp []).dstPort = Tests.eth.rd F.ethGatecfgUdpPort 3 ∧
    Tests.eth.tunnelOf 3 0 (fieldAt (Tests.frame .udp []).bytes 8 4) 0x0A000002 = none ∧
    (let f := Tests.frame .udp ([1, 0, 1, 0, 0, 0, 0xE2, 0, 77, 0, 0, 0] ++ List.replicate 21 0)
     (Tests.eth.tunnelOf 3 0 (fieldAt f.bytes 8 4) f.srcIp).isSome = true ∧ f.dstIp ∈ Tests.eth.ownAddrs 3 ∧ (f.csum ≠ 0 → f.csumOk = true) ∧ fieldAt f.bytes 0 1 = 1 ∧
     f.bytes.length = 32 + fieldAt f.bytes 2 2 ∧ fieldAt f.bytes 2 2 ≤ 4096 ∧ Tests.eth.epInSlice 7 (fieldAt f.bytes 6 2 % 512) = true) ∧
    (Tests.frame .pfc []).kind = .pfc := by decide +kernel

theorem witness_EthernetFramesSent :
    (let s : State := { Tests.eth with eth := [(6, { outq := [Tests.frame .udp []], outBytes := 46 })] }
     s.ethUp 3 0 = true ∧ (s.ethOf (2 * 3 + 0)).outq = [Tests.frame .udp []] ∧ (s.ethOf (2 * 3 + 0)).paused.testBit (Tests.frame .udp []).prio = false) ∧
    (Tests.eth.ethOf (2 * 3 + 1)).outq = [] ∧
    (let s := (State.reset.wr F.hubIdStatMainOn 1).wr F.ethCfgMode 2 7
     s.flag F.hubIdStatMainOn = true ∧ s.phys.fatal = false ∧ s.rd F.ethCfgMode 7 = 2 ∧ s.ethUp 7 1 = false) ∧
    (let p : Packet := { hdr := mkHdr [(H.ptype, 11), (H.slice, 7), (H.tunnel, 4)], pay := [], crc := 0 }
     let tn := Tests.eth.tables.tunnels.getD (hget p.hdr H.tunnel) {}
     isType PT.gate p.hdr = true ∧ tn.valid = true ∧ tn.slice = hget p.hdr H.slice ∧ Tests.eth.ethUp tn.port tn.sub = true ∧ Tests.eth.dice = [] ∧
     (Tests.eth.ethOf (2 * tn.port + tn.sub)).outBytes + frameSize (Tests.eth.gateFrame tn p) ≤ 1048576 ∧
     (let s : State := { Tests.eth with eth := [(6, { outBytes := 1048576 })] }
      1048576 < (s.ethOf (2 * tn.port + tn.sub)).outBytes + frameSize (s.gateFrame tn p)) ∧ (Tests.eth.tables.tunnels.getD 5 {}).valid = false) := by decide +kernel

/-! ### Witnesses: commands of the module -/

def Tests.mb0 : MbxRef := ⟨.host, 0⟩

/-- A request with opcode `op` and payload `p` in mailbox 0, accepted. -/
def Tests.req (role : Role) (session op : Nat) (p : List Byte) : MbxSt :=
  { role := role, session := session, state := 2, req := { opcode := op, verMaj := 1, verMin := 0, token := 0, payload := p }, reqLen := p.length }

/-- `s` with that request. -/
def Tests.asks (s : State) (role : Role) (session op : Nat) (p : List Byte) : State := { s with mbx := [(0, Tests.req role session op p)] }

/-- One request that every reading command takes: its first word names table, class, slot, unit and index 0x0001; REG_READ has its own. -/
def Tests.readPl : List Byte := [1, 0, 0, 0, 0, 0, 4, 0]

def Tests.regPl : List Byte := leBytes 2 1 ++ leBytes 6 0 ++ leBytes 8 0x800000001

theorem witness_QueriesAnswer : (∀ q ∈ Claims.queries, (let p := if q.2.1 = 0x0010 then Tests.regPl else Tests.readPl
      ((Tests.asks Tests.s1 .host 0 q.2.1 p).ready? Tests.mb0 q.2.1).isSome = true ∧
      (q.2.2 (Tests.asks Tests.s1 .host 0 q.2.1 p) (Tests.req .host 0 q.2.1 p)).isSome = true)) ∧
    (∀ q ∈ Claims.queries, q.2.1 ∈ [0x0501, 0x0701, 0x0800, 0x0901] → (let p : List Byte := List.replicate 8 0xFF
      (q.2.2 (Tests.asks Tests.s1 .host 0 q.2.1 p) (Tests.req .host 0 q.2.1 p)).isNone = true)) ∧
    ((Tests.asks Tests.s1 .host 0 0x0602 []).ready? Tests.mb0 0x0602).isSome = true := by
  refine ⟨by decide +kernel, by decide +kernel, by decide +kernel⟩

/-- The state in which each setting command is in order, its role, session and request. -/
def Tests.setCases : List (State × Role × Nat × List Byte) :=
  let s := Tests.s1
  let unlocked : State := { s with plan := { s.plan with injection := true }, planLive := true, trust := { s.trust with attested := [9], unlock := some (9, 100) } }
  let prog : Program := { cls := 12, version := 1, flags := 0, entry := 0, code := [], codeLen := 0, data := [], channels := [], unchecked := false, digest := 0 }
  [(s, .host, 0, [1]), (s, .rm, 9, leBytes 8 65537 ++ leBytes 32 1), (s, .rm, 9, [0, 0, 31, 0, 1, 0, 0, 0] ++ leBytes 8 0xFF0E),
   (s, .rm, 9, leBytes 18 0 ++ [1]), (s, .rm, 9, leBytes 18 (2 ^ 143) ++ [2]),
   ({ s with insts := [] }, .peer, 5, leBytes 2 6 ++ leBytes 2 40 ++ [0, 0, 0, 0] ++ leBytes 2 0 ++ leBytes 2 0 ++ [0, 63] ++ leBytes 2 0 ++ leBytes 8 1048576 ++
      List.replicate 88 0),
   ({ s with insts := [] }, .host, 0, leBytes 2 5), ({ s with programs := [prog] }, .host, 0, leBytes 2 12),
   (s, .runtime, 9, [255] ++ leBytes 7 0 ++ leBytes 4 0 ++ leBytes 4 1 ++ [7, 3]),
   (s, .host, 0, leBytes 2 1023 ++ List.replicate 70 0), (s, .host, 0, leBytes 8 10),
   (s, .host, 0, leBytes 2 273 ++ [0, 1, 1, 0] ++ leBytes 2 0 ++ leBytes 4 65535), (s.wr F.errStatWriteIdx 2, .rm, 9, leBytes 2 1),
   (unlocked, .rm, 9, leBytes 2 0x0801 ++ [2, 0] ++ leBytes 4 0), (s, .rm, 9, leBytes 2 0xFFFF),
   (s, .rm, 9, [255] ++ leBytes 7 0 ++ [1, 7, 7, 1, 0, 0, 0, 0, 4] ++ leBytes 31 0), (s, .rm, 9, [7, 3, 6, 0] ++ leBytes 28 1)]

theorem witness_SettingsTakeEffect : Claims.settings.length = Tests.setCases.length ∧
    ∀ e ∈ Claims.settings.zip Tests.setCases, (let s := Tests.asks e.2.1 e.2.2.1 e.2.2.2.1 e.1.2.1 e.2.2.2.2
      (s.ready? Tests.mb0 e.1.2.1).isSome = true ∧
      (e.1.2.2 Tests.mb0 s (Tests.req e.2.2.1 e.2.2.2.1 e.1.2.1 e.2.2.2.2)).isSome = true) := by
  refine ⟨by decide, by decide +kernel⟩

theorem witness_RegisterAndScoresheetWrites :
    (let ok : List Byte := leBytes 2 1 ++ leBytes 6 0 ++ ([0x10, 0, 0, 0] ++ leBytes 4 0 ++ leBytes 8 1 ++ leBytes 8 1)
     let bad : List Byte := leBytes 2 1 ++ leBytes 6 0 ++ ([0x06, 0, 0, 0] ++ leBytes 4 0 ++ leBytes 8 1 ++ leBytes 8 1)
     ∀ p ∈ [ok, bad], (let s := Tests.asks State.reset .rm 9 0x0011 p
       s.ready? Tests.mb0 0x0011 = some (Tests.req .rm 9 0x0011 p) ∧ 1 ≤ fieldAt p 0 2 ∧ fieldAt p 0 2 ≤ 160 ∧ p.length = 8 + 24 * fieldAt p 0 2) ∧
       (Claims.entriesOf (Tests.asks State.reset .rm 9 0x0011 bad) (Tests.req .rm 9 0x0011 bad) true 1).2[0]? = some St.field ∧ (Claims.entriesOf (Tests.asks State.reset .rm 9 0x0011 ok) (Tests.req .rm 9 0x0011 ok) true 1).2[0]? = some 0) ∧
    (let p : List Byte := [1, 0, 0, 0] ++ leBytes 4 10 ++ leBytes 8 65536 ++ leBytes 2 2
     let s := Tests.asks State.reset .rm 9 0x0702 p
     s.ready? Tests.mb0 0x0702 = some (Tests.req .rm 9 0x0702 p) ∧ s.flag F.cntSscfgEn = false ∧ s.ssBusy = none ∧ fieldAt p 0 1 % 2 = 1 ∧ fieldAt p 0 1 / 2 % 2 = 0 ∧
       fieldAt p 8 8 % 65536 = 0 ∧ 10 ≤ fieldAt p 4 4 ∧ fieldAt p 4 4 ≤ 360000000 ∧ 2 ≤ fieldAt p 16 2) ∧
    (let p : List Byte := [0]
     let s := Tests.asks State.reset .rm 9 0x0702 p
     s.ready? Tests.mb0 0x0702 = some (Tests.req .rm 9 0x0702 p) ∧ fieldAt p 0 1 % 2 = 0 ∧ s.ssBusy = none) := by decide +kernel

/-- The last of each kind of unit. -/
theorem witness_UnitCommands :
    (∀ e ∈ ([(0x0804, [127]), (0x0805, [3, 0, 0xFF, 1]), (0x0900, [143, 1]), (0x0900, [143, 2]), (0x0806, [1, 0, 151, 0, 0]), (0x0806, [1, 0, 143, 0, 1]),
        (0x0407, [5, 0, 7, 0]), (0x0311, [1, 0])] : List (Nat × List Byte)), ∀ role ∈ [Role.rm, .host],
      (Tests.asks Tests.s1 role 0 e.1 e.2).ready? Tests.mb0 e.1 = some (Tests.req role 0 e.1 e.2)) ∧
    fieldAt [127] 0 1 < 128 ∧ fieldAt [3, 0, 0xFF, 1] 0 1 < 4 ∧ fieldAt [3, 0, 0xFF, 1] 2 2 < 512 ∧ fieldAt [143, 1] 0 1 < 144 ∧ fieldAt [143, 1] 1 1 % 4 = 1 ∧
    fieldAt [143, 2] 1 1 % 4 = 2 ∧ fieldAt [1, 0, 151, 0, 0] 2 2 < 152 ∧ fieldAt [1, 0, 151, 0, 0] 4 1 % 2 = 0 ∧ fieldAt [1, 0, 143, 0, 1] 4 1 % 2 = 1 ∧
    (Tests.s1.slot 5).bound = some Tests.b1 ∧ (Tests.s1.slot 5).helper = none ∧ Tests.s1.inst? 5 7 = some Tests.i1 ∧ Tests.i1.status = none := by decide +kernel

/-- A piece of an image: offset, total, flags, data. -/
def Tests.piece (off total flags : Nat) (d : List Byte) : List Byte := leBytes 4 off ++ leBytes 4 total ++ leBytes 1 flags ++ leBytes 7 0 ++ d

/-- A program of class 0x100 that holds one IDONE. -/
def Tests.image : List Byte :=
  leBytes 4 0x4F534F58 ++ [0, 0] ++ leBytes 2 0x100 ++ leBytes 4 1 ++ leBytes 4 0 ++ leBytes 4 0 ++ leBytes 4 1 ++ leBytes 232 0 ++
    leBytes 4 ((xoWord (.idone Tests.x0)).map fun e => e.2.toNat).get!

theorem witness_Images :
    (let p := Tests.piece 0 8 0 [1, 2]
     let s := Tests.asks State.reset .rm 9 0x0408 p
     s.ready? Tests.mb0 0x0408 = some (Tests.req .rm 9 0x0408 p) ∧ (fieldAt p 8 1).testBit 1 = false ∧
       (s.stagePiece 1 Tests.mb0 (Tests.req .rm 9 0x0408 p)).2 = .taken) ∧
    (let p := Tests.piece 0 260 1 Tests.image
     let s := Tests.asks State.reset .rm 9 0x0408 p
     s.ready? Tests.mb0 0x0408 = some (Tests.req .rm 9 0x0408 p) ∧ (s.stagePiece 1 Tests.mb0 (Tests.req .rm 9 0x0408 p)).2 = .whole Tests.image) ∧
    fieldAt Tests.image 0 4 = 0x4F534F58 ∧ fieldAt Tests.image 4 1 = 0 ∧
    ((programOf Tests.image).map fun pr => (State.reset.loaderDetail Tests.image pr false, decide (State.reset.codeUsed + pr.codeLen ≤ 16384))) = some (none, true) ∧
    (let p := Tests.piece 0 2 1 [7, 8]
     let s := Tests.asks State.reset .rm 9 0x0A00 p
     s.ready? Tests.mb0 0x0A00 = some (Tests.req .rm 9 0x0A00 p) ∧ s.trust.activating = false ∧
       (s.stagePiece 2 Tests.mb0 (Tests.req .rm 9 0x0A00 p)).2 = .whole [7, 8]) ∧
    (∀ kind ∈ [Staged.plan, .program, .firmware], ∀ f ∈ [false, true],
      (let n : Nat := match kind with | .plan => 0 | .program => 1 | .firmware => 2
       ∃ b, (({ stages := [(n, { owner := Tests.mb0, ownerSession := 0, total := 2, data := [], final := f })] } : State).stages.find n = some b ∧ b.final = f))) := by
  refine ⟨by decide +kernel, by decide +kernel, by decide +kernel, by decide +kernel, by decide +kernel, by decide +kernel, ?_⟩
  intro kind hk f hf
  cases kind <;> exact ⟨_, rfl, rfl⟩

/-- Firmware named by its hash, its FLOOR met and not met. -/
def Tests.fw (floor version : Nat) (op : Nat) (p : List Byte) : State :=
  let s := Tests.asks State.reset .rm 9 op p
  { s with trust := { s.trust with staged := leBytes 4 0x57465641 ++ leBytes 4 0 ++ leBytes 4 version, floorVersion := floor } }

/-- Its hash. -/
def Tests.fwHash : List Byte := leBytes 48 (sha384 (Tests.fw 3 3 0 []).trust.staged).toNat

/-- Where the keys of an image stand is open (`Config.avwynKey`), so that it verifies is a hypothesis here. -/
theorem witness_Firmware (hi : ∀ floor, (Tests.fw floor 3 0x0A01 Tests.fwHash).imageFails (Tests.fw floor 3 0x0A01 Tests.fwHash).trust.staged = none) :
    ∀ floor ∈ [3, 4], (let s := Tests.fw floor 3 0x0A01 Tests.fwHash
      s.ready? Tests.mb0 0x0A01 = some (Tests.req .rm 9 0x0A01 Tests.fwHash) ∧ s.trust.activating = false ∧
      fieldAt Tests.fwHash 0 48 = (sha384 s.trust.staged).toNat ∧ s.imageFails s.trust.staged = none ∧
      (s.trust.floorVersion ≤ fieldAt s.trust.staged 8 4 ∨ fieldAt s.trust.staged 8 4 < s.trust.floorVersion)) := by
  have h : ∀ floor ∈ [3, 4], (let s := Tests.fw floor 3 0x0A01 Tests.fwHash
      s.ready? Tests.mb0 0x0A01 = some (Tests.req .rm 9 0x0A01 Tests.fwHash) ∧ s.trust.activating = false ∧
      fieldAt Tests.fwHash 0 48 = (sha384 s.trust.staged).toNat ∧
      (s.trust.floorVersion ≤ fieldAt s.trust.staged 8 4 ∨ fieldAt s.trust.staged 8 4 < s.trust.floorVersion)) := by decide +kernel
  exact fun floor hf => ⟨(h floor hf).1, (h floor hf).2.1, (h floor hf).2.2.1, hi floor, (h floor hf).2.2.2⟩

/-- Numbers of 48 bytes, the highest first. -/
def Tests.be (n : Nat) : List Byte := (leBytes 48 n).reverse

/-- A key under which r‖r signs a message of hash r: x of G + Q is r (found by choosing G + Q first). -/
def Tests.key (x y : Nat) : List Byte := 4 :: (Tests.be x ++ Tests.be y)

/-- A token for this device with nonce 5 and two hours, signed under a key of the owner; a token for another device. -/
def Tests.token : List Byte :=
  let r := 0xae67eea0a90319d3dc1b60a33ddc0095902805fd3f878835872c3d0df709c2ae56ea0f50b40b2035f58b90ab0082c4b
  leBytes 8 0 ++ leBytes 32 5 ++ leBytes 4 2 ++ leBytes 4 0 ++ Tests.be r ++ Tests.be r

def Tests.tokenKey : List Byte := Tests.key
  0x740627dde9f8277a5dad00d2190a10f4532ed5da3df7cabcd350c5dccb84f561bd07e16b993c4ce2ce8af3e2d215dd5c
  0x13a1a6489c3fb8fdf22f2340e4e6c2838ad1c6afda69b3c31885a26d51c366266781d2b0d7754f89c604b15c73422abf

def Tests.nonce : State :=
  { Tests.asks State.reset .rm 9 0x0A03 Tests.token with trust := { State.reset.trust with nonce := some (9, 5), ownerActive := [0], ownerKey := Tests.tokenKey } }

/-- Requests for a nonce, with a token for this device and one for another; the limit of hours reached and not. -/
theorem witness_TestUnlock :
    (Tests.asks State.reset .rm 9 0x0A03 []).ready? Tests.mb0 0x0A03 = some (Tests.req .rm 9 0x0A03 []) ∧
    (Tests.nonce.ready? Tests.mb0 0x0A03 = some (Tests.req .rm 9 0x0A03 Tests.token) ∧ Tests.token.length ≠ 0 ∧
      Tests.nonce.trust.nonce = some (9, BitVec.ofNat 256 (fieldAt Tests.token 8 32)) ∧ fieldAt Tests.token 0 8 = Tests.nonce.trust.devId ∧
      Tests.nonce.ownerSlot.isSome = true ∧ ecdsaOk Tests.nonce.trust.ownerKey (Tests.token.take 44) (sliceAt Tests.token 48 96) = true) ∧
    (Tests.asks State.reset .rm 9 0x0A03 Tests.token).trust.nonce ≠ some (9, BitVec.ofNat 256 (fieldAt Tests.token 8 32)) ∧
    (∀ limit ∈ [0, 1], (let s : State := { trust := { State.reset.trust with unlock := some (9, limit) } }
      s.trust.unlock = some (9, limit) ∧ (limit ≤ s.rd F.ledgHoursHoursMain ∨ s.rd F.ledgHoursHoursMain < limit))) := by decide +kernel

def Tests.oldKey : List Byte := Tests.key
  0x812d77a0e6badd289530e504f70ab0cb842dfac0ea7ee3a5c13d37f85608c308ead96c8f62d0bb703bf0be30c548694a
  0x6d7c7bd77fd7042b8c4722df084185a7bc0a05111b554d32c1ad0e29bcb4f5bbd397d95cfee08d99eabd51269513021d

/-- The first owner's key, and a second one signed under the first. -/
theorem witness_OwnerKey :
    (let s := { Tests.asks State.reset .rm 9 0x0A04 (leBytes 193 1) with trust := { State.reset.trust with attested := [9] } }
     s.ready? Tests.mb0 0x0A04 = some (Tests.req .rm 9 0x0A04 (leBytes 193 1)) ∧ 9 ∈ s.trust.attested ∧ s.ownerSlot.isSome = false ∧
       [0, 1, 2, 3].find? (fun (k : Nat) => decide (k ∉ s.trust.ownerActive) && decide (k ∉ s.trust.ownerRevoked)) = some 0) ∧
    (let r := 0x811d53790a75b8d26f1d3dc2b506ff779ac51deee168c743b04b746512315ef96c81ec2ff2c56f80f416707c85c7596e
     let p := leBytes 97 2 ++ Tests.be r ++ Tests.be r
     let s : State := { Tests.asks State.reset .rm 9 0x0A04 p with trust := { State.reset.trust with attested := [9], ownerActive := [0], ownerKey := Tests.oldKey } }
     s.ready? Tests.mb0 0x0A04 = some (Tests.req .rm 9 0x0A04 p) ∧ s.ownerSlot = some 0 ∧ ecdsaOk s.trust.ownerKey (p.take 97) (sliceAt p 97 96) = true ∧
       [0, 1, 2, 3].find? (fun (k : Nat) => decide (k ∉ s.trust.ownerActive) && decide (k ∉ s.trust.ownerRevoked)) = some 1) := by decide +kernel

/-- A session that measures, ends, and asks another thing; a record supplied that is trusted no more, and one that is. -/
theorem witness_KeysAndSessions :
    (∀ c ∈ [0xE0, 0xEC, 0x01], (Tests.asks State.reset .rm 9 0x0A02 [0, c]).ready? Tests.mb0 0x0A02 = some (Tests.req .rm 9 0x0A02 [0, c])) ∧
    (let p := leBytes 64 1 ++ leBytes 8 0
     let s := { Tests.asks State.reset .peer 5 0x0104 p with ledger := { State.reset.ledger with untrusted := [(1, 0)] }, agent := { State.reset.agent with acting := 5 } }
     s.ready? Tests.mb0 0x0104 = some (Tests.req .peer 5 0x0104 p) ∧ (fieldAt p 0 1, fieldAt p 2 2) ∈ s.ledger.untrusted ∧ blobType 1 = false ∧
       s.supplyOk (Tests.req .peer 5 0x0104 p) 1 0 (sliceAt p 12 48 ++ p.drop 64) = true ∧ (1, 0) ∉ State.reset.ledger.untrusted) := by decide +kernel

/-! ### Witnesses: mailboxes, the controller, interrupts, BAR0 -/

def Tests.rq : Request := { opcode := 0, verMaj := 1, verMin := 0, token := 77, payload := [1] }

/-- Mailboxes free and taken; a request of a peer and of the rack manager; its repeat; one refused. -/
theorem witness_MailboxesRun :
    State.reset.flag F.hubMbxCtlOwn 31 = false ∧ (State.reset.wr F.hubMbxCtlOwn 1 31).flag F.hubMbxCtlOwn 31 = true ∧
    Claims.MayAsk State.reset ⟨.peer, 0⟩ .peer 5 ∧ Claims.MayAsk { State.reset with planLive := true } ⟨.mctp, 3⟩ .rm 9 ∧
    (State.reset.mbxOf (mbxKey ⟨.peer, 0⟩)).state ≠ 1 ∧ (State.reset.mbxOf (mbxKey ⟨.peer, 0⟩)).state ≠ 2 ∧
    (let d : MbxSt := { Tests.req .peer 5 0 [1] with state := 4, req := Tests.rq }
     let s : State := { stored := [(52, d)] }
     decide ((52, d).1 = mbxKey ⟨.peer, 0⟩) && decide (d.seq = 0) && decide (d.req.token = 77) && decide (s.rackTime ≤ d.doneTime + 1000000000)) = true ∧
    (∀ l ∈ [true, false], (let s : State := { planLive := l }
      (s.planLive = true ∨ s.planLive = false) ∧ (⟨.mgmt, 0⟩ : MbxRef).set ≠ .peer ∧ (0x0100 : Nat) ∉ [0x0000, 0x0001, 0x0A02])) ∧
    (∀ op ∈ [0x0000, 0x0001, 0x0407], (let x : MbxSt := { Tests.req .host 0 op [1] with state := 1 }
      ∀ s ∈ [({ mbx := [(0, x)] } : State), (State.reset.wr F.hubIdStatReady 1), { mbx := [(0, x)], restarting := true }],
        (let t : State := { s with mbx := [(0, x)] }
         Tests.mb0.idx < setSize Tests.mb0.set ∧ (t.mbxOf (mbxKey Tests.mb0)).state = 1 ∧ t.nextToAccept (mbxKey Tests.mb0) = true))) ∧
    (let x : MbxSt := { Tests.req .host 0 0 [1, 0] with state := 1 }
     (State.reset.wr F.hubIdStatReady 1).flag F.hubIdStatReady = true ∧ State.reset.flag F.hubIdStatReady = false ∧
     State.reset.refusal Tests.mb0 x = none ∧ State.reset.refusal Tests.mb0 (Tests.req .host 0 0x0407 []) = some St.version) := by
  refine ⟨by decide +kernel, by decide +kernel, ⟨by decide, .inl ⟨rfl, rfl⟩⟩, ⟨by decide, .inr ⟨rfl, by decide, .inr ⟨rfl, rfl⟩⟩⟩, by decide +kernel⟩

/-- A command, an answer to mailbox 0, and a message of class 0, each behind a CTRL packet. -/
def Tests.msg (cls : Nat) (b : DrpBody) : DrpMsg :=
  { dver := 1, dclass := cls, dtype := 0, cterm := 1, secondary := false, critical := false, ethernet := false, reassert := false, needsAck := true, seq := 5,
    agent := 0, digest := drpDigest cls 0 5 0 b, rtime := 0, body := b }

theorem witness_CtrlReceive : (let p : Packet := { hdr := mkHdr [(H.ptype, 10)], pay := [], crc := 0 }
     let s : State := { Tests.asks State.reset .host 0 0x0203 [] with local_ := [Tests.lp p], waitCmds := [(Tests.mb0, 2, 0)] }
     (s.takeLocal (isType PT.ctrl)).map (fun x => (x.1, x.2.1)) = some (p, 0) ∧ s.dice = [] ∧ (Tests.mb0, 2, 0) ∈ s.waitCmds ∧ (s.mbxOf (mbxKey Tests.mb0)).state = 2) ∧
    drpOk (Tests.msg 4 (.cmd (.stage 1))) = true ∧ drpOk (Tests.msg 1 (.answer Tests.mb0 0 0 [])) = true ∧ drpOk (Tests.msg 0 .empty) = false := by
  refine ⟨⟨by decide +kernel, rfl, by decide +kernel, by decide +kernel⟩, ?_, ?_, ?_⟩ <;> simp [drpOk, Tests.msg]

theorem witness_ControllerRestarts :
    (∀ rt ∈ [99999999, 100000000], (let s : State := { Tests.asks State.reset .host 0 0 [] with now := rt }
      Tests.mb0.idx < setSize Tests.mb0.set ∧ (s.mbxOf (mbxKey Tests.mb0)).state = 2 ∧
      ((s.mbxOf (mbxKey Tests.mb0)).deadline + 100000000 ≤ s.rackTime ∨ s.rackTime < (s.mbxOf (mbxKey Tests.mb0)).deadline + 100000000))) ∧
    (let s : State := { mismatchHours := [0] }
     ∃ h ∈ s.mismatchHours, s.rd F.ledgHoursHoursMain < h + 240) ∧
    (let s : State := ({ mismatchHours := [0] } : State).wr F.ledgHoursHoursMain 240
     ∀ h ∈ s.mismatchHours, h + 240 ≤ s.rd F.ledgHoursHoursMain) ∧
    (∀ l ∈ [true, false], ∀ prim ∈ [0, 1], (let s : State := ({ planLive := l, plan := { primary := prim, secondary := 0 }, phys := { standby := true } } : State).wr F.ledgStatMounted 1
      s.flag F.hubIdStatReady = false ∧ s.flag F.ledgStatMounted = true ∧ s.trust.recovering = false ∧ s.phys.standby = true ∧ s.rd F.condStatMode = 0 ∧
      s.planLive = l ∧ (s.plan.primary = s.self ↔ prim = 0) ∧ s.plan.secondary = s.self)) ∧
    (State.reset.wr F.condStatMode 2).rd F.condStatMode ≠ 0 := by decide +kernel

theorem witness_HubReset (im : List Byte) (hne : im ≠ []) (h : ({ trust := { image := im } } : State).imageFails im = none ∨ ({ trust := { image := im } } : State).imageFails im ≠ none) :
    State.reset.trust.image = [] ∧ ∃ s : State, s.trust.image ≠ [] ∧ (s.imageFails s.trust.image = none ∨ s.imageFails s.trust.image ≠ none) :=
  ⟨rfl, { trust := { image := im } }, hne, h⟩

/-- Vector 45 unmasked everywhere; one pending as it is unmasked; the last bytes of a mailbox's image; an access across a word; a window that takes no write. -/
theorem witness_InterruptsAndHostAccess :
    (let s : State := ({ msixTable := [(91, 0)] } : State).wr F.hubIrqMaskMask 0
     ((s.reg .hubIrqMask 0).getLsbD 45 = false ∧ (s.msixTable.getD (2 * 45 + 1) (1 <<< 32)).getLsbD 32 = false)) ∧
    (let s : State := (State.reset.wr F.hubIrqMaskMask (2 ^ 45)).wr F.hubIrqStatPending (2 ^ 45)
     (s.reg .hubIrqMask 0).getLsbD 45 = true ∧ (s.reg .hubIrqStat 0).getLsbD 45 = true ∧ (0 : BitVec 64).getLsbD 45 = false) ∧
    State.reset.flag F.hubMbxCtlOwn 31 = false ∧ (State.reset.wr F.hubMbxCtlOwn 1 0).flag F.hubMbxCtlOwn 0 = true ∧ 4088 % 8 + 8 ≤ 8 ∧ 8 < 5 % 8 + 4 ∧
    ((0xFF8 : Nat) < 0x1000 ∨ 0x200000 ≤ 0x82FFF8 ∧ 0x82FFF8 < 0x830000) ∧
    (∀ st ∈ [1, 2], (let s : State := { mbx := [(31, { state := st })] }
      (s.mbxOf 31).state = 1 ∨ (s.mbxOf 31).state ≠ 1)) := by decide +kernel

/-! ### Witnesses: the conductor -/

/-- A requests of each form of the conductor commands. -/
def Tests.condPl (op : Nat) (form : List Byte → Bool) : List Byte :=
  (([[], [0, 1], [0, 2], [0, 3], [2, 0, 0, 0, 0], [2, 0, 0, 0, 1]] : List (List Byte)).find? fun p => form p).getD [op % 256]

/-- Member 2 of group 7 on port 14 of this module, its compute tray 12. -/
def Tests.planA : Plan := { ports := [(14, ⟨0, 2, 2, 12, 2, 2, 2, some 1⟩)] }

/-- A conductor alone and one with its pair, at stage 6; a module that hears one and one that does not. -/
def Tests.alone : State :=
  (({ plan := Tests.planA, planLive := true, cond := { State.reset.cond with stage := 6, target := 6 } } : State).wr F.condStatMode 2).wr F.condStatRole 1

def Tests.lead : State := Tests.alone.wr F.condStatMode 1

def Tests.heard : State := { (Tests.alone.wr F.condStatMode 0) with agent := { State.reset.agent with heardPrimary := some 0 } }

def Tests.deaf : State := Tests.alone.wr F.condStatMode 0

theorem witness_ConductorCommandsAreLogged : ∀ q ∈ Claims.condRows, (let p := Tests.condPl q.2.1 q.2.2
    q.2.2 p = true ∧ (∀ s ∈ [Tests.alone, Tests.lead, Tests.heard, Tests.deaf], (Tests.asks s .rm 9 q.2.1 p).ready? Tests.mb0 q.2.1 = some (Tests.req .rm 9 q.2.1 p)) ∧
    Claims.Alone (Tests.asks Tests.alone .rm 9 q.2.1 p) ∧ (Tests.asks Tests.lead .rm 9 q.2.1 p).sequences = true ∧ ¬Claims.Alone (Tests.asks Tests.lead .rm 9 q.2.1 p) ∧
    (Tests.asks Tests.heard .rm 9 q.2.1 p).sequences = false ∧ (Tests.asks Tests.heard .rm 9 q.2.1 p).hearsActing = true ∧
    (Tests.asks Tests.deaf .rm 9 q.2.1 p).sequences = false ∧ (Tests.asks Tests.deaf .rm 9 q.2.1 p).hearsActing = false) := by
  unfold Claims.Alone; decide +kernel

/-- The conductor alone, with slice 7 (rows 0 and 1, columns 0 to 3), group 40 on it, and tray 12 permitted. -/
def Tests.full : State :=
  { Tests.alone with cond := { Tests.alone.cond with slices := [⟨7, 0, 2, 0, 4, 3, false, false⟩], groups := [(40, Tests.g1)], trayPermit := [12] } }

/-- Reads of a slice that is there and of one that is not; a shard; a group; a cap of two entries; the requests of a host for tray 12 and its own module. -/
theorem witness_ConductorCommandsAnswered :
    (∀ q ∈ Claims.condReads, ∀ p ∈ [[7, 0, 0, 0], [0, 1, 0, 0, 4, 0]], (Tests.asks Tests.full .rm 9 q.2.1 p).ready? Tests.mb0 q.2.1 = some (Tests.req .rm 9 q.2.1 p)) ∧
    (∃ q ∈ Claims.condReads, (q.2.2 Tests.full [7]).isSome = true) ∧ (∃ q ∈ Claims.condReads, (q.2.2 Tests.full [0]).isNone = true) ∧
    Claims.Alone Tests.full ∧ Claims.Quiet Tests.full ∧
    (∀ e ∈ ([(0x0505, [0xFF, 0x0F]), (0x0402, [40]), (0x0600, leBytes 4 200000 ++ [2, 0, 0, 0] ++ [31, 1, 0, 0] ++ [71, 1, 0, 0]), (0x0601, [12, 0]), (0x0601, [12, 1]),
        (0x0601, [12, 2]), (0x0601, [12, 3]), (0x0601, [0xFF, 0]), (0x0601, [0xFF, 2]), (0x0601, [0xFF, 3])] : List (Nat × List Byte)),
      (Tests.asks Tests.full .rm 9 e.1 e.2).ready? Tests.mb0 e.1 = some (Tests.req .rm 9 e.1 e.2)) ∧
    (shardAt [0xFF, 0x0F]).shard < 4096 ∧ Tests.full.cond.groups.find 40 = some Tests.g1 ∧ Tests.full.groupHeld Tests.g1 = false ∧
    (let p : List Byte := leBytes 4 200000 ++ [2, 0, 0, 0] ++ [31, 1, 0, 0] ++ [71, 1, 0, 0]
     fieldAt p 4 1 ≤ 40 ∧ p.length = 8 + 4 * fieldAt p 4 1 ∧ ∀ i, i < fieldAt p 4 1 →
       (fieldAt p (8 + 4 * i) 1 < 32 ∨ 64 ≤ fieldAt p (8 + 4 * i) 1 ∧ fieldAt p (8 + 4 * i) 1 < 72) ∧ fieldAt p (9 + 4 * i) 1 / 8 % 2 = 0) ∧
    12 ∈ Tests.full.plan.trays ∧ 12 ∈ Tests.full.cond.trayPermit ∧ 12 ∉ Tests.alone.cond.trayPermit := by
  unfold Claims.Alone Claims.Quiet; decide +kernel

def Tests.cr (op : Nat) (p : List Byte) : CondReq := ⟨0, Tests.mb0, .rm, op, p⟩

/-- A plan whose check holds or not (the layout of an image is open: `planOf`); what a discovered plan would hold. -/
theorem witness_ConductorPlans (p : Plan) (hp : planOf [1] = some p) (hok : p.ok = true ∨ p.ok = false) :
    (let b : StageBuf := { owner := Tests.mb0, ownerSession := 65536, total := 1, data := [1], final := true }
     let v : State := { stages := [(0, b)] }
     let r := Tests.cr 0x0201 (leBytes 48 (sha384 [1]).toNat)
     r.opcode = 0x0201 ∧ (v.stages.find 0).filter (fun b => b.final) = some b ∧
       fieldAt r.payload 0 48 = (sha384 b.data).toNat ∧ planOf b.data = some p ∧ (p.ok = true ∨ p.ok = false) ∧ v.cond.slices = []) ∧
    (let v := Tests.alone
     ({ v.plan with ports := v.plan.ports.filterMap fun e => (v.discovered e.1 e.2).map fun x => (e.1, x) } : Plan).ok = true ∧ v.cond.slices = []) ∧
    ∃ w, ({} : State).stagePiece 0 Tests.mb0 (Tests.req .rm 65536 0x0200 (Tests.piece 0 2 1 [7, 8])) = (w, .whole [7, 8]) :=
  ⟨⟨rfl, rfl, by decide +kernel, hp, hok, rfl⟩, ⟨by decide +kernel, rfl⟩, ⟨_, rfl⟩⟩

/-- A new slice 8 on rows 2 to 3 beside slice 7; its number taken; the stage below 6; a sequence begun, running and stopped; groups that fit and that do not. -/
theorem witness_ConductorCommandsBegin :
    (let r := Tests.cr 0x0300 [8, 2, 2, 4, 4, 0]
     let v := Tests.full
     let x : Slice := { num := 8, r0 := 2, h := 2, c0 := 4, w := 4, links := 0, verify := false }
     fieldAt r.payload 1 1 < v.plan.g ∧ fieldAt r.payload 3 1 < v.plan.m ∧ v.cond.stage = 6 ∧ v.cond.stopping = false ∧
       (∀ o ∈ v.cond.slices, o.num ≠ 8 ∧ ∀ ep ∈ v.plan.epsIn o, ep ∉ v.plan.epsIn x) ∧ v.plan.linksFor v.cond.slices x = some 63 ∧ v.cond.pairs = [] ∧
       (∀ ep ∈ v.plan.epsIn x, v.cond.endpoints.getD ep 0 = 0 ∧ v.condFenced ep = false) ∧ (∃ o ∈ v.cond.slices, o.num = 7) ∧ State.reset.cond.stage ≠ 6) ∧
    (let v : State := State.reset.wr F.condStatMode 1
     v.cond.stopping = false ∧ v.cond.target ≤ v.cond.stage ∧ v.cond.stage < 1 ∧ v.mayStart = true ∧
       fieldAt (Tests.cr 0x0207 [6, 0]).payload 1 1 % 2 = 0 ∧ fieldAt (Tests.cr 0x0207 [0, 1]).payload 1 1 % 2 = 1 ∧
       ({ v with cond := { v.cond with target := 6 } } : State).cond.stage < ({ v with cond := { v.cond with target := 6 } } : State).cond.target) ∧
    (let x : Slice := ⟨7, 0, 2, 0, 4, 3, false, false⟩
     Tests.full.sliceOf 7 = some x ∧ (∀ p ∈ Tests.full.cond.procs, 7 ∉ p.slices) ∧ x.held = false ∧ Tests.full.cond.groups.find 41 = none ∧
       groupFits (groupReq [41, 0, 7, 0, 1, 1, 1, 0, 4, 1]) x = true ∧ groupFits (groupReq [41, 0, 7, 0, 2, 1, 1, 0, 4, 1]) x = false) ∧
    (let g := Tests.g1
     let v : State := { Tests.full with cond := { Tests.full.cond with slices := [⟨7, 0, 2, 0, 4, 3, false, true⟩] } }
     Tests.full.cond.groups.find 40 = some g ∧ Tests.full.groupHeld g = false ∧ v.groupHeld g = true) ∧
    (fieldAt [2, 0, 2, 0, 0] 2 2 ∈ Tests.full.plan.endpoints ∧ fieldAt [2, 0, 2, 0, 0] 4 1 % 2 = 0 ∧ fieldAt [2, 0, 2, 0, 1] 4 1 % 2 = 1) := by decide +kernel

/-- An entry of each kind of report at a conductor of a plan with two ports, its roll call open and outcomes awaited. -/
def Tests.runs (r : Report) : State × LogEntry :=
  let e : LogEntry := ⟨1, 0, 0, 0, r⟩
  let p : Plan := { Tests.planA with ports := Tests.planA.ports.insert 15 ⟨0, 2, 3, 12, 2, 2, 3, none⟩ }
  ({ Tests.full with plan := p, cond := { Tests.full.cond with ready := [e], rollcallOpen := true, bindings := [(0, 5, 40)], verifies := [⟨2, 0, 5, 7, 2, 40, 0, false⟩] } }, e)

theorem witness_LogEntriesRun :
    (∀ r ∈ [Report.rollcall 0 14 .expected 0, .rollcall 0 14 .missing 0, .linkEvent 0 14 true, .linkEvent 0 14 false, .pull 0 1, .missingRanks 0 5 7 [2],
        .binding 0 5 40 true, .binding 0 5 40 false, .drainState 0 7 0 0 0, .drainState 0 7 1 0 0, .error 0 0x0C08 3 0, .error 0 E.leakCut 3 0,
        .error 0 E.memChannelFailed 3 0, .error 0 E.endpointStall 2 14, .rcsCmd 0 Tests.mb0 .rm 0x0203 [], .result 0 1 St.ok, .sensor (.pump 2),
        .sensor (.flow 1 2 3), .sensor (.leakTray 12), .sensor (.ropeFaulted 12 0), .sensor (.ropeGood 12 0), .probeResult 2 false, .linkProbeLost 0 14, .timer],
      (let s := (Tests.runs r).1
       let e := (Tests.runs r).2
       s.rd F.condStatRole ≠ 0 ∧ s.rd F.condStatMode ∈ [1, 2, 3, 4] ∧ s.cond.ready = [e] ∧ e.report = r ∧ s.cond.rollcallOpen = true)) ∧
    (∃ k ∈ (Tests.runs .timer).1.plan.ports, k.1 ≠ 256 * 0 + 14 ∧ (Tests.runs .timer).1.cond.outcomes.find k.1 = none) ∧
    ((Tests.runs .timer).1.boundGroup 0 5).isSome = true ∧
    ((Tests.runs .timer).1.cond.verifies.find? (fun v => decide (v.ep = 2) && !v.alive)).isSome = true ∧
    (∃ a ∈ (Tests.runs .timer).1.plan.ports, a.1 / 256 = 0 ∧ a.2.presence = some 1 ∧ a.2.cls = 0) ∧
    (∃ x ∈ (Tests.runs .timer).1.plan.ports.find (256 * 0 + 14 % 256), x.cls = 0) := by decide +kernel

def Tests.drain : Proc := { kind := .release 7, slices := [7], stage := 3, waiting := [1024 * 7 + 0], deadline := 5 }

/-- A machine with a deadline that has passed. -/
def Tests.due (d : Due) : State :=
  { Tests.full with cond := { Tests.full.cond with dues := [(5, d)], machineTime := 5, stageWait := [1024 * 3 + 7], rollcallOpen := true, flowLow := true, leaseExpiry := 5, procs := [Tests.drain] } }

theorem witness_DeadlinesFallDue :
    (∀ d ∈ [Due.stage, .rollcall, .flowStop, .leakDecide 12], (Tests.due d).runsMachine = true ∧ (∃ x ∈ (Tests.due d).cond.dues, x.2 = d ∧ x.1 ≤ (Tests.due d).cond.machineTime)) ∧
    (∃ w ∈ (Tests.due .stage).cond.stageWait, w % 1024 < 256) ∧ (Tests.due .stage).cond.rollcallOpen = true ∧ (Tests.due .stage).cond.flowLow = true ∧
    (∃ p, (Tests.due .stage).cond.procs = [p] ∧ p.stage = 3 ∧ p.waiting ≠ [] ∧ p.deadline ≤ (Tests.due .stage).cond.machineTime) ∧
    (∃ x ∈ (Tests.due .stage).cond.slices, x.num ∈ [7] ∧ ∃ m ∈ (Tests.due .stage).liveModules, (Tests.due .stage).plan.slicePorts x m ≠ []) ∧
    (Tests.due .stage).cond.leaseExpiry ≠ 0 ∧ (Tests.due .stage).cond.orphan = false ∧ (Tests.due .stage).cond.leaseExpiry ≤ (Tests.due .stage).cond.machineTime ∧
    (let s : State := { Tests.full with cond := { Tests.full.cond with leaseExpiry := 5 } }
     s.cond.machineTime < s.cond.leaseExpiry) ∧
    (let s : State := { Tests.full with cond := { Tests.full.cond with flowSince := some 0, machineTime := 60000000000 } }
     s.runsMachine = true ∧ s.cond.flowFaulted = false ∧ s.cond.flowSince = some 0 ∧ 0 + 60000000000 ≤ s.cond.machineTime) ∧
    (let s : State := { agent := { State.reset.agent with probesOut := [(143, 0)] }, now := 100000 }
     ∃ p ∈ s.agent.probesOut, p.1 = 143 ∧ p.2 + 100000 ≤ s.rackTime) := by
  refine ⟨by decide +kernel, by decide +kernel, by decide +kernel, by decide +kernel, ⟨Tests.drain, rfl, by decide +kernel⟩, by decide +kernel⟩

/-! ### Witnesses: commands of the conductor at their agent -/

/-- One command of each kind. -/
def Tests.bodies : List CmdBody := [.fence (.endpoint 2), .fenceRelease (.endpoint 2), .powerCap 300 1 0 0, .powerDomain true, .powerDomain false, .powerClearCut,
  .tableWrite 1 255 [3], .tableWrite 1 256 [3], .tableSwitch 1 0, .ingressHold (2 ^ 143) true, .sliceRelease 7, .groupDefine ⟨40, 7, 0, 0, 1, 1, 0, 4, 1⟩ 0 0 1 4,
  .groupDelete 40 true, .groupDelete 40 false, .groupReform 40 2 [1], .plan [1], .stage 7, .instanceEnd 0 5 40 (some 7) 0x0107, .probe 2, .region 255 0 1 7 7, .region 0 0 0 0 0, .streamCut 7]

def Tests.cmd (b : CmdBody) (term : Nat) (sec reassert : Bool) : DrpMsg :=
  { dver := 1, dclass := 4, dtype := 0, cterm := term, secondary := sec, critical := cmdCritical b, ethernet := false, reassert := reassert, needsAck := true, seq := 5,
    agent := 0, digest := 0, rtime := 0, body := .cmd b }

/-- A module of slice 7, at its term 1, with the copy in its buffer, one conductor heard, or both. -/
def Tests.got (m : DrpMsg) (both : Bool) : State :=
  { Tests.s1.wr F.condStatCterm 1 with agent := { State.reset.agent with rxq := [m], heardPrimary := some 0, heardSecondary := if both then some 0 else none } }

theorem Tests.row_of (b : CmdBody) : ∃ row, Claims.DrpRow b row := by cases b <;> exact ⟨_, rfl⟩

theorem witness_CommandCopies :
    (∀ b ∈ Tests.bodies, ∀ both ∈ [false, true], ∀ e ∈ [(1, false), (1, true), (2, false)], Claims.Came (Tests.got (Tests.cmd b e.1 false e.2) both) (Tests.cmd b e.1 false e.2) b ∧
      (Tests.got (Tests.cmd b e.1 false e.2) both).hearsBoth = both ∧ (Tests.got (Tests.cmd b e.1 false e.2) both).agent.later 5 = false ∧
      (Tests.got (Tests.cmd b e.1 false e.2) both).agent.held = []) ∧
    (∃ b ∈ Tests.bodies, cmdCritical b = true) ∧ (∃ b ∈ Tests.bodies, cmdCritical b = false) ∧
    (let s := Tests.got (Tests.cmd (.stage 7) 1 false false) true
     let t : State := { s with agent := { s.agent with seen := [5] } }
     t.agent.later 5 = true) ∧
    (let b : CmdBody := .fence (.endpoint 2)
     let h := Tests.cmd b 1 true false
     let m := Tests.cmd b 1 false false
     let s : State := { Tests.got m true with agent := { (Tests.got m true).agent with held := [h] } }
     cmdCritical b = true ∧ s.agent.held = [h] ∧ h.seq = m.seq ∧ h.secondary ≠ m.secondary ∧ h.digest = m.digest ∧ h.body = .cmd b ∧ s.dice = []) := by
  unfold Claims.Came; decide +kernel

def Tests.rope : State := (State.reset.wr F.pwrLeakUsed 15).wr F.pwrLeakFaulted 8

/-- Ropes good and bad, a table entry within and beyond, a region that fits, a group with a live instance, a tray on standby with its leak latch set and clear. -/
theorem witness_CommandsTakeEffect :
    (∀ b ∈ Tests.bodies, (∃ row, Claims.DrpRow b row) ∧
      Claims.Came (Tests.got (Tests.cmd b 1 false false) false) (Tests.cmd b 1 false false) b ∧ (Tests.got (Tests.cmd b 1 false false) false).hearsBoth = false) ∧
    (∀ cut ∈ [false, true], (let v : State := { phys := { standby := true, leakCut := cut } }
      v.phys.standby = true ∧ v.phys.leakCut = cut)) ∧
    (∀ k, k < 4 → State.reset.ropeUsed k = true → State.reset.ropeState k = 0 ∧ (State.reset.rd F.pwrLeakFaulted).testBit k = false) ∧
    (∃ k, k < 4 ∧ Tests.rope.ropeUsed k = true ∧ (Tests.rope.rd F.pwrLeakFaulted).testBit k = true) ∧
    (Tests.s1.writeTable 1 255 [3]).isSome = true ∧ (Tests.s1.writeTable 1 256 [3]).isNone = true ∧
    (∃ e ∈ Tests.s1.slots, ∃ b ∈ e.2.bound, b.group = 40 ∧ ∃ i ∈ Tests.s1.insts, i.1 / 65536 = e.1) ∧ Tests.s1.regionFits 255 ⟨0, 1, 7, 7⟩ = true ∧
    ({ Tests.s1 with shadow := Tests.s1.tables } : State).regionFits 255 ⟨0, 1, 8, 7⟩ = false ∧ (Tests.s1.slot 5).helper = none ∧
    (∃ k ∈ [1], (let s : State := { Tests.s1 with runs := [(1, { status := 1 })], streams := [(1, { slice := 7 })] }
      (s.run k).live = true ∧ (s.streamOf (k % 1024)).slice = 7)) := by
  refine ⟨fun b hb => ⟨Tests.row_of b, (by unfold Claims.Came; decide +kernel : ∀ b ∈ Tests.bodies,
    Claims.Came (Tests.got (Tests.cmd b 1 false false) false) (Tests.cmd b 1 false false) b ∧ (Tests.got (Tests.cmd b 1 false false) false).hearsBoth = false) b hb⟩,
    by decide +kernel, by decide +kernel, ⟨3, by decide +kernel⟩, by decide +kernel⟩

theorem witness_AcknowledgementsAndResends :
    (∀ n ∈ [49, 50], (let s : State := { agent := { State.reset.agent with unacked := [(5, .timer)], resends := [(11, n)] } }
      s.agent.unacked.find? (fun e => decide (e.1 = 5)) = some (5, .timer) ∧ s.agent.resends.getD (2 * 5 + 1) 0 = n)) ∧
    (let o : CondOut := ⟨5, 3, false, .stage 1⟩
     let s : State := { cond := { State.reset.cond with outs := [o] } }
     s.cond.outs.find? (fun o => decide (o.dseq = 5) && decide (o.agent = 3)) = some o ∧ s.agent.resends.getD (2 * 5) 0 < 50) := by decide +kernel

/-! ### Witnesses: the pair of conductors -/

def Tests.rep (agent : Nat) (eth : Bool) : DrpMsg :=
  { dver := 1, dclass := 2, dtype := 0, cterm := 1, secondary := false, critical := false, ethernet := eth, reassert := false, needsAck := true, seq := 5,
    agent := agent, digest := 0, rtime := 0, body := .report (.sensor (.pump 2)) }

/-- A conductor of a role in a mode at term 1. -/
def Tests.con (mode role : Nat) : State := (((Tests.full.wr F.condStatMode mode).wr F.condStatRole role).wr F.condStatCterm 1)

def Tests.upd (s : State) (c : Cond → Cond) (a : Agent → Agent) (p : Pair → Pair) : State := { s with cond := c s.cond, agent := a s.agent, pair := p s.pair }

theorem witness_PairKeepsOneLog :
    (∀ m ∈ [1, 2, 3], ∀ r ∈ [1, 2], (Tests.con m r).rd F.condStatMode = m ∧ (Tests.con m r).rd F.condStatRole = r) ∧ (Tests.con 0 0).rd F.condStatCterm ≤ 1 ∧
    (∀ agent ∈ [0, 5], ∀ seen ∈ [[], [(agent, 5)]], (let m := Tests.rep agent false
      let s := Tests.upd (Tests.con 1 1) (fun c => { c with seenInputs := seen }) (fun a => { a with unacked := [(5, .sensor (.pump 2))], rxq := [m] }) id
      m.body = .report (.sensor (.pump 2)) ∧ m.dclass = 2 ∧ s.sequences = true ∧ (m.agent = s.self ↔ agent = 0) ∧ (m.seq, Report.sensor (.pump 2)) ∈ s.agent.unacked ∧
        m ∈ s.agent.rxq ∧ ((m.agent, m.seq) ∈ s.cond.seenInputs ↔ seen ≠ []))) ∧
    (∀ m ∈ [3, 4], (Tests.con m 2).rd F.condStatMode = m ∧ (⟨1, 0, 5, 5, .timer⟩ : LogEntry).index = (Tests.con m 2).cond.nextIdx) ∧
    (Tests.con 1 1).cond.committed < 1 ∧ (∀ m ∈ [1, 2, 3, 4], (Tests.con m 1).runsMachine = true) ∧ (Tests.con 1 1).dice = [] ∧ (Tests.con 1 1).pair.peerDigests = [] ∧
    (Tests.con 1 1).cond.dseq ≤ 1 ∧
    (∀ m ∈ [1, 3, 4], (let o : CondOut := ⟨5, 3, true, .stage 1⟩
      let s := Tests.upd (Tests.con m 1) (fun c => { c with dseq := 6 }) id fun p => { p with sent := [o] }
      5 < s.cond.dseq ∧ s.pair.sent = [o] ∧ o.dseq = 5 ∧ s.rd F.condStatMode = m ∧ s.dice = [] ∧ s.pair.peerDigests = [])) ∧
    (let s := Tests.upd (Tests.con 1 1) id id fun p => { p with selftestFails := [0, 0] }
     2 ≤ (s.pair.selftestFails.filter fun x => decide (s.rackTime ≤ x + 3600000000000)).length ∧ (Tests.con 1 1).pair.selftestFails = []) := by decide +kernel

/-- Digests alike and not. -/
theorem witness_Digests : (∃ d, outDigest ⟨5, 3, true, .stage 1⟩ = d) ∧ ∃ d, outDigest ⟨5, 3, true, .stage 1⟩ ≠ d :=
  ⟨⟨_, rfl⟩, ⟨outDigest ⟨5, 3, true, .stage 1⟩ + 1, by intro h; bv_omega⟩⟩

/-- Takeover after silence; a vote asked for from the primary's side, heard and not; one with which, of 16 modules, a majority is reached, one short of it, and a refusal. -/
theorem witness_ControlPasses :
    (Tests.con 3 2).rd F.condStatMode = 3 ∧ (Tests.con 3 2).pair.takeoverTerm = none ∧ (Tests.con 3 2).recent (Tests.con 3 2).partnerHeard 2999999 = false ∧
    (∀ heard ∈ [none, some 0], (let s := Tests.upd (Tests.con 0 0) id (fun a => { a with heardSecondary := heard }) id
      (0 = s.plan.primary ∨ 0 = s.plan.secondary) ∧ s.rd F.condStatCterm < 2 ∧ (s.agent.castle = none) ∧ s.agent.handbackSeen = false ∧
        (s.recent (if 0 = s.plan.primary then s.agent.heardSecondary else s.agent.heardPrimary) 1999999 = heard.isSome))) ∧
    1 ≤ (Tests.con 0 0).rd F.condStatCterm ∧
    (∀ vs ∈ [[0, 1, 2, 3, 4, 5, 6], [0, 1, 2, 3, 4, 5, 6, 16]], ∀ rf ∈ [[], [0, 1, 2, 3, 4, 5, 6]],
      (let s := Tests.upd (Tests.con 3 2) id id fun p => { p with takeoverTerm := some 2, votes := vs, refusals := rf }
       s.rd F.condStatMode = 3 ∧ s.pair.takeoverTerm = some 2 ∧ 7 ∈ s.others ∧ s.plan.modules.length = 16 ∧
       2 * (7 :: s.pair.votes.filter fun x => decide (x ≠ 7)).length = 2 * vs.length + 2 ∧ 2 * s.pair.refusals.length < 16 ∧ 2 * s.pair.votes.length ≤ 16 ∧
       (rf ≠ [] → 16 ≤ 2 * (7 :: s.pair.refusals.filter fun x => decide (x ≠ 7)).length))) ∧
    (∀ m ∈ [0, 1, 3], (let s := Tests.con m 1
      (16 = s.plan.primary ∨ 16 = s.plan.secondary) ∧ s.rd F.condStatCterm < 65535 ∧ s.agent.castle = none ∧ (s.sequences = true ↔ m = 1) ∧ 16 ≠ s.self)) ∧
    (let s := Tests.upd (Tests.con 0 0) id (fun a => { a with castle := some (2, 16) }) id
     s.pair.takeoverTerm = none ∧ s.agent.castle = some (2, 16) ∧ s.rd F.condStatCterm < 2) ∧
    ((Tests.con 1 1).rd F.condStatMode = 1 ∧ (Tests.con 1 1).recent (Tests.con 1 1).partnerHeard 2999999 = false) ∧ (Tests.con 5 1).rd F.condStatMode = 5 ∧
    ((Tests.con 2 1).sequences = true ∧ (Tests.con 2 1).cond.log = [] ∧ (Tests.con 2 1).cond.nextIdx ≤ 1) ∧
    (∀ m ∈ [4, 2], ∀ r ∈ [1, 2], (let s := { Tests.upd (Tests.con m r) id (fun a => { a with heardPrimary := some 10000000000, heardSecondary := some 10000000000 })
        (fun p => { p with shadowMatches := 100000, shadowSince := some 0 }) with now := 10000000000 }
      s.shadowDone false = true)) ∧
    (Tests.con 2 2).rd F.condStatCterm < 65535 := by decide +kernel

/-! ### Witnesses: power, temperature, leaks, presence, time -/

/-- Windows ending and not, a governor at each of its four steps, brakes on and off, a plan without heartbeats, and readings on both sides of each limit (the die's temperature is 5 °C above the hotter of its two valid sensors). -/
theorem witness_PowerAndTemperature :
    (∀ n ∈ [999, 998], (let s : State := { power := { winN := n } }
      1000 ≤ s.power.winN + 1 ∨ s.power.winN + 1 < 1000)) ∧
    (∀ p ∈ [({ duty := 2, estimate := 901 } : Power), { duty := 1, cmdRate := 2, estimate := 901 }, { duty := 1, cmdRate := 1, depositRate := 2, estimate := 901 },
        { duty := 1, cmdRate := 1, depositRate := 1, pacing := 2, estimate := 901 }], 900 < p.estimate ∧ (1 < p.duty ∨ p.duty ≤ 1)) ∧
    State.reset.flag F.pwrStatBrakeIn = false ∧ (State.reset.wr F.pwrStatBrakeIn 1).flag F.pwrStatBrakeIn = true ∧
    (State.reset.wr F.pwrStatBrakeIn 1).flag F.pwrStatBrakeOut = false ∧
    (let s : State := { planLive := true, now := 30000000000, agent := { State.reset.agent with heardPrimary := some 0 } }
     s.planLive = true ∧ s.agent.heardSecondary = none ∧ 0 + 30000000000 ≤ s.rackTime) ∧
    (∀ t ∈ [92, 93, 95, 96], (let s : State := { power := { temps := [(0, t - 5)], faultedSensors := [1, 2, 3, 4, 5, 6] } }
      s.hottest.2 = t)) ∧
    (let s := State.reset.wr F.hubIdStatMainOn 1
     s.flag F.hubIdStatMainOn = true ∧ s.phys.resetKind = none ∧ s.errs = [] ∧ s.dice = [] ∧ 8 * 12 + 7 ∉ s.power.faultedSensors) := by decide +kernel

def Tests.leak (cls faulted : Nat) : State :=
  let s := ((State.reset.wr F.pwrLeakUsed 15).wr F.pwrLeakState (cls * 64)).wr F.pwrLeakFaulted faulted
  { s with phys := { s.phys with resetKind := none } }

/-- Rope 3 in each class; an item new, the same and another; presence input 15; a link and a parent of the rack's time. -/
theorem witness_LeaksPresenceAndTime :
    (∀ c ∈ [0, 1, 2, 3], (Tests.leak c 0).ropeUsed 3 = true ∧ (Tests.leak c 0).ropeState 3 = c ∧ (Tests.leak c 0).power.testing = none ∧
      (Tests.leak c 0).phys.leakCut = false ∧ (Tests.leak c 0).phys.resetKind = none ∧ ((Tests.leak c 0).rd F.pwrLeakFaulted).testBit 3 = false) ∧
    ((Tests.leak 0 8).rd F.pwrLeakFaulted).testBit 3 = true ∧
    (let s : State := { Tests.leak 0 0 with power := { testing := some 3 } }
     s.ropeUsed 3 = true ∧ s.power.testing = some 3) ∧
    ropeClass 7000 = 0 ∧ ropeClass 13000 = 0 ∧ ropeClass 500 = 1 ∧ ropeClass 6999 = 1 ∧ ropeClass 13001 = 2 ∧ ropeClass 499 = 3 ∧
    State.reset.plane = false ∧ State.reset.ledger.inventory = [] ∧
    (State.reset.wr F.condPresPresent (2 ^ 15)).rd F.condPresPresent = 2 ^ 15 ∧ (2 ^ 15).testBit 15 = true ∧ (State.reset.rd F.condPresPresent).testBit 15 = false ∧
    (∀ set ∈ [false, true], (let s : State := { Tests.fab with plan := { Tests.planA with ports := Tests.planA.ports.insert 2020 ⟨1, 0, 1, 0, 0, 0, 0, none⟩, primary := 1 }, phys := { timeSet := set } }
      s.active 100 = true ∧ s.isMemberPort 100 = false ∧ s.phys.timeSet = set ∧ s.dice = [])) := by
  decide +kernel

theorem witness_TimeReceive : ∃ s : State, s.active 100 = true ∧ s.timeParent 100 = true :=
  ⟨{ Tests.fab with plan := { Tests.planA with ports := Tests.planA.ports.insert (256 * 7 + 100) ⟨1, 0, 1, 0, 0, 0, 0, none⟩, primary := 1 } }, by decide +kernel⟩

/-! ### Witnesses: the ledger -/

def Tests.mounted (l : Ledger) : State := ({ ledger := l, phys := { standby := true } } : State).wr F.ledgStatMounted 1

theorem Tests.fold_some (f : Option Nat → Nat → Option Nat) (hf : ∀ b i, b.isSome = true → (f b i).isSome = true) (l : List Nat) (b : Option Nat)
    (hb : b.isSome = true) : (l.foldl f b).isSome = true := by
  induction l generalizing b with
  | nil => exact hb
  | cons i l ih => exact ih _ (hf b i hb)

/-- A block is free after another has aged. -/
theorem witness_NorRefresh : ({ Tests.mounted { State.reset.ledger with norTime := [(9, 1)] } with now := norAge } : State).norPick.isSome = true := by
  unfold State.norPick
  rw [show norEnd - norFirst = 6143 + 1 from rfl, List.range_succ_eq_map, List.foldl_cons]
  refine Tests.fold_some _ ?_ _ _ (by decide +kernel)
  intro b i hb
  obtain ⟨j, rfl⟩ := Option.isSome_iff_exists.mp hb
  dsimp only
  split
  · rfl
  · split <;> rfl

theorem witness_LedgerKeepsItsRecords :
    (∀ up ∈ [3, 0], (let c : CommitReq := ⟨6, 1, [7], none, 0⟩
      let s := (Tests.mounted { State.reset.ledger with queue := [c] }).wr F.ledgStatMacros up
      s.ledger.queue = [c] ∧ s.flag F.ledgStatMounted = true ∧ s.flag F.ledgStatProtected = false ∧ s.phys.pwrFail = false ∧ s.dice = [] ∧ c.type ≠ 16 ∧
        (s.macroUp 0 = decide (up = 3)) ∧ (s.macroUp 1 = decide (up = 3)))) ∧
    (let g : LedgGroup := { type := 6, key := 1, cseq := 5, payload := [7] }
     let s := Tests.mounted { State.reset.ledger with norQueue := [g], norOpen := some (2048, 65472) }
     s.ledger.norQueue = [g] ∧ g.type ≠ 9 ∧ s.phys.pwrFail = false ∧ s.flag F.ledgStatProtected = false ∧ s.flag F.ledgStatMounted = true ∧ s.dice = [] ∧
       (s.norRoom (64 * groupRecords g.type g.payload)).2.isSome = true) ∧
    (let s : State := { Tests.mounted { State.reset.ledger with norTime := [(9, 1)] } with now := norAge }
     s.ledger.norTime.getD 9 0 ≠ 0 ∧ s.ledger.norTime.getD 9 0 + norAge ≤ s.rackTime + 1 ∧ s.phys.pwrFail = false ∧ s.flag F.ledgStatProtected = false) ∧
    (State.reset.wr F.hubIdStatMainOn 1).flag F.hubIdStatMainOn = true ∧
    (let s := (Tests.mounted State.reset.ledger).wr F.ledgStatMacros 3
     s.phys.pwrFail = false ∧ s.flag F.ledgStatMounted = true ∧ s.macroUp 0 = true) ∧
    (let s : State := { phys := { pwrFail := true, standby := true } }
     s.phys.pwrFail = true ∧ s.phys.standby = true) ∧
    (let g : LedgGroup := { type := 1, key := 0, cseq := 5, payload := leBytes 16 7 }
     let s : State := { ledger := { State.reset.ledger with mr0 := [g], mr1 := [g], nor := [g] }, phys := { standby := true } }
     s.flag F.ledgStatMounted = false ∧ s.trust.recovering = false ∧ s.phys.standby = true ∧ s.phys.pwrFail = false ∧ s.ledger.mr0 = [g]) := by decide +kernel

theorem witness_RecoveryAsksForAnImage (im : List Byte) (hne : im ≠ []) :
    ∀ rm ∈ [false, true], (let s : State := { trust := { recovering := true, rmAllowed := rm }, phys := { standby := true } }
      (s.imageFails im = none ∨ ∃ st, s.imageFails im = some st) ∧ im ≠ [] ∧ s.trust.recovering = true ∧ s.phys.standby = true ∧ (rm = true → s.trust.rmAllowed = true) ∧
      s.trust.rmOnly = false ∧ s.flag F.ledgStatMounted = false) := by
  intro rm _
  refine ⟨?_, hne, rfl, rfl, fun h => h, rfl, rfl⟩
  cases h : ({ trust := { recovering := true, rmAllowed := rm }, phys := { standby := true } } : State).imageFails im with
  | none => exact .inl rfl
  | some st => exact .inr ⟨st, rfl⟩

theorem witness_RecoveryRequest : State.reset.trust.rmAllowed = false ∧ (let s : State := { phys := { standby := true } }
    0 = s.tray ∧ 5 ≠ s.trust.devId ∧ s.trust.recovering = false ∧ s.phys.standby = true) := by decide +kernel

/-! ### Witnesses: records, crossings, counters, scoresheets -/

def Tests.rec (sev : Nat) (now : Nat) : State :=
  { errs := [(1, { code := 0x0801, sev := sev, inst := 0, rseq := 4, rtime := 0, lastRtime := 0, info := 0, open_ := true })], now := now }

theorem witness_RecordsCrossingsAndScoresheets :
    (∀ e ∈ [(1, 1000), (1, 999), (2, 1000000)], (∃ r, (Tests.rec e.1 e.2).errs.find? (fun x => decide (x.2.rseq = 4)) = some (1, r) ∧ r.sev = e.1 ∧ r.superseded = false ∧
      r.lastRtime = 0 ∧ r.rtime = 0) ∧ (Tests.rec e.1 e.2).rackTime = e.2 ∧ (Tests.rec e.1 e.2).rd F.errCfgCoalesce = 100) ∧
    (∀ g ∈ [1, 2, 3, 4, 5, 6, 7, 8, 9], (cdcGroup g 0).isSome = true ∧ (g, 0) ∉ State.reset.phys.cdcIdle) ∧
    (let s := State.reset.wr F.laneStatStage 5 0
     s.stage 0 = Stage.active) ∧ (State.reset.wr F.memcStatState 1).rd F.memcStatState = 1 ∧
    (let s : State := { phys := { cdcIdle := [(7, 0)] } }
     (7, 0) ∈ s.phys.cdcIdle) ∧
    0 < unitCounters 273 ∧ (unitInMain 273 = true → (State.reset.wr F.hubIdStatMainOn 1).flag F.hubIdStatMainOn = true) ∧
    (∀ up ∈ [true, false], (let s := ((({ phys := { pcieUp := up } } : State).wr F.cntSscfgEn 1).wr F.cntSscfgPeriod 10).wr F.cntSscfgSlots 2
      s.flag F.cntSscfgEn = true ∧ s.ssPeriod ≠ 0 ∧ s.rackTime % s.ssPeriod < 10 ∧ s.ssBusy = none ∧ s.ssDestOk = up)) ∧
    (let s : State := { ssBusy := some 1, phys := { pcieUp := true } }
     s.ssBusy = some 1 ∧ s.ssPending = none ∧ s.flag F.cntSscfgDest = false ∧ s.phys.pcieUp = true) := by
  refine ⟨fun e he => ?_, by decide +kernel⟩
  simp only [List.mem_cons, List.not_mem_nil, or_false] at he
  rcases he with rfl | rfl | rfl <;> exact ⟨⟨_, rfl, rfl, rfl, rfl, rfl⟩, rfl, by decide +kernel⟩

/-! ### Witnesses: resets, rails, the test access port -/

def Tests.phys (f : Physical → Physical) : State := { phys := f State.reset.phys }

theorem witness_ResetsAndRails :
    (Tests.phys fun p => { p with resetKind := none, resetWaiting := some true }).phys.resetKind = none ∧
    (Tests.phys fun p => { p with resetKind := none, resetWaiting := some true }).phys.resetWaiting = some true ∧
    (Tests.phys fun p => { p with resetKind := some true }).phys.resetKind = some true ∧
    (∀ pg ∈ [true, false], ∀ k ∈ [none, some true, some false],
      (let s := Tests.phys fun p => { p with trayMainEn := true, mainPg := pg, resetKind := k, standby := true, leakCut := false, refclk := true }
       s.phys.trayMainEn = true ∧ s.phys.mainPg = pg ∧ s.phys.resetKind = k ∧ s.phys.standby = true ∧ s.phys.leakCut = false ∧ s.phys.refclk = true ∧
         (7, 0) ∉ s.phys.cdcIdle)) ∧
    (let s := Tests.phys fun p => { p with mainPg := true, vddCore := 700 }
     s.phys.mainPg = true ∧ 705 ≤ s.phys.vddCore + 5 ∧ s.phys.vddCore ≤ 705 + 5 ∧ s.phys.vddCore + 5 < 710) := by decide +kernel

/-- IDCODE is 0x171013CF (19 R456), least significant bit first. -/
theorem test_idcode : (match exec (.idcode (List.replicate 32 false)) State.reset with
    | .next t => t.out
    | _ => []) = [.tdo ((List.range 32).map fun k => (0x171013CF : BitVec 32).getLsbD k)] := by decide +kernel

theorem witness_TestAccessPort : (∃ s : State, s.phys.mainRstLow = true) ∧ ∃ s : State, s.phys.mainRstLow = false :=
  ⟨⟨{ phys := { mainRstLow := true } }, rfl⟩, ⟨{ phys := { mainRstLow := false } }, rfl⟩⟩

/-! ### Witnesses: instances and streams -/

/-- A contribution of rank 1 of group 40 to step `step` of slot 5: a join, or the share of a chunk with `fs`. -/
def Tests.contrib (step gepoch chunk last : Nat) (fs : List Flit) : Packet :=
  { hdr := mkHdr [(H.ptype, PT.contrib), (H.tc, 1), (H.len, fs.length), (H.slice, 7), (H.group, 40), (H.gepoch, gepoch), (H.slot, 5), (H.step, step), (H.src, 1), (H.rank, 1),
      (H.chunk, chunk), (H.last, last), (H.format, Tests.b1.format), (H.disc, Tests.b1.disc), (H.op, Tests.b1.op), (H.reducer, Tests.b1.reducer)], pay := fs, crc := 0 }

/-- The home with a contribution waiting. -/
def Tests.comes (p : Packet) (insts : Tab Instance) : State := { Tests.s1 with local_ := [Tests.lp p], insts := insts }

/-- The slot bound in two stages, its ranks in rows 0 and 1: module 1 is the helper. -/
def Tests.s2 : State :=
  { Tests.s1 with groups := [(40, { Tests.g1 with dfn := { Tests.g1.dfn with rowExt := 2, colExt := 2 }, height := 2, width := 2 })], slots := [(5, { bound := some { Tests.b1 with stages := 2 }, base := 7 })] }

/-- The partial of the helper for chunk 0, under a descriptor's hash. -/
def Tests.partial_ (hash : Nat) : Flit := hsets (Tests.contrib 7 0 0 1 []).hdr [(H.src, 1), (H.smod, 1), (H.rank, 0x1FF), (H.descHash, hash)]

theorem witness_TakeWhole : ((Tests.comes (Tests.contrib 7 0 0 0 [1]) []).takeWhole fun l => isType PT.contrib l.pkt.hdr).map (fun x => (x.1, x.2.local_)) =
    some (Tests.lp (Tests.contrib 7 0 0 0 [1]), []) := by decide +kernel

/-- A stale one; the join that starts step 7; a partial whose descriptor does not agree; the rest of a share of an open chunk, and of one that is not open. -/
theorem witness_ContributionsAreTaken :
    (let h := (Tests.contrib 7 0 0 1 []).hdr
     Tests.s1.peerChan h = none ∧ Tests.s1.contribStatus (Tests.contrib 7 9 0 1 []).hdr = some 0x0200 ∧ hget h H.smod = 0 ∧
       Tests.s1.contribStatus h = none ∧ Tests.s1.bindingOf (hget h H.slot) = some (Tests.b1, Tests.g1) ∧ (Tests.comes (Tests.contrib 7 0 0 1 []) []).inst? 5 7 = none ∧
       Tests.s1.imposes 5 Tests.b1 Tests.g1 = false ∧ Claims.Agrees Tests.s1 h Tests.b1 Tests.b1.disc ∧ Tests.b1.op ≠ 7 ∧ Tests.s1.isJoin h Tests.b1 Tests.g1 1 = true) ∧
    (let h := Tests.partial_ 9
     hget h H.smod = 1 ∧ Tests.s2.peerChan h = none ∧ Tests.s2.contribStatus h = none ∧ ¬Claims.Agrees Tests.s2 h { Tests.b1 with stages := 2 } Tests.b1.disc ∧
       Claims.Agrees Tests.s2 (Tests.partial_ 0) { Tests.b1 with stages := 2 } Tests.b1.disc) ∧
    (let h := (Tests.contrib 7 0 0 0 [1]).hdr
     Tests.s1.contribStatus h = none ∧ Tests.s1.inst? 5 7 = some Tests.i1 ∧ Tests.i1.status = none ∧ Tests.i1.state ≠ .verifying ∧ Claims.Agrees Tests.s1 h Tests.b1 Tests.i1.disc ∧
       1 ∈ Tests.i1.first ∧ Tests.s1.isJoin h Tests.b1 Tests.g1 1 = false ∧ Tests.i1.takes Tests.b1 (Tests.s1.ranksOfKey Tests.g1 1) (hget h H.chunk) = true ∧
       shareKey (hget h H.chunk) 1 ∉ Tests.i1.recv ∧ hget h H.foff = 0 ∧ hget h H.last = 0 ∧ Tests.s1.shareOf Tests.b1 Tests.g1 1 0 = .flits 0 1024 1024) ∧
    Tests.i1.takes Tests.b1 (Tests.s1.ranksOfKey Tests.g1 1) (hget (Tests.contrib 7 0 99 0 [1]).hdr H.chunk) = false ∧ (Tests.s1.slot 5).helper = none := by
  unfold Claims.Agrees; decide +kernel

/-- The first flit of a share of 1,024, and its last one. -/
theorem witness_Fits : Claims.Fits (.flits 0 1024 1024) 0 1 1 false ∧ Claims.Fits (.flits 0 1024 1024) 1023 1 1024 true :=
  ⟨⟨.inr ⟨by decide, by decide⟩, by decide, by decide⟩, ⟨.inr ⟨by decide, by decide⟩, by decide, fun _ => rfl⟩⟩

def Tests.dep : Deposit := { key := 1, chunk := 0, foff := 0, last := true, poison := false, drank := 0, flits := [1], chg := {} }

theorem witness_ContribDeposit : (let i : Instance := { Tests.i1 with waiting := [Tests.dep] }
    let s : State := { Tests.s1 with insts := [(65536 * 5 + 7, i)] }
    let a := s.resBase 5 7 Tests.b1 + 0 % Nat.max 1 i.flight * Tests.b1.chunk + 64 * 0
    s.bindingOf 5 = some (Tests.b1, Tests.g1) ∧ 5 / 1024 ∉ s.recarve ∧
    s.insts.find? (fun e => decide (e.1 / 65536 = 5) && e.2.status.isNone && e.2.waiting.any (s.canDeposit Tests.b1 e.2)) = some (65536 * 5 + 7, i) ∧
    i.waiting.findIdx? (s.canDeposit Tests.b1 i) = some 0 ∧ i.waiting[0]? = some Tests.dep ∧ Tests.b1.op ≤ 2 ∧ Tests.b1.reducer = 0 ∧ isMx Tests.b1.format = false ∧ i.disc = 0 ∧
    s.usesInbox Tests.b1 1 = false ∧ s.dice = [] ∧ s.bankFenced 0 (s.placeOf 0 a).bank = false ∧ (s.bankWord (bankKey 0 a)).poison = false) := by decide +kernel

/-- Step 7 with shares missing: of four live ranks within the limit, or beyond a limit of three; verifying; ending, its results drawn, its notice sent; ENDED. -/
theorem witness_InstancesEnd :
    (∀ m ∈ [4, 3], (let s : State := { Tests.s1 with plan := { Tests.s1.plan with abortMax := m } }
      s.bindingOf 5 = some (Tests.b1, Tests.g1) ∧ s.inst? 5 7 = some Tests.i1 ∧ Tests.i1.status = none ∧ (s.slot 5).helper = none ∧ Tests.i1.programDone = false ∧
        Tests.i1.state ≠ .verifying ∧ s.oldestOpen Tests.b1 Tests.g1 Tests.i1 0 4 = some 0 ∧ Tests.g1.live.length = 4 ∧ s.plan.abortMax = m)) ∧
    (let b : Binding := { Tests.b1 with elems := 1 }
     let i : Instance := { Tests.i1 with complete := [0, 1, 2, 3].map (shareKey 0), recv := [0, 1, 2, 3].map (shareKey 0) }
     b.chunks = 1 ∧ Tests.s1.oldestOpen b Tests.g1 i 0 b.chunks = none) ∧
    (let s := Tests.s1i fun i => { i with state := .verifying }
     (s.inst? 5 7).map (fun i => i.state) = some .verifying) ∧
    (∀ sent ∈ [false, true], (let s := Tests.s1i fun i => { i with status := some 0, ctx := none, terminalSent := sent }
      s.inst? 5 7 = some { Tests.i1 with status := some 0, ctx := none, terminalSent := sent } ∧ Tests.i1.results = [] ∧ Tests.i1.terminalOut = 0 ∧ Tests.i1.recCtx = none ∧
        (s.slot 5).closing = false)) ∧
    (let s := Tests.s1i fun i => { i with status := some 0, results := [(0, 1)] }
     (s.inst? 5 7).map (fun i => (i.status, i.results)) = some (some 0, [(0, 1)])) := by decide +kernel

/-- A notice of the home for a helper's step; a report of a helper for an open step, and its loss; a context with a send to draw, every contributor known
and not; a send to a vacant rank, and of a chunk that is being recovered. -/
theorem witness_HelpersAndSends :
    (let p : Packet := { hdr := mkHdr [(H.ptype, PT.collCtrl), (H.src, 1), (H.smod, 1), (H.slot, 5), (H.step, 7), (H.status, 0x0101)], pay := [], crc := 0 }
     let s : State := { Tests.s1 with local_ := [Tests.lp p], slots := [(5, { bound := some Tests.b1, helper := some 1 })] }
     (s.takeLocal (isType PT.collCtrl)).map (fun x => (x.1, x.2.1)) = some (p, 0) ∧ s.bindingOf (hget p.hdr H.slot) = some (Tests.b1, Tests.g1) ∧
       (s.slot (hget p.hdr H.slot)).helper = some 1 ∧ hget p.hdr H.src = 1 ∧ hget p.hdr H.smod = 1 ∧ hget p.hdr H.allSteps = 0 ∧
       (s.inst? (hget p.hdr H.slot) (hget p.hdr H.step)) = some Tests.i1 ∧ Tests.i1.status = none) ∧
    ((Tests.s2.bindingOf 5).map (fun x => (x.1.stages, Tests.s2.helpersOf x.2)) = some (2, [1]) ∧ (Tests.s2.slot 5).helper = none ∧ (Tests.s2.slot 5).closing = false ∧
      Tests.s2.inst? 5 7 = some Tests.i1 ∧ Tests.i1.state ≠ .verifying ∧ Tests.s2.inWindow 5 7 { Tests.b1 with stages := 2 } = true) ∧
    (∀ f ∈ [[0, 1, 2, 3], [0]], (let s : State := { Tests.s1i (fun i => { i with first := f }) with ctxs := [(0, { Tests.c1 with sends := [{ desc := 0, addr := 0, len := 0 }] })] }
      let c := s.ctx (ctxNum Tests.x0)
      c.sends = [{ desc := 0, addr := 0, len := 0 }] ∧ s.bindingOf c.slot = some (Tests.b1, Tests.g1) ∧ (s.inst? c.slot c.step).isSome = true ∧ c.slot / 1024 ∉ s.recarve ∧ c.run ≠ .free ∧
        dKind 0 ≤ 1 ∧ s.contributors c.slot Tests.b1 Tests.g1 = [0, 1, 2, 3])) ∧
    (let g : Group := { Tests.g1 with vacant := [dTarget 0] }
     dKind 0 = 0 ∧ dTarget 0 ∈ g.vacant ∧ Tests.c1.restarted = false ∧ Tests.c1.recoveryOf = none ∧ dChunk 0 ∈ ({ Tests.i1 with recovering := [0] } : Instance).recovering) := by
  decide +kernel

/-- A binding of a library program of one word a chunk that runs ORDERED, its instance, and a home of it in a phase. -/
def Tests.bl : Binding := { Tests.b1 with program := 1, elems := 16, disc := 1, retain := true }

def Tests.il : Instance := { Tests.i1 with disc := 1 }

def Tests.lib (phase : LibPhase) (ctl : Flit) (banks : Tab BankWord) : State :=
  { Tests.s1 with slots := [(5, { bound := some Tests.bl, base := 7 })], insts := [(65536 * 5 + 7, Tests.il)], banks := banks,
                  ctxs := [(0, { Tests.c1 with program := 1, lib := { phase := phase, ctl := ctl } })] }

/-- The rows of the chunk's four contributors. -/
def Tests.rows (s : State) : List Nat := (s.inOrder 5 Tests.bl Tests.g1).map fun k => s.rowAddr 5 7 Tests.bl Tests.g1 Tests.il 0 k

theorem witness_LibraryContext :
    (((Tests.lib .work 0 []).ctx (ctxNum Tests.x0)).program ≤ 11 ∧ ((Tests.lib .work 0 []).ctx (ctxNum Tests.x0)).run = .ready ∧
      ((Tests.lib .work 0 []).ctx (ctxNum Tests.x0)).slot = 5 ∧ ((Tests.lib .work 0 []).ctx (ctxNum Tests.x0)).step = 7 ∧
      ((Tests.lib .work 0 []).ctx (ctxNum Tests.x0)).lib = { phase := .work }) ∧
    (Tests.lib .work 0 []).bindingOf 5 = some (Tests.bl, Tests.g1) ∧ (Tests.lib .work 0 []).inst? 5 7 = some Tests.il ∧ (Tests.lib .work 0 []).recarve = [] ∧
    Tests.il.status = none ∧ (Tests.lib .work 0 []).dice = [] ∧ Tests.il.disc = 1 ∧ Tests.bl.disc ≠ 2 ∧ Tests.bl.op ≤ 2 ∧ Tests.bl.reducer = 0 ∧
    Tests.bl.chunkWords 0 = 1 := by decide +kernel

/-- Four rows readable, and one of them not. -/
theorem witness_LibraryRows : (let s := Tests.lib .work 0 []
    (Tests.rows s).length = 4 ∧ ∀ a ∈ Tests.rows s, s.bankFenced 0 (s.placeOf 0 a).bank = false ∧ (s.bankWord (bankKey 0 a)).poison = false) := by decide +kernel

theorem witness_LibraryRowPoisoned : (let s := Tests.lib .work 0 [(bankKey 0 ((Tests.rows (Tests.lib .work 0 [])).headD 0), { poison := true })]
    (∃ a ∈ Tests.rows s, (s.bankWord (bankKey 0 a)).poison = true) ∧ (s.slot 5).helper = none) := by decide +kernel

/-- A state block whose STAMP is that of the step, and one of another. -/
theorem witness_UpdatesRun : (((Tests.lib .update 0 []).ctx (ctxNum Tests.x0)).lib.phase, ((Tests.lib .update 0 []).ctx (ctxNum Tests.x0)).lib.ctl.toNat,
    ((Tests.lib .update 5 []).ctx (ctxNum Tests.x0)).lib.ctl.toNat) = (.update, 0, 5) := by decide +kernel

theorem witness_StateBlock : (let s := Tests.lib .update 0 []
    let base := s.blockBase 5 7 Tests.bl Tests.g1 Tests.il 0
    s.bankFenced 0 (s.placeOf 0 base).bank = false ∧ (s.bankWord (bankKey 0 base)).poison = false ∧ (s.bankWord (bankKey 0 base)).value = 0) := by decide +kernel

theorem test_control_T : ctlT 0 = 0 ∧ ctlT (BitVec.ofNat 512 (2 ^ 64 + 5)) = 5 := by decide +kernel

/-- Stream 1023 due and not; 16 others started; its gate open, closed, failed; a rate that allows its next packet. -/
theorem witness_StreamsRun :
    (let s : State := { streamSwitch := some 0, streamShadow := [(1023, { valid := true })] }
     s.streamSwitch = some 0 ∧ 0 ≤ s.rackTime ∧ ∃ e ∈ s.streamShadow, e.2.valid = true) ∧
    (let s : State := { runs := [(1023, { status := 1 })], streams := [(1023, { valid := true })] }
     s.phys.fatal = false ∧ (s.run (s.runKey 1023)).status = 1 ∧ (s.run (s.runKey 1023)).started = false ∧ (s.run (s.runKey 1023)).ending = none ∧
       (s.streamOf 1023).start ≤ s.rackTime ∧ (s.startedIn (1023 / 256)).length < 16 ∧ ∀ e ∈ s.streams, s.startsBefore e.1 1023 = false) ∧
    (let s : State := { runs := (List.range 16).map fun k => (768 + k, { status := 2, started := true }) }
     16 ≤ (s.startedIn (1023 / 256)).length) ∧
    (∀ gate ∈ [false, true], ∀ bound ∈ [false, true],
      (let s : State := { Tests.s1 with runs := [(1, { status := 1, started := true })], streams := [(1, { valid := true, elems := 4096, slice := 7, gateEn := gate, gateSlot := if bound then 5 else 6, gateStep := 8, gateBind := 0 })] }
       let s := s.wr F.memcStatState 1
       let e := s.streamOf 1
       (s.run (s.runKey 1)).live = true ∧ (s.run (s.runKey 1)).started = true ∧ (s.run (s.runKey 1)).sent < e.packets ∧ s.memReady = true ∧ s.phys.fatal = false ∧
         e.slice ∉ s.streamHeld ∧ s.gateFailed e = (gate && !bound) ∧ s.gateOpen e 0 1024 = !gate ∧ e.rate = 0 ∧ (s.run (s.runKey 1)).open_ = 0 ∧
         s.flowRoom (flowKey { src := s.self, dst := e.dst, smod := true, dmod := false, tc := 2, plane := s.plane, cast := 0 }) 0 65 = true ∧
         s.stagingUsed 0 true + e.packetBytes ≤ 2097152 ∧ s.streamTurnOf 1 = true)) ∧
    (let s : State := { recarve := [3] }
     3 ∈ s.recarve) := by
  refine ⟨by decide +kernel, by decide +kernel, by decide +kernel, fun gate _ bound _ => ?_, by decide +kernel⟩
  cases gate <;> cases bound <;> decide +kernel

/-! ### Witnesses: rules stated whole, the memory, the encoding -/

/-- A session unlocked and attested under a plan that permits injection, and one that is not. -/
theorem witness_LockedUnlessUnlocked :
    (let s : State := { planLive := true, plan := { injection := true }, trust := { attested := [9], unlock := some (9, 100) } }
     Claims.Unlocked s 9 ∧ ¬Claims.Unlocked s 8) ∧
    (Tests.asks State.reset .rm 9 0x0802 []).ready? Tests.mb0 0x0802 = some (Tests.req .rm 9 0x0802 []) ∧
    (Tests.asks State.reset .rm 9 0x0408 (Tests.piece 0 0 2 [])).ready? Tests.mb0 0x0408 = some (Tests.req .rm 9 0x0408 (Tests.piece 0 0 2 [])) ∧
    (fieldAt (Tests.piece 0 0 2 []) 8 1).testBit 1 = true := by
  refine ⟨⟨⟨⟨_, rfl, rfl⟩, by decide, rfl, rfl⟩, ?_⟩, by decide +kernel, by decide +kernel, by decide +kernel⟩
  rintro ⟨⟨u, hu, h8⟩, -⟩
  cases hu
  exact absurd h8 (by decide)

theorem witness_StaleEpochIsRefused : (let h := (Tests.contrib 7 9 0 1 []).hdr
    ((Tests.comes (Tests.contrib 7 9 0 1 []) []).takeWhole fun l => isType PT.contrib l.pkt.hdr).map (fun x => x.1) = some (Tests.lp (Tests.contrib 7 9 0 1 [])) ∧
    hget h H.smod = 0 ∧ Tests.s1.bindingOf (hget h H.slot) = some (Tests.b1, Tests.g1) ∧ (Tests.s1.slot (hget h H.slot)).closing = false ∧
    hget h H.gepoch ≠ Tests.g1.gepoch ∧ Tests.g1.gepoch < 65536 ∧
    (let h := hset h H.smod 1
     hget h H.smod = 1 ∧ Tests.s1.peerChan h = none ∧ isType PT.contrib h = true ∧ Tests.s1.bindingOf (hget h H.slot) = some (Tests.b1, Tests.g1))) := by decide +kernel

/-- The last step and the one before it, of a binding of depth 2 that reserves staging. -/
theorem witness_InstanceAreas : Tests.b1.step0 ≤ 65534 ∧ 65534 < 65536 ∧ 65535 < 65536 ∧ 0 < Tests.b1.depth ∧ Tests.b1.stgBytes (Tests.s1.stgRanks 5 Tests.g1) ≠ 0 ∧
    (65534 - 7) % Tests.b1.depth = 1 ∧ (65535 - 7) % Tests.b1.depth = 0 := by decide +kernel

theorem witness_FabricInterleave : (2 ^ 48 - 2 ^ 14) % 2 ^ 14 = 0 ∧ 2 ^ 48 - 2 ^ 14 < 2 ^ 48 ∧ (63 : Nat) < 64 ∧ 2 ^ 47 % 2 ^ (41 + 6) = 0 ∧ 8 ≤ 41 ∧ 41 ≤ 42 := by decide

/-- Adjacent granules of 10 R237's example lie in channels 59 and 58. -/
theorem test_interleave : memChannel 0x00123456789A = 59 ∧ memChannel (0x00123456789A + 256) ≠ 59 := by decide

/-- A STREAM_WRITE names the slice at byte 34 of its entry, which stands from byte 8 of the request (10 R253; 13 R317, R320). -/
theorem test_slices_named :
    (let p : List Byte := (List.replicate 72 0#8).set 15 1 |>.set 42 7
     ({} : State).slicesNamed { opcode := 0x0502, verMaj := 1, verMin := 0, token := 0, payload := p } = [7]) ∧
    (let p : List Byte := (List.replicate 24 0#8).set 17 4 |>.set 16 9
     ({} : State).slicesNamed { opcode := 0x0500, verMaj := 1, verMin := 0, token := 0, payload := p } = [9]) := by decide +kernel

theorem witness_MemoryStaysCanonical : (let s : State := { Tests.pcie with pending := [.dealerPlace 0 .clean] }
    Memory.wf s.mem = true ∧ s.pending ≠ []) := by decide +kernel

theorem witness_InstructionWordsRoundTrip : xoWord (.addi Tests.x0 1 2 (-1)) = some (Tests.x0, 0b000001_00001_00010_1111111111111111#32) ∧
    xoLegal (.addi Tests.x0 1 2 (-1)) = true ∧ Claims.CleanOutcome (.addi Tests.x0 1 2 (-1)) := ⟨by decide, by decide, trivial⟩

end Tests
end

/-! # The switch core's arbitration is fair (04 R90 to R101)

Allowances, the refill of token buckets, and promotion at the five arbiters. -/

namespace Sys2Proof.Machine

/-! ## Accounts, links and folds over keys -/

theorem State.vcb_putVcb (s : State) (a b : Nat) (v : VcBuf) : (s.putVcb a v).vcb b = if b = a then v else s.vcb b :=
  Tab.getD_setD ..

theorem State.vcb_modVcb (s : State) (a b : Nat) (g : VcBuf → VcBuf) :
    (s.modVcb a g).vcb b = if b = a then g (s.vcb a) else s.vcb b := State.vcb_putVcb ..

theorem State.bucket_putBucket (s : State) (m j : Nat) (v : Buckets) :
    (s.putBucket m v).bucket j = if j = m then v else s.bucket j := Tab.getD_setD ..

/-- One more credit due to the far side of an account. -/
theorem State.dueOf_modTxOf (s : State) (a : Nat) :
    (s.modTxOf (a / 16) fun t => { t with due := t.due.mod (a % 16) 0 (· + 1) }).dueOf a = s.dueOf a + 1 := by
  simp [State.dueOf, State.txOf, State.modTxOf, State.putTxOf, Tab.getD_mod]

/-- What every step of a fold keeps, the fold keeps. -/
theorem State.each_keeps {P : State → Prop} {f : State → Nat → State} {ks : List Nat} (keep : ∀ t, ∀ k ∈ ks, P t → P (f t k))
    {s : State} (h : P s) : P (s.each ks f) := by
  induction ks generalizing s with
  | nil => exact h
  | cons k ks ih => exact ih (fun t j hj => keep t j (List.mem_cons_of_mem _ hj)) (keep s k List.mem_cons_self h)

/-- What one step of a fold brings about, under an invariant, and every step keeps, holds after the fold. -/
theorem State.each_reaches {I P : State → Prop} {f : State → Nat → State} {ks : List Nat} {k : Nat} (hk : k ∈ ks)
    (inv : ∀ t, ∀ j ∈ ks, I t → I (f t j)) (keep : ∀ t, ∀ j ∈ ks, P t → P (f t j)) (reach : ∀ t, I t → P (f t k))
    {s : State} (h : I s) : P (s.each ks f) := by
  induction ks generalizing s with
  | nil => cases hk
  | cons j ks ih =>
    have inv' : ∀ t, ∀ i ∈ ks, I t → I (f t i) := fun t i hi => inv t i (List.mem_cons_of_mem _ hi)
    have keep' : ∀ t, ∀ i ∈ ks, P t → P (f t i) := fun t i hi => keep t i (List.mem_cons_of_mem _ hi)
    rcases List.mem_cons.mp hk with rfl | hk
    · exact State.each_keeps keep' (reach s h)
    · exact ih hk inv' keep' (inv s j List.mem_cons_self h)

/-! ## Grants of shared cells leave allowances (04 R92) -/

/-- The allowances, the registers and the packet queues are the same. -/
structure SameAllowances (s t : State) : Prop where
  allow : ∀ a, (t.vcb a).allow = (s.vcb a).allow
  regs : t.regs = s.regs
  inq : t.inq = s.inq
  outq : t.outq = s.outq

theorem SameAllowances.refl (s : State) : SameAllowances s s := ⟨fun _ => rfl, rfl, rfl, rfl⟩

theorem SameAllowances.trans {s t u : State} (h : SameAllowances s t) (k : SameAllowances t u) : SameAllowances s u :=
  ⟨fun a => (k.allow a).trans (h.allow a), k.regs.trans h.regs, k.inq.trans h.inq, k.outq.trans h.outq⟩

/-- A write to an account that keeps its allowance. -/
theorem SameAllowances.putVcb {s t : State} (h : SameAllowances s t) {a : Nat} {v : VcBuf} (hv : v.allow = (s.vcb a).allow) :
    SameAllowances s (t.putVcb a v) := by
  obtain ⟨allow, regs, inq, outq⟩ := h
  refine ⟨fun b => ?_, regs, inq, outq⟩
  rw [State.vcb_putVcb]
  split
  next hb => rw [hb, hv]
  next => exact allow b

theorem State.takeCell_sameAllowances {s t : State} {a : Nat} (h : s.takeCell a = some t) : SameAllowances s t := by
  simp only [State.takeCell] at h
  split at h
  · split at h <;> cases h
    exact (SameAllowances.refl s).putVcb rfl
  · split at h
    · cases h
      exact (SameAllowances.refl s).putVcb rfl
    · split at h <;> cases h
      refine SameAllowances.putVcb ?_ ?_
      · exact ⟨fun _ => rfl, rfl, rfl, rfl⟩
      · rfl

theorem State.grantShared_sameAllowances (s : State) (a : Nat) : SameAllowances s (s.grantShared a) := by
  simp only [State.grantShared]
  split
  next t ht =>
    refine (State.takeCell_sameAllowances ht).trans ?_
    split
    · refine SameAllowances.putVcb ?_ ?_
      · exact ⟨fun _ => rfl, rfl, rfl, rfl⟩
      · rfl
    · have credited : SameAllowances t (t.modVcb a fun b => { b with credits := b.credits + 1 }) := (SameAllowances.refl t).putVcb rfl
      exact credited.putVcb (credited.allow a)
  next => exact .refl s

theorem State.sharedGrants_sameAllowances (s : State) (q n : Nat) : SameAllowances s (s.sharedGrants q n) := by
  induction n generalizing s with
  | zero => exact .refl s
  | succ n ih =>
    simp only [State.sharedGrants]
    split
    · exact .refl s
    next a _ =>
      obtain ⟨allow, regs, inq, outq⟩ := s.grantShared_sameAllowances a
      have granted : SameAllowances s { s.grantShared a with arb := s.arb.setD q 0 (a / 16) } := ⟨allow, regs, inq, outq⟩
      split
      · exact granted.trans (ih _)
      · exact .refl s

/-! ## Allowances (04 R90) -/

/-- A main VC of an input port takes its allowance. -/
def State.takeAllowance (s : State) (q p tc : Nat) : State :=
  s.modVcb (16 * p + tc) fun b => { b with allow := s.allowance q tc }

/-- Every main VC of an input port takes its allowance. -/
def State.takePortAllowances (s : State) (q p : Nat) : State := s.each (List.range 6) fun s tc => s.takeAllowance q p tc

/-- The ports of a quadrant: its fabric ports and its internal ones (04 R85). -/
def quadPorts (q : Nat) : List Nat := (List.range 36).map (36 * q + ·) ++ (List.range 7).map (corePort q)

/-- Every main VC of a quadrant's ports takes its allowance. -/
def State.takeAllowances (s : State) (q : Nat) : State := s.each (quadPorts q) fun s p => s.takePortAllowances q p

theorem exec_allowanceRecompute {q : Nat} (hq : q < 4) (s : State) :
    exec (.allowanceRecompute q) s = .next ((s.takeAllowances q).sharedGrants q 258).moveCells := by
  show execAllowanceRecompute q s = _
  rw [execAllowanceRecompute, Nat.mod_eq_of_lt hq]
  rfl

theorem mem_quadPorts {q p : Nat} :
    p ∈ quadPorts q ↔ 36 * q ≤ p ∧ p < 36 * q + 36 ∨ 144 + 7 * q ≤ p ∧ p < 144 + 7 * q + 7 := by
  simp only [quadPorts, corePort, List.mem_append, List.mem_map, List.mem_range]
  constructor
  · rintro (⟨k, hk, rfl⟩ | ⟨k, hk, rfl⟩) <;> omega
  · rintro (h | h)
    · exact .inl ⟨p - 36 * q, by omega, by omega⟩
    · exact .inr ⟨p - (144 + 7 * q), by omega, by omega⟩

/-- Only accounts differ. -/
def SameButAccounts (s t : State) : Prop := ∃ v, t = { s with vcbuf := v }

theorem SameButAccounts.refl (s : State) : SameButAccounts s s := ⟨s.vcbuf, rfl⟩

theorem SameButAccounts.takeAllowance {s t : State} (h : SameButAccounts s t) (q p tc : Nat) :
    SameButAccounts s (t.takeAllowance q p tc) := by
  obtain ⟨v, rfl⟩ := h
  exact ⟨_, rfl⟩

/-- Only accounts differ, and the class `tc` of port `p` stands at the allowance of 04 R90. -/
def AllowanceTaken (s : State) (q p tc : Nat) (t : State) : Prop :=
  SameButAccounts s t ∧ (t.vcb (16 * p + tc)).allow = s.allowance q tc

theorem SameButAccounts.takeAllowance_taken {s t : State} (h : SameButAccounts s t) (q p tc : Nat) :
    AllowanceTaken s q p tc (t.takeAllowance q p tc) := by
  refine ⟨h.takeAllowance q p tc, ?_⟩
  obtain ⟨v, rfl⟩ := h
  rw [State.takeAllowance, State.vcb_modVcb, if_pos rfl]
  rfl

/-- Another main VC that takes its allowance leaves this one's. -/
theorem AllowanceTaken.takeAllowance {s t : State} {q p tc p' tc' : Nat} (htc : tc < 6) (htc' : tc' < 6)
    (h : AllowanceTaken s q p tc t) : AllowanceTaken s q p tc (t.takeAllowance q p' tc') := by
  obtain ⟨hs, ha⟩ := h
  by_cases hk : 16 * p + tc = 16 * p' + tc'
  · obtain ⟨rfl, rfl⟩ : p = p' ∧ tc = tc' := by omega
    exact hs.takeAllowance_taken q p tc
  · refine ⟨hs.takeAllowance q p' tc', ?_⟩
    rw [State.takeAllowance, State.vcb_modVcb, if_neg hk, ha]

section AllowancesOfAQuadrant

variable {s t : State} {q p tc : Nat}

theorem SameButAccounts.takePortAllowances (h : SameButAccounts s t) (q p : Nat) : SameButAccounts s (t.takePortAllowances q p) := by
  rw [State.takePortAllowances]
  exact State.each_keeps (P := SameButAccounts s) (fun _ k _ hu => hu.takeAllowance q p k) h

theorem SameButAccounts.takePortAllowances_taken (h : SameButAccounts s t) (htc : tc < 6) :
    AllowanceTaken s q p tc (t.takePortAllowances q p) := by
  rw [State.takePortAllowances]
  refine State.each_reaches (I := SameButAccounts s) (P := AllowanceTaken s q p tc) (List.mem_range.mpr htc) ?_ ?_ ?_ h
  · exact fun _ k _ hu => hu.takeAllowance q p k
  · exact fun _ k hk hu => hu.takeAllowance htc (List.mem_range.mp hk)
  · exact fun _ hu => hu.takeAllowance_taken q p tc

theorem AllowanceTaken.takePortAllowances (htc : tc < 6) (h : AllowanceTaken s q p tc t) (p' : Nat) :
    AllowanceTaken s q p tc (t.takePortAllowances q p') := by
  rw [State.takePortAllowances]
  exact State.each_keeps (P := AllowanceTaken s q p tc) (fun _ k hk hu => hu.takeAllowance htc (List.mem_range.mp hk)) h

theorem State.takeAllowances_sameButAccounts (s : State) (q : Nat) : SameButAccounts s (s.takeAllowances q) := by
  rw [State.takeAllowances]
  exact State.each_keeps (P := SameButAccounts s) (fun _ k _ hu => hu.takePortAllowances q k) (.refl s)

theorem State.takeAllowances_taken (hp : p ∈ quadPorts q) (htc : tc < 6) : AllowanceTaken s q p tc (s.takeAllowances q) := by
  rw [State.takeAllowances]
  refine State.each_reaches (I := SameButAccounts s) (P := AllowanceTaken s q p tc) hp ?_ ?_ ?_ (.refl s)
  · exact fun _ k _ hu => hu.takePortAllowances q k
  · exact fun _ k _ hu => hu.takePortAllowances htc k
  · exact fun _ hu => hu.takePortAllowances_taken htc

end AllowancesOfAQuadrant

theorem allowanceRecompute_setsAllowances {q : Nat} (hq : q < 4) (s : State) :
    MovesCells (.allowanceRecompute q) s fun t =>
      (∀ p tc, p ∈ quadPorts q → tc < 6 → (t.vcb (16 * p + tc)).allow = s.allowance q tc) ∧
      t.regs = s.regs ∧ t.inq = s.inq ∧ t.outq = s.outq := by
  have kept := (s.takeAllowances q).sharedGrants_sameAllowances q 258
  refine ⟨_, exec_allowanceRecompute hq s, fun p tc hp htc => ?_, ?_⟩
  · rw [kept.allow, (State.takeAllowances_taken hp htc).2]
  · obtain ⟨v, hv⟩ := s.takeAllowances_sameButAccounts q
    rw [kept.regs, kept.inq, kept.outq, hv]
    exact ⟨rfl, rfl, rfl⟩

/-! ## Token buckets (04 R97) -/

/-- A level after one TICK's gain: up to BURST, and not below the least level of a bucket. -/
def refilled (v : Int) (rate burst : Nat) : Int :=
  if v + rate < 16 * (Nat.max 65 burst : Nat) then (if v + rate < -524288 then -524288 else v + rate) else 16 * (Nat.max 65 burst : Nat)

/-- The bucket of member `m` after one TICK. -/
def State.refilledBucket (s : State) (m : Nat) : Buckets :=
  let k := 32 * s.memberQuad m + m
  { tc3 := refilled (s.bucket m).tc3 (s.rd F.qswRateRateTc3 k) (s.rd F.qswRateBurstTc3 k)
    tc5 := refilled (s.bucket m).tc5 (s.rd F.qswRateRateTc5 k) (s.rd F.qswRateBurstTc5 k) }

/-- One class of a member gains its rate. -/
def State.gain (s : State) (q m tc rate : Nat) : State :=
  s.putLevel m tc (if s.level m tc + rate < 16 * (s.burst q m tc : Int) then s.level m tc + rate else 16 * (s.burst q m tc : Int))

/-- Both classes of a member gain their rate. -/
def State.refillMember (s : State) (m : Nat) : State :=
  let q := s.memberQuad m
  let t := s.gain q m 3 (s.rd F.qswRateRateTc3 (32 * q + m))
  t.gain q m 5 (s.rd F.qswRateRateTc5 (32 * q + m))

theorem exec_tokenBucketRefill (s : State) :
    exec .tokenBucketRefill s = .next (s.each (List.range 32) State.refillMember) := rfl

/-- The clamp of a written level does not touch the burst, which is positive. -/
theorem clamped_gain (v : Int) (rate burst : Nat) :
    (let w : Int := if v + rate < 16 * ((Nat.max 65 burst : Nat) : Int) then v + rate else 16 * ((Nat.max 65 burst : Nat) : Int)
     if w < -524288 then -524288 else w) = refilled v rate burst := by
  simp only [refilled]
  split
  · rfl
  · rw [if_neg (by omega)]

theorem State.gain_tc3 (s : State) (q m rate : Nat) :
    s.gain q m 3 rate =
      s.putBucket m { s.bucket m with tc3 := refilled (s.bucket m).tc3 rate (s.rd F.qswRateBurstTc3 (32 * q + m)) } := by
  rw [← clamped_gain]
  rfl

theorem State.gain_tc5 (s : State) (q m rate : Nat) :
    s.gain q m 5 rate =
      s.putBucket m { s.bucket m with tc5 := refilled (s.bucket m).tc5 rate (s.rd F.qswRateBurstTc5 (32 * q + m)) } := by
  rw [← clamped_gain]
  rfl

/-- Only buckets differ. -/
def SameButBuckets (s t : State) : Prop := ∃ b, t = { s with buckets := b }

theorem State.refillMember_sameButBuckets {s t : State} (h : SameButBuckets s t) (m : Nat) : SameButBuckets s (t.refillMember m) := by
  obtain ⟨b, rfl⟩ := h
  exact ⟨_, rfl⟩

theorem State.refillMember_bucket (s : State) (m j : Nat) :
    (s.refillMember m).bucket j = if j = m then s.refilledBucket m else s.bucket j := by
  simp only [State.refillMember, State.gain_tc3, State.gain_tc5, State.bucket_putBucket]
  split
  · simp only [if_pos]; rfl
  · rfl

/-- The refill of a member looks at its own bucket only. -/
theorem SameButBuckets.refilledBucket {s t : State} (h : SameButBuckets s t) {m : Nat} (hm : t.bucket m = s.bucket m) :
    t.refilledBucket m = s.refilledBucket m := by
  obtain ⟨b, rfl⟩ := h
  simp only [State.refilledBucket, hm]
  rfl

/-- The members below `n` have been refilled, and no other. -/
theorem State.refill_each (s : State) (n : Nat) :
    SameButBuckets s (s.each (List.range n) State.refillMember) ∧
    ∀ m, (s.each (List.range n) State.refillMember).bucket m = if m < n then s.refilledBucket m else s.bucket m := by
  induction n with
  | zero => exact ⟨⟨s.buckets, rfl⟩, fun m => rfl⟩
  | succ n ih =>
    obtain ⟨same, each⟩ := ih
    have last : s.each (List.range (n + 1)) State.refillMember = (s.each (List.range n) State.refillMember).refillMember n := by
      simp only [State.each, List.range_succ, List.foldl_append, List.foldl_cons, List.foldl_nil]
    rw [last]
    refine ⟨State.refillMember_sameButBuckets same n, fun m => ?_⟩
    rw [State.refillMember_bucket]
    split
    next h =>
      subst h
      rw [if_pos (Nat.lt_succ_self m), same.refilledBucket (by rw [each, if_neg (Nat.lt_irrefl m)])]
    next h =>
      have below : m < n + 1 ↔ m < n := by omega
      simp only [each, below]

/-- The first link that a member has decides its quadrant. -/
theorem State.memberQuad_of_first {s : State} {m l p : Nat} (hl : l < 8) (before : ∀ j, j < l → s.tables.memberPorts.getD (8 * m + j) 0 = 0)
    (first : s.tables.memberPorts.getD (8 * m + l) 0 = p + 1) : s.memberQuad m = p / 36 % 4 := by
  have found : ((List.range 8).map fun j => s.tables.memberPorts.getD (8 * m + j) 0).find? (fun e => e ≠ 0) = some (p + 1) := by
    rw [List.find?_eq_some_iff_getElem]
    refine ⟨by simp, l, by simpa using hl, by simpa using first, fun j hj => ?_⟩
    simpa using before j hj
  rw [State.memberQuad, found]
  rfl

theorem allowancesAndTokenBuckets : Claims.AllowancesAndTokenBuckets := by
  refine ⟨fun q s hq => ?_, fun s => ?_, fun m l p s hl before first => State.memberQuad_of_first hl before first⟩
  · obtain ⟨u, hu, allow, same⟩ := allowanceRecompute_setsAllowances hq s
    exact ⟨u, hu, fun p tc hp htc => allow p tc (mem_quadPorts.mpr hp) htc, same⟩
  · obtain ⟨same, each⟩ := s.refill_each 32
    refine ⟨_, exec_tokenBucketRefill s, same, fun m hm => ?_⟩
    rw [each, if_pos hm]
    exact ⟨rfl, rfl⟩

/-! ## Promotion (04 R98 to R100) -/

theorem aged_iff {age lim : Nat} : aged age lim = true ↔ Claims.Past age lim := decide_eq_true_iff

theorem aged_eq_false {age lim : Nat} (h : ¬Claims.Past age lim) : aged age lim = false :=
  Bool.eq_false_iff.mpr (mt aged_iff.mp h)

theorem exec_promotion (arb : Arbiter) (s : State) : exec (.promotion arb) s = execPromotion arb s := rfl

/-! ### Memory channel: patrol scrub -/

/-- No read is due while the channel's mark stands at its clock. -/
theorem State.scrubAge_of_marked {s : State} {ch : Nat} (h : s.scrubMark.getD ch 0 = s.scrubClock.getD (ch / 16) 0) :
    s.scrubAge ch = 0 := by
  rw [State.scrubAge, h, Nat.sub_self, Nat.zero_sub]

theorem State.scrub_marks (s : State) (ch : Nat) (e : Ecc) :
    (s.scrub ch e).scrubMark.getD ch 0 = (s.scrub ch e).scrubClock.getD (ch / 16) 0 := by
  simp only [State.scrub, Tab.getD_setD_same]

theorem promotion_memScrub (ch : Nat) (e : Ecc) (s : State) (hch : ch < 64) (ready : s.memReady = true)
    (en : s.flag F.memcScrubEn (ch / 16) = true) :
    (Claims.Past (s.scrubAge ch) (s.rd F.memcScrubPromo (ch / 16)) → ∃ u, exec (.scrubRead ch e) s = .next u ∧
      Does (.promotion (.memScrub ch e)) s fun t => Counted u t ∧ t.scrubAge ch = 0) ∧
    (¬Claims.Past (s.scrubAge ch) (s.rd F.memcScrubPromo (ch / 16)) → exec (.promotion (.memScrub ch e)) s = .next s) := by
  constructor
  · intro past
    refine ⟨s.scrub ch e, ?_, (s.scrub ch e).ev (U.mem ch) 0x05, ?_, ?_, ?_⟩
    · show execScrubRead ch e s = _
      simp [execScrubRead, hch, ready, en]
    · simp [exec_promotion, execPromotion, hch, ready, en, aged_iff.mpr past]
    · exact State.ev_counted _ _ _ _ (show 196 + ch < 2 ^ 16 by omega)
    · exact State.scrubAge_of_marked (by rw [State.ev_scrubMark, State.ev_scrubClock, State.scrub_marks])
  · intro fresh
    simp [exec_promotion, execPromotion, aged_eq_false fresh]

/-! ### MRAM port and self-test -/

theorem promotion_mramPort (ok0 ok1 : Bool) (s : State) (c : CommitReq) (r : List CommitReq) (hq : s.ledger.queue = c :: r) :
    (Claims.Past c.age (s.rd F.ledgArbPromo) → exec (.promotion (.mramPort ok0 ok1)) s = exec (.ledgerCommit ok0 ok1) s) ∧
    (¬Claims.Past c.age (s.rd F.ledgArbPromo) → exec (.promotion (.mramPort ok0 ok1)) s = .next s) := by
  constructor
  · intro past
    simp only [exec_promotion, execPromotion, hq, aged_iff.mpr past, if_true]
    rfl
  · intro fresh
    simp [exec_promotion, execPromotion, hq, aged_eq_false fresh]

theorem promotion_mramPort_idle (ok0 ok1 : Bool) (s : State) (hq : s.ledger.queue = []) :
    exec (.promotion (.mramPort ok0 ok1)) s = .next s := by
  simp only [exec_promotion, execPromotion, hq]

theorem promotion_selftest (pass : Bool) (s : State) :
    (Claims.Past s.pair.selftestAge (s.rd F.condSelftestPromo) → exec (.promotion (.selftest pass)) s = exec (.selftest pass) s) ∧
    (¬Claims.Past s.pair.selftestAge (s.rd F.condSelftestPromo) → exec (.promotion (.selftest pass)) s = .next s) := by
  constructor
  · intro past
    simp only [exec_promotion, execPromotion, aged_iff.mpr past, if_true]
    rfl
  · intro fresh
    simp [exec_promotion, execPromotion, aged_eq_false fresh]

/-! ### Dealer -/

theorem promotion_dealer (q : Nat) (s : State) (hq : q < 4) :
    ((∃ e ∈ s.waitingInsts q, Claims.Past (s.waitAge e.2) (s.rd F.pipDealcfgPromo q)) →
      exec (.promotion (.dealer q)) s = exec (.dealerPlace q .clean) s) ∧
    ((∀ e ∈ s.waitingInsts q, ¬Claims.Past (s.waitAge e.2) (s.rd F.pipDealcfgPromo q)) → exec (.promotion (.dealer q)) s = .next s) := by
  constructor
  · rintro ⟨e, he, past⟩
    have any : ((s.waitingInsts q).any fun e => aged (s.waitAge e.2) (s.rd F.pipDealcfgPromo q)) = true :=
      List.any_eq_true.mpr ⟨e, he, aged_iff.mpr past⟩
    simp only [exec_promotion, execPromotion, Nat.mod_eq_of_lt hq, any, if_true]
    rfl
  · intro fresh
    have noneAged : ((s.waitingInsts q).any fun e => aged (s.waitAge e.2) (s.rd F.pipDealcfgPromo q)) = false :=
      List.any_eq_false.mpr fun e he => mt aged_iff.mp (fresh e he)
    simp [exec_promotion, execPromotion, Nat.mod_eq_of_lt hq, noneAged]

/-! ### Shared cells -/

theorem State.portQuad_of_mem_waiters {s : State} {q a : Nat} (h : a ∈ s.waiters q) : portQuad (a / 16) = q := by
  simp only [State.waiters, List.mem_map, List.mem_filter, Bool.and_eq_true, decide_eq_true_eq] at h
  obtain ⟨e, ⟨-, ⟨-, hquad⟩, -⟩, rfl⟩ := h
  exact hquad

/-- A main VC past its ingress reserve takes its cell from the shared pool (04 R90). -/
theorem State.takeCell_shared {s : State} {a : Nat} (hvc : a % 16 < 8) (reserve : s.ires (portQuad (a / 16)) ≤ (s.vcb a).resCells)
    (free : 0 < s.sharedFree (portQuad (a / 16))) :
    s.takeCell a = some ({ s with shared := s.shared.mod (portQuad (a / 16)) 0 (· + 1) }.putVcb a
      { s.vcb a with shCells := (s.vcb a).shCells + 1 }) := by
  simp only [State.takeCell, if_neg (Nat.not_le.mpr hvc), if_neg (Nat.not_lt.mpr reserve), if_pos free]

/-- A granted cell of a fabric port: the age restarts, the account holds what was taken, and one more credit is due. -/
theorem State.grantShared_of_takeCell {s t : State} {a : Nat} (hp : a / 16 < 144) (take : s.takeCell a = some t) :
    ((s.grantShared a).vcb a).age = 0 ∧ ((s.grantShared a).vcb a).shCells = (t.vcb a).shCells ∧
    (s.grantShared a).dueOf a = t.dueOf a + 1 := by
  simp only [State.grantShared, take, if_pos hp]
  refine ⟨?_, ?_, t.dueOf_modTxOf a⟩ <;> rw [State.vcb_modVcb, if_pos rfl]
  rfl

theorem State.oldestWaiter_singleton (s : State) (a : Nat) : s.oldestWaiter [a] = some a := rfl

theorem promotion_sharedCell_past {q a : Nat} {s : State} (hq : q < 4) (only : s.waiters q = [a])
    (past : Claims.Past (s.vcb a).age (s.rd F.qswBufarbPromo q)) (free : 0 < s.sharedFree q) :
    exec (.promotion (.sharedCell q)) s = .next ({ s.grantShared a with arb := s.arb.setD q 0 (a / 16) }).moveCells := by
  simp only [exec_promotion, execPromotion, Nat.mod_eq_of_lt hq, only, List.filter_cons, List.filter_nil, aged_iff.mpr past, if_true,
    State.oldestWaiter_singleton, if_pos free]

theorem promotion_sharedCell {q a : Nat} {s : State} (hq : q < 4) (only : s.waiters q = [a]) (free : 0 < s.sharedFree q)
    (hvc : a % 16 < 6) (hp : a / 16 < 144) (reserve : s.ires q ≤ (s.vcb a).resCells)
    (past : Claims.Past (s.vcb a).age (s.rd F.qswBufarbPromo q)) :
    MovesCells (.promotion (.sharedCell q)) s fun t => (t.vcb a).age = 0 ∧ (t.vcb a).shCells = (s.vcb a).shCells + 1 ∧
      t.dueOf a = s.dueOf a + 1 ∧ t.arb.getD q 0 = a / 16 := by
  obtain rfl : portQuad (a / 16) = q := State.portQuad_of_mem_waiters (only ▸ List.mem_cons_self)
  obtain ⟨age, cells, due⟩ := State.grantShared_of_takeCell hp (State.takeCell_shared (by omega) reserve free)
  refine ⟨_, promotion_sharedCell_past hq only past free, age, cells.trans ?_, due, Tab.getD_setD_same ..⟩
  rw [State.vcb_putVcb, if_pos rfl]

theorem promotion_sharedCell_fresh {q : Nat} {s : State} (hq : q < 4)
    (fresh : ∀ a ∈ s.waiters q, ¬Claims.Past (s.vcb a).age (s.rd F.qswBufarbPromo q)) :
    exec (.promotion (.sharedCell q)) s = .next s := by
  have noneAged : ((s.waiters q).filter fun a => aged (s.vcb a).age (s.rd F.qswBufarbPromo q)) = [] :=
    List.filter_eq_nil_iff.mpr fun a ha => mt aged_iff.mp (fresh a ha)
  simp only [exec_promotion, execPromotion, Nat.mod_eq_of_lt hq, noneAged]
  rfl

theorem promotions : Claims.Promotions :=
  ⟨promotion_memScrub, promotion_mramPort, promotion_selftest,
    fun _ _ _ hq only free hvc hp reserve past => promotion_sharedCell hq only free hvc hp reserve past,
    fun _ _ hq fresh => promotion_sharedCell_fresh hq fresh, promotion_dealer, promotion_mramPort_idle⟩

/-- Settles O57: the packet buffer's allowances and buckets by induction over the keys each row visits, promotion arbiter by arbiter. -/
theorem arbitrationIsFair : Obligations.ArbitrationIsFair := ⟨allowancesAndTokenBuckets, promotions⟩

end Sys2Proof.Machine

/-! # Accesses of a core to the banks (07 R171, R172; 08 R193 to R196)

What a clean read and a clean atomic of a bank do, how a bank operation retires, and from these BLD, BST, BATOM and
BANK_OP_COMPLETE. -/

namespace Sys2Proof.Machine

/-! ## Counting beside a write to the stores, and beside a retirement -/

/-- A state that counted alike keeps which banks are fenced. -/
theorem Counted.bankFenced {s u : State} (h : Counted s u) (q b : Nat) : u.bankFenced q b = s.bankFenced q b := by
  obtain ⟨⟨_, _, rfl⟩, -⟩ := h
  rfl

theorem Counted.placeOf {s u : State} (h : Counted s u) (q a : Nat) : u.placeOf q a = s.placeOf q a := by
  obtain ⟨⟨_, _, rfl⟩, -⟩ := h
  rfl

theorem Counted.bankWord {s u : State} (h : Counted s u) (k : Nat) : u.bankWord k = s.bankWord k := by
  obtain ⟨⟨_, _, rfl⟩, -⟩ := h
  rfl

theorem Counted.dice {s u : State} (h : Counted s u) : u.dice = s.dice := by
  obtain ⟨⟨_, _, rfl⟩, -⟩ := h
  rfl

/-- The same word written before the counting and after it. -/
theorem Counted.bankSet {s u : State} (h : Counted s u) (q a : Nat) (f : Flit) (p : Bool) :
    Counted (s.bankSet q a f p) (u.bankSet q a f p) := by
  obtain ⟨⟨r, n, rfl⟩, regs⟩ := h
  exact ⟨⟨r, n, rfl⟩, regs⟩

theorem Retired.of_counted {x : CtxId} {c : PipCtx} {s u t : State} (h : Counted s u) (k : Retired x c u t) : Retired x c s t := by
  obtain ⟨⟨r, n, rfl⟩, regs⟩ := h
  obtain ⟨td, same, counted⟩ := k
  exact ⟨td, same, .trans ⟨⟨r, n, rfl⟩, regs⟩ counted⟩

theorem Retired.ev {x : CtxId} {c : PipCtx} {s t : State} (h : Retired x c s t) {u e n : Nat} (hu : u < 2 ^ 16) :
    Retired x c s (t.ev u e n) := by
  obtain ⟨td, same, counted⟩ := h
  exact ⟨td, same, counted.trans (t.ev_counted u e n hu)⟩

theorem Retired.banks {x : CtxId} {c : PipCtx} {s t : State} (h : Retired x c s t) : t.banks = s.banks := by
  obtain ⟨_, -, ⟨_, _, rfl⟩, -⟩ := h
  rfl

theorem Retired.bankWord {x : CtxId} {c : PipCtx} {s t : State} (h : Retired x c s t) (k : Nat) : t.bankWord k = s.bankWord k := by
  rw [State.bankWord, h.banks, State.bankWord]

/-- The stores of a retired instruction may be named as those it left. -/
theorem Retired.withBanks {x : CtxId} {c : PipCtx} {s t : State} {b : Tab BankWord} (h : Retired x c { s with banks := b } t) :
    Retired x c { s with banks := t.banks } t := by
  rw [h.banks]
  exact h

theorem State.bankWord_bankSet (s : State) (q a : Nat) (f : Flit) (p : Bool) (k : Nat) :
    (s.bankSet q a f p).bankWord k = if k = bankKey q a then { data := f, poison := p, empty := false } else s.bankWord k :=
  Tab.getD_setD ..

/-! ## Places -/

theorem logicalPlace_bank_lt (a : Nat) : (logicalPlace a).bank < 512 := by
  unfold logicalPlace
  split <;> simp only <;> omega

theorem getD_lt {l : List Nat} {n d : Nat} (hl : ∀ b ∈ l, b < n) (hd : d < n) (k : Nat) : l.getD k d < n := by
  rw [List.getD_eq_getElem?_getD]
  cases h : l[k]? with
  | none => exact hd
  | some b => exact hl b (List.mem_of_getElem? h)

/-- Relocation stays within the banks of a store. -/
theorem State.placeOf_bank_lt (s : State) (q a : Nat) : (s.placeOf q a).bank < 512 := by
  have logical := logicalPlace_bank_lt a
  simp only [State.placeOf]
  split
  · exact logical
  · refine getD_lt (fun b hb => ?_) logical _
    simp only [List.mem_filter, List.mem_map, List.mem_range] at hb
    obtain ⟨⟨j, hj, rfl⟩, -⟩ := hb
    split at hj <;> simp_all <;> omega

theorem State.bankUnit_lt (s : State) {q : Nat} (hq : q < 4) (a : Nat) : bankUnit q (s.placeOf q a) < 2 ^ 16 := by
  have := s.placeOf_bank_lt q a
  simp only [bankUnit, U.bank]
  omega

/-! ## Clean reads and atomics (07 R171, R174) -/

/-- No die is loaded, and no retirement fences the bank that holds the word: a clean read is clean. -/
structure CleanBank (s : State) (q a : Nat) : Prop where
  quad : q < 4
  dice : s.dice = []
  unfenced : s.bankFenced q (s.placeOf q a).bank = false

theorem CleanBank.of_counted {s u : State} {q a : Nat} (h : CleanBank s q a) (c : Counted s u) : CleanBank u q a := by
  obtain ⟨quad, dice, unfenced⟩ := h
  exact ⟨quad, c.dice.trans dice, by rw [c.bankFenced, c.placeOf, unfenced]⟩

theorem State.eccRead_clean {s : State} {q b : Nat} (hd : s.dice = []) (hf : s.bankFenced q b = false) (row store : Nat) :
    s.eccRead q b row store .clean = (s, false) := by
  simp [State.eccRead, State.evaluate_noDice _ _ _ _ hd, hf]

theorem State.onlyIf_ev_counted (s : State) (c : Bool) {u e : Nat} (hu : u < 2 ^ 16) : Counted s (s.onlyIf c fun s => s.ev u e) := by
  unfold State.onlyIf
  split
  · exact s.ev_counted u e 1 hu
  · exact .refl s

theorem State.bankRead_clean {s : State} {q a : Nat} (h : CleanBank s q a) :
    ∃ t, Counted s t ∧ s.bankRead q a .clean = (t, s.bankWord (bankKey q a)) := by
  have counted := s.onlyIf_ev_counted (decide (s.placeOf q a ≠ logicalPlace a)) (e := 0x08) (s.bankUnit_lt h.quad a)
  refine ⟨_, counted, ?_⟩
  simp only [State.bankRead]
  rw [State.eccRead_clean (counted.dice.trans h.dice) ((counted.bankFenced _ _).trans h.unfenced)]
  rfl

/-- A counted access, then a clean read. -/
theorem State.bankRead_ev_clean {s : State} {q a : Nat} (h : CleanBank s q a) (e : Nat) :
    ∃ t, Counted s t ∧ (s.ev (bankUnit q (s.placeOf q a)) e).bankRead q a .clean = (t, s.bankWord (bankKey q a)) := by
  have counted := s.ev_counted (bankUnit q (s.placeOf q a)) e 1 (s.bankUnit_lt h.quad a)
  obtain ⟨t, read, eq⟩ := State.bankRead_clean (h.of_counted counted)
  exact ⟨t, counted.trans read, by rw [eq, counted.bankWord]⟩

theorem State.bankReadWord_clean {s : State} {q a : Nat} (h : CleanBank s q a) :
    ∃ t, Counted s t ∧ s.bankReadWord q a .clean = (t, s.bankWord (bankKey q a)) := State.bankRead_ev_clean h 0x02

theorem State.bankRmw_poison {s : State} {q a : Nat} (h : CleanBank s q a) (hp : (s.bankWord (bankKey q a)).poison = true)
    (first : Flit → Flit × Flags) (f : Flit → Flit → Flit × Flags) (y : Flit) :
    ∃ t, Counted s t ∧ s.bankRmw q a .clean first f y = (t, s.bankWord (bankKey q a), 0) := by
  obtain ⟨t, counted, read⟩ := State.bankRead_ev_clean h 0x01
  exact ⟨t, counted, by simp only [State.bankRmw, read, hp, if_true]⟩

theorem State.bankRmw_clean {s : State} {q a : Nat} (h : CleanBank s q a) (hp : (s.bankWord (bankKey q a)).poison = false)
    (first : Flit → Flit × Flags) (f : Flit → Flit → Flit × Flags) (y : Flit) :
    let w := s.bankWord (bankKey q a)
    let z := if w.empty then first y else f w.data y
    ∃ t, Counted (s.bankSet q a z.1) t ∧ s.bankRmw q a .clean first f y = (t, w, z.2) := by
  obtain ⟨t, counted, read⟩ := State.bankRead_ev_clean h 0x01
  refine ⟨_, counted.bankSet q a _ false, ?_⟩
  simp only [State.bankRmw, read, hp, Bool.false_eq_true, if_false]

/-! ## A bank operation of a context (08 R193, R194) -/

/-- The state in which an issued instruction of a context runs: the core's round robin stands at it. -/
def State.issuing (s : State) (x : CtxId) : State := { s with rrCtx := s.rrCtx.setD x.core 0 x.ctx }

/-- A bank operation whose address passes every check goes to the bank. -/
theorem State.bankAccess_ok {s : State} {x : CtxId} {addr : Word} {m : Nat} {write : Bool} (hm : addr.toNat = m)
    (h : Claims.BankOk s x m write) (f : Nat → State) :
    (s.issuing x).bankAccess x (s.ctx (ctxNum x)) addr write f = f m := by
  subst hm
  obtain ⟨may, aligned, room, noRecarve, -⟩ := h
  have may' : (s.issuing x).mayAccess (s.ctx (ctxNum x)) addr.toNat 64 write = true := may
  have free : x.core / 32 ∉ (s.issuing x).recarve := noRecarve
  simp [State.bankAccess, may', aligned, Nat.not_le.mpr room, free]

theorem CleanBank.of_bankOk {s : State} {x : CtxId} {m : Nat} {write : Bool} (hx : x.core < 128) (hd : s.dice = [])
    (h : Claims.BankOk s x m write) : CleanBank (s.issuing x) (x.core / 32) m := by
  obtain ⟨-, -, -, -, unfenced⟩ := h
  exact ⟨by omega, hd, unfenced⟩

/-- An issued instruction whose bank address passes every check goes to the bank. -/
theorem State.issue_bankAccess {s : State} {i : Instr} {x : CtxId} (issuable : Issuable i x s) {m : Nat} {write : Bool}
    (ok : Claims.BankOk s x m write) {addr : PipCtx → Word} (hm : (addr (s.ctx (ctxNum x))).toNat = m)
    (f : State → CtxId → PipCtx → Bool → Nat → State) :
    ∃ vec, s.issue i (fun s x c vec => s.bankAccess x c (addr c) write (f s x c vec)) =
      f (s.issuing x) x (s.ctx (ctxNum x)) vec m := by
  obtain ⟨w, -, issue⟩ := State.issue_eq issuable fun s x c vec => s.bankAccess x c (addr c) write (f s x c vec)
  exact ⟨xoVector w, issue.trans (State.bankAccess_ok hm ok _)⟩

/-- The context after a bank operation that leaves it as `c`. -/
def PipCtx.bankOp (c : PipCtx) : PipCtx := { c with pc := c.pc + 4, run := .ready, bankOps := c.bankOps + 1 }

/-- A bank operation that has counted retires. -/
theorem State.bankRetire_retired {s u : State} {x : CtxId} (hx : x.core < 128) (h : Counted (s.issuing x) u) (vec : Bool)
    (c : PipCtx) : Retired x c.bankOp s (u.bankRetire x vec c) := by
  obtain ⟨⟨r, n, rfl⟩, regs⟩ := h
  have counted : Counted s { s with regs := r, cnt := n } := ⟨⟨r, n, rfl⟩, regs⟩
  have core : U.core x.core < 2 ^ 16 := by simp only [U.core]; omega
  exact ((State.retireAt_retired { s with regs := r, cnt := n } x vec { c with bankOps := c.bankOps + 1 } (c.pc + 4) hx).of_counted
    counted).ev core

/-- The address of a bank operation, from an immediate that counts words of 64 bytes. -/
theorem bankAddr_toNat (c : PipCtx) (a : Reg5) {w : Nat} (i : BitVec w) :
    (c.s a + i.signExtend 64 * 64).toNat = Claims.addr c a (64 * i.toInt) := by
  rw [Claims.addr, BitVec.ofInt_add, BitVec.ofInt_toInt, Int.mul_comm, BitVec.ofInt_mul]
  rfl

/-! ## BLD and BST (08 R195) -/

theorem PipCtx.v_setV (c : PipCtx) (vd r : Reg5) (y : Flit) : (c.setV vd y).v r = if r = vd then y else c.v r := by
  simp only [PipCtx.v, PipCtx.setV, Tab.getD_setD, BitVec.toNat_inj]

/-- What BLD leaves in the context: vd, and BSTAT.EMPTY and BSTAT.POISONED. -/
theorem PipCtx.readBank_eq (c : PipCtx) (vd : Reg5) (w : BankWord) :
    c.readBank vd w = { c with bstat := c.bstat ||| (if w.empty then 2 else 0) ||| (if w.poison then 4 else 0) }.setV vd
      (if w.poison = true ∨ w.empty = true then 0 else w.data) := by
  cases he : w.empty <;> cases hp : w.poison <;> simp [PipCtx.readBank, PipCtx.bset, he, hp]

theorem exec_bld (x : CtxId) (vd a : Reg5) (i : BitVec 16) (e : Ecc) (s : State) :
    exec (.bld x vd a i e) s = .next (s.issue (.bld x vd a i e) fun s x c vec => s.bankAccess x c (c.at64 a i) false fun m =>
      (s.bankReadWord (x.core / 32) m e).1.bankRetire x vec (c.readBank vd (s.bankReadWord (x.core / 32) m e).2)).settle := rfl

/-- BLD reads its word, beside counting, and retires. -/
theorem bankLoad {x : CtxId} {vd a : Reg5} {i : BitVec 16} {s : State} (issuable : Issuable (.bld x vd a i .clean) x s) {m : Nat}
    (hm : ((s.ctx (ctxNum x)).at64 a i).toNat = m) (ok : Claims.BankOk s x m false) :
    Settles (.bld x vd a i .clean) s fun t => ∃ c', Retired x c' s t ∧
      (let c := s.ctx (ctxNum x)
       let w := s.bankWord (bankKey (x.core / 32) m)
       Claims.BankCtx c c' vd ∧ c'.v vd = (if w.poison = true ∨ w.empty = true then 0 else w.data) ∧ c'.aflags = c.aflags ∧
       c'.bstat = c.bstat ||| (if w.empty then 2 else 0) ||| (if w.poison then 4 else 0)) := by
  obtain ⟨vec, access⟩ := State.issue_bankAccess issuable ok (addr := fun c => c.at64 a i) hm
    fun s x c vec m => (s.bankReadWord (x.core / 32) m .clean).1.bankRetire x vec
      (c.readBank vd (s.bankReadWord (x.core / 32) m .clean).2)
  obtain ⟨-, -, hx, -, -, -, -, -, hd⟩ := issuable
  obtain ⟨u, counted, read⟩ := State.bankReadWord_clean (CleanBank.of_bankOk hx hd ok)
  rw [read] at access
  refine ⟨_, (exec_bld ..).trans (congrArg _ (congrArg _ access)), _, State.bankRetire_retired hx counted vec _, ?_⟩
  rw [PipCtx.readBank_eq]
  refine ⟨⟨rfl, fun r hr => ?_⟩, ?_, rfl, rfl⟩
  · exact (PipCtx.v_setV _ vd r _).trans (if_neg hr)
  · exact (PipCtx.v_setV _ vd vd _).trans (if_pos rfl)

theorem exec_bst_stored (x : CtxId) (vd a : Reg5) (i : BitVec 16) (s : State) :
    exec (.bst x vd a i false) s = .next (s.issue (.bst x vd a i false) fun s x c vec =>
      s.bankAccess x c (c.at64 a i) true fun m => (s.bankWrite (x.core / 32) m (c.v vd)).bankRetire x vec c) := rfl

theorem exec_bst_lost (x : CtxId) (vd a : Reg5) (i : BitVec 16) (s : State) :
    exec (.bst x vd a i true) s = .next (s.issue (.bst x vd a i true) fun s x c vec =>
      s.bankAccess x c (c.at64 a i) true fun m =>
        ((s.ev (bankUnit (x.core / 32) (s.placeOf (x.core / 32) m)) 0x04).ev (U.core x.core) 0x05).bankRetire x vec
          (c.bset 0)) := rfl

/-- BST writes its word, beside counting, and retires. -/
theorem bankStore {x : CtxId} {vd a : Reg5} {i : BitVec 16} {s : State} (issuable : Issuable (.bst x vd a i false) x s) {m : Nat}
    (hm : ((s.ctx (ctxNum x)).at64 a i).toNat = m) (ok : Claims.BankOk s x m true) :
    Does (.bst x vd a i false) s fun t => ∃ c',
      (let c := s.ctx (ctxNum x)
       let k := bankKey (x.core / 32) m
       Retired x c' { s with banks := t.banks } t ∧ c' = { c with pc := c.pc + 4, run := .ready, bankOps := c.bankOps + 1 } ∧
       t.bankWord k = { data := c.v vd, poison := false, empty := false } ∧ ∀ j, j ≠ k → t.bankWord j = s.bankWord j) := by
  obtain ⟨vec, access⟩ := State.issue_bankAccess issuable ok (addr := fun c => c.at64 a i) hm
    fun s x c vec m => (s.bankWrite (x.core / 32) m (c.v vd)).bankRetire x vec c
  obtain ⟨-, -, hx, -⟩ := issuable
  have unit := (s.issuing x).bankUnit_lt (by omega : x.core / 32 < 4) m
  have counted := ((s.issuing x).ev_counted _ 0x03 1 unit).bankSet (x.core / 32) m ((s.ctx (ctxNum x)).v vd) false
  have retired := State.bankRetire_retired (s := s.bankSet _ _ ((s.ctx (ctxNum x)).v vd)) hx counted vec (s.ctx (ctxNum x))
  refine ⟨_, (exec_bst_stored ..).trans (congrArg _ access), _, retired.withBanks, rfl, ?_, fun j hj => ?_⟩
  · exact (retired.bankWord _).trans ((s.bankWord_bankSet ..).trans (if_pos rfl))
  · exact (retired.bankWord _).trans ((s.bankWord_bankSet ..).trans (if_neg hj))

/-- BST that loses its slot writes nothing. -/
theorem bankStore_conflict {x : CtxId} {vd a : Reg5} {i : BitVec 16} {s : State} (issuable : Issuable (.bst x vd a i true) x s)
    {m : Nat} (hm : ((s.ctx (ctxNum x)).at64 a i).toNat = m) (ok : Claims.BankOk s x m true) :
    Does (.bst x vd a i true) s fun t => ∃ c', Retired x c' s t ∧
      (let c := s.ctx (ctxNum x)
       c' = { c with pc := c.pc + 4, run := .ready, bankOps := c.bankOps + 1, bstat := c.bstat ||| 1 }) := by
  obtain ⟨vec, access⟩ := State.issue_bankAccess issuable ok (addr := fun c => c.at64 a i) hm
    fun s x c vec m => ((s.ev (bankUnit (x.core / 32) (s.placeOf (x.core / 32) m)) 0x04).ev (U.core x.core) 0x05).bankRetire x vec
      (c.bset 0)
  obtain ⟨-, -, hx, -⟩ := issuable
  have unit := (s.issuing x).bankUnit_lt (by omega : x.core / 32 < 4) m
  have core : U.core x.core < 2 ^ 16 := by simp only [U.core]; omega
  have counted := ((s.issuing x).ev_counted _ 0x04 1 unit).trans (State.ev_counted _ (U.core x.core) 0x05 1 core)
  exact ⟨_, (exec_bst_lost ..).trans (congrArg _ access), _, State.bankRetire_retired hx counted vec _, rfl⟩

/-! ## BANK_OP_COMPLETE (08 R194) -/

/-- A context that is not stopped stays. -/
theorem State.freeIfIdle_of_run {s : State} {x : CtxId} (h : (s.ctx (ctxNum x)).run ≠ .stopped) : s.freeIfIdle x = s := by
  simp [State.freeIfIdle, h]

theorem State.ctx_modCtx (s : State) (k j : Nat) (g : PipCtx → PipCtx) :
    (s.modCtx k g).ctx j = if j = k then g (s.ctx k) else s.ctx j := Tab.getD_setD ..

theorem State.bankOpDone_eq {s : State} {x : CtxId} (some : 0 < (s.ctx (ctxNum x)).bankOps) (run : (s.ctx (ctxNum x)).run ≠ .stopped) :
    s.bankOpDone x = s.modCtx (ctxNum x) fun c => { c with bankOps := c.bankOps - 1 } := by
  rw [State.bankOpDone, if_neg (by omega)]
  exact State.freeIfIdle_of_run (by rwa [State.ctx_modCtx, if_pos rfl])

theorem bankOpComplete (x : CtxId) (reads : List Ecc) (s : State) (program : 11 < (s.ctx (ctxNum x)).program)
    (some : 0 < (s.ctx (ctxNum x)).bankOps) (run : (s.ctx (ctxNum x)).run ≠ .stopped) :
    SettlesLib (.bankOpComplete x reads) s fun t => t = { s with ctxs := t.ctxs } ∧
      t.ctx (ctxNum x) = { s.ctx (ctxNum x) with bankOps := (s.ctx (ctxNum x)).bankOps - 1 } ∧
      ∀ k, k ≠ ctxNum x → t.ctx k = s.ctx k := by
  refine ⟨s.modCtx (ctxNum x) fun c => { c with bankOps := c.bankOps - 1 }, ?_, rfl, ?_, fun k hk => ?_⟩
  · show execBankOpComplete x reads s = _
    rw [execBankOpComplete, if_neg (by omega), State.bankOpDone_eq some run]
  · rw [State.ctx_modCtx, if_pos rfl]
  · rw [State.ctx_modCtx, if_neg hk]

theorem bankLoadsAndStores : Claims.BankLoadsAndStores :=
  ⟨fun _ _ a i _ issuable ok => bankLoad issuable (bankAddr_toNat _ a i) ok,
    fun _ _ a i _ issuable ok => bankStore issuable (bankAddr_toNat _ a i) ok,
    fun _ _ a i _ issuable ok => bankStore_conflict issuable (bankAddr_toNat _ a i) ok,
    bankOpComplete⟩

/-! ## BATOM (08 R196) -/

/-- The context after an atomic that found the word `w` and raised the flags `f`. -/
def PipCtx.atomic (c : PipCtx) (vd : Reg5) (ret : Bool) (w : BankWord) (f : Flags) : PipCtx :=
  let c := if w.poison then c.bset 2 else c
  let c := if ret then c.setV vd (if w.poison || w.empty then 0 else w.data) else c
  c.flag f

theorem State.batom_eq (s : State) (i : Instr) (vd a : Reg5) (ret : Bool) (imm : BitVec 8) (e : Ecc)
    (first : ArithMode → Flit → Flit × Flags) (f : ArithMode → Flit → Flit → Flit × Flags) :
    s.batom i vd a ret imm e first f = s.issue i fun s x c vec => s.bankAccess x c (c.s a + imm.signExtend 64 * 64) true fun m =>
      let r := s.bankRmw (x.core / 32) m e (first (s.mode c)) (f (s.mode c)) (c.v vd)
      r.1.bankRetire x vec (c.atomic vd ret r.2.1 r.2.2) := rfl

/-- An atomic touches only vd, BSTAT and AFLAGS of its context. -/
theorem PipCtx.atomic_eq (c : PipCtx) (vd : Reg5) (ret : Bool) (w : BankWord) (f : Flags) :
    c.atomic vd ret w f = { c with
      bstat := if w.poison then c.bstat ||| 4 else c.bstat
      aflags := c.aflags ||| f.setWidth 64
      vregs := if ret then (c.setV vd (if w.poison = true ∨ w.empty = true then 0 else w.data)).vregs else c.vregs } := by
  simp only [PipCtx.atomic, ← Bool.or_eq_true]
  cases w.poison <;> cases ret <;> rfl

theorem PipCtx.atomic_v_same (c : PipCtx) (vd : Reg5) (ret : Bool) (w : BankWord) (f : Flags) :
    (c.atomic vd ret w f).v vd = if ret then (if w.poison = true ∨ w.empty = true then 0 else w.data) else c.v vd := by
  rw [PipCtx.atomic_eq]
  cases ret
  · rfl
  · exact (c.v_setV vd vd _).trans (if_pos rfl)

theorem PipCtx.atomic_v_ne (c : PipCtx) {vd r : Reg5} (hr : r ≠ vd) (ret : Bool) (w : BankWord) (f : Flags) :
    (c.atomic vd ret w f).v r = c.v r := by
  rw [PipCtx.atomic_eq]
  cases ret
  · rfl
  · exact (c.v_setV vd r _).trans (if_neg hr)

theorem PipCtx.atomic_bankCtx (c : PipCtx) (vd : Reg5) (ret : Bool) (w : BankWord) (f : Flags) :
    Claims.BankCtx c (c.atomic vd ret w f).bankOp vd := by
  refine ⟨?_, fun r hr => c.atomic_v_ne hr ret w f⟩
  rw [PipCtx.atomic_eq]
  rfl

theorem PipCtx.atomic_bstat (c : PipCtx) (vd : Reg5) (ret : Bool) (w : BankWord) (f : Flags) :
    (c.atomic vd ret w f).bankOp.bstat = if w.poison then c.bstat ||| 4 else c.bstat := by
  rw [PipCtx.atomic_eq]
  rfl

theorem PipCtx.atomic_aflags (c : PipCtx) (vd : Reg5) (ret : Bool) (w : BankWord) (f : Flags) :
    (c.atomic vd ret w f).bankOp.aflags = c.aflags ||| f.setWidth 64 := by
  rw [PipCtx.atomic_eq]
  rfl

/-- What an atomic at the address `m` that makes the result `y` leaves (07 R171, R172). -/
def AtomicEffect (x : CtxId) (vd : Reg5) (ret : Bool) (m : Nat) (s : State) (y : Flit × Flags) (t : State) : Prop :=
  ∃ c',
    let c := s.ctx (ctxNum x)
    let k := bankKey (x.core / 32) m
    let w := s.bankWord k
    Retired x c' { s with banks := t.banks } t ∧ Claims.BankCtx c c' vd ∧
    c'.v vd = (if ret then (if w.poison = true ∨ w.empty = true then 0 else w.data) else c.v vd) ∧
    (w.poison = true → t.banks = s.banks ∧ c'.bstat = c.bstat ||| 4 ∧ c'.aflags = c.aflags) ∧
    (w.poison = false → t.bankWord k = { data := y.1, poison := false, empty := false } ∧ c'.bstat = c.bstat ∧
      c'.aflags = c.aflags ||| y.2.setWidth 64 ∧ ∀ j, j ≠ k → t.bankWord j = s.bankWord j)

section

variable {x : CtxId} {m : Nat} {s u : State} (hx : x.core < 128)

include hx

/-- A poisoned word is left as it is. -/
theorem AtomicEffect.of_poison (hp : (s.bankWord (bankKey (x.core / 32) m)).poison = true) (counted : Counted (s.issuing x) u)
    (vec : Bool) (vd : Reg5) (ret : Bool) (y : Flit × Flags) : AtomicEffect x vd ret m s y
      (u.bankRetire x vec ((s.ctx (ctxNum x)).atomic vd ret (s.bankWord (bankKey (x.core / 32) m)) 0)) := by
  have retired := State.bankRetire_retired hx counted vec
    ((s.ctx (ctxNum x)).atomic vd ret (s.bankWord (bankKey (x.core / 32) m)) 0)
  refine ⟨_, retired.withBanks, PipCtx.atomic_bankCtx .., PipCtx.atomic_v_same _ vd ret _ 0, fun _ => ⟨retired.banks, ?_, ?_⟩,
    fun clear => absurd (hp.symm.trans clear) (by decide)⟩
  · rw [PipCtx.atomic_bstat, if_pos hp]
  · rw [PipCtx.atomic_aflags]
    exact BitVec.or_zero

/-- Any other word takes the result. -/
theorem AtomicEffect.of_write (hp : (s.bankWord (bankKey (x.core / 32) m)).poison = false) {y : Flit × Flags}
    (counted : Counted ((s.issuing x).bankSet (x.core / 32) m y.1) u) (vec : Bool) (vd : Reg5) (ret : Bool) :
    AtomicEffect x vd ret m s y
      (u.bankRetire x vec ((s.ctx (ctxNum x)).atomic vd ret (s.bankWord (bankKey (x.core / 32) m)) y.2)) := by
  have retired := State.bankRetire_retired (s := s.bankSet (x.core / 32) m y.1) hx counted vec
    ((s.ctx (ctxNum x)).atomic vd ret (s.bankWord (bankKey (x.core / 32) m)) y.2)
  refine ⟨_, retired.withBanks, PipCtx.atomic_bankCtx .., PipCtx.atomic_v_same _ vd ret _ y.2,
    fun poisoned => absurd (hp.symm.trans poisoned) (by decide), fun _ => ⟨?_, ?_, PipCtx.atomic_aflags .., fun j hj => ?_⟩⟩
  · exact (retired.bankWord _).trans ((s.bankWord_bankSet ..).trans (if_pos rfl))
  · rw [PipCtx.atomic_bstat, hp]
    rfl
  · exact (retired.bankWord _).trans ((s.bankWord_bankSet ..).trans (if_neg hj))

end

theorem State.batom_effect {j : Instr} {x : CtxId} {s : State} (issuable : Issuable j x s) {a : Reg5} {i : BitVec 8} {m : Nat}
    (hm : ((s.ctx (ctxNum x)).s a + i.signExtend 64 * 64).toNat = m) (ok : Claims.BankOk s x m true) {vd : Reg5} {ret : Bool}
    {first : ArithMode → Flit → Flit × Flags} {f : ArithMode → Flit → Flit → Flit × Flags} {y : Flit × Flags}
    (hy : (let c := s.ctx (ctxNum x)
      let w := s.bankWord (bankKey (x.core / 32) m)
      if w.empty then first (s.mode c) (c.v vd) else f (s.mode c) w.data (c.v vd)) = y) :
    AtomicEffect x vd ret m s y (s.batom j vd a ret i .clean first f) := by
  obtain ⟨vec, access⟩ := State.issue_bankAccess issuable ok (addr := fun c => c.s a + i.signExtend 64 * 64) hm
    fun s x c vec m =>
      let r := s.bankRmw (x.core / 32) m .clean (first (s.mode c)) (f (s.mode c)) (c.v vd)
      r.1.bankRetire x vec (c.atomic vd ret r.2.1 r.2.2)
  obtain ⟨-, -, hx, -, -, -, -, -, hd⟩ := issuable
  have clean := CleanBank.of_bankOk hx hd ok
  rw [State.batom_eq, access]
  cases hp : (s.bankWord (bankKey (x.core / 32) m)).poison with
  | true =>
    obtain ⟨u, counted, rmw⟩ := State.bankRmw_poison clean hp (first ((s.issuing x).mode (s.ctx (ctxNum x))))
      (f ((s.issuing x).mode (s.ctx (ctxNum x)))) ((s.ctx (ctxNum x)).v vd)
    rw [rmw]
    exact AtomicEffect.of_poison hx hp counted vec vd ret y
  | false =>
    obtain ⟨u, counted, rmw⟩ := State.bankRmw_clean clean hp (first ((s.issuing x).mode (s.ctx (ctxNum x))))
      (f ((s.issuing x).mode (s.ctx (ctxNum x)))) ((s.ctx (ctxNum x)).v vd)
    rw [rmw]
    subst hy
    exact AtomicEffect.of_write hx hp counted vec vd ret

/-- MAX and MIN take an EMPTY word as zero data. -/
theorem maxMinWord_empty (f : Nat) (least empty : Bool) (w y : Flit) :
    (if empty then maxMinWord f least 0 y else maxMinWord f least w y) = maxMinWord f least (if empty then 0 else w) y := by
  cases empty <;> rfl

theorem bankAtomics : Claims.BankAtomics := by
  intro e he x vd a f ret i s issuable ok
  simp only [Claims.atomics, List.mem_cons, List.not_mem_nil, or_false] at he
  rcases he with rfl | rfl | rfl | rfl | rfl | rfl | rfl | rfl
  · exact ⟨_, rfl, State.batom_effect issuable (bankAddr_toNat _ a i) ok rfl⟩
  · exact ⟨_, rfl, State.batom_effect issuable (bankAddr_toNat _ a i) ok rfl⟩
  · exact ⟨_, rfl, State.batom_effect issuable (bankAddr_toNat _ a i) ok rfl⟩
  · exact ⟨_, rfl, State.batom_effect issuable (bankAddr_toNat _ a i) ok rfl⟩
  · exact ⟨_, rfl, State.batom_effect issuable (bankAddr_toNat _ a i) ok rfl⟩
  · exact ⟨_, rfl, State.batom_effect issuable (bankAddr_toNat _ a i) ok (maxMinWord_empty ..)⟩
  · exact ⟨_, rfl, State.batom_effect issuable (bankAddr_toNat _ a i) ok (maxMinWord_empty ..)⟩
  · exact ⟨_, rfl, State.batom_effect issuable (bankAddr_toNat _ a i) ok (ite_self _)⟩

/-- Settles O47: every access is a clean read or atomic of its bank, beside counting, and retires its instruction. -/
theorem bankAccesses : Obligations.BankAccesses := ⟨bankLoadsAndStores, bankAtomics⟩

end Sys2Proof.Machine

/-! # The switch core keeps the mailboxes

Cells, queues, routes, flows and the departure of a port from ACTIVE (02, 03, 04) change no mailbox. -/

namespace Sys2Proof.Machine

/-! ## Folds -/

/-- What every step of a fold keeps, the fold keeps. -/
theorem foldl_keeps {σ β γ : Type} (g : σ → γ) {f : σ → β → σ} (h : ∀ r b, g (f r b) = g r) (l : List β) (r : σ) :
    g (l.foldl f r) = g r := by
  induction l generalizing r with
  | nil => rfl
  | cons b l ih => exact (ih (f r b)).trans (h r b)

theorem iter_keeps {σ γ : Type} (g : σ → γ) {f : σ → σ} (h : ∀ r, g (f r) = g r) (n : Nat) (r : σ) : g (iter f n r) = g r := by
  induction n generalizing r with
  | zero => rfl
  | succ n ih => exact (ih (f r)).trans (h r)

theorem State.foldl_mbx {β : Type} {f : State → β → State} (h : ∀ s b, (f s b).mbx = s.mbx) (l : List β) (s : State) :
    (l.foldl f s).mbx = s.mbx := foldl_keeps State.mbx h l s

theorem State.each_mbx {f : State → Nat → State} (h : ∀ s k, (f s k).mbx = s.mbx) (ks : List Nat) (s : State) :
    (s.each ks f).mbx = s.mbx := State.foldl_mbx h ks s

theorem State.ite_mbx {c : Prop} [Decidable c] {s a b : State} (ha : a.mbx = s.mbx) (hb : b.mbx = s.mbx) :
    (if c then a else b).mbx = s.mbx := by
  split
  · exact ha
  · exact hb

theorem State.onlyIf_mbx {s : State} {c : Bool} {f : State → State} (h : (f s).mbx = s.mbx) : (s.onlyIf c f).mbx = s.mbx :=
  State.ite_mbx h rfl

/-! ## Entries of tables -/

@[simp] theorem State.modVcb_mbx (s : State) (k : Nat) (g : VcBuf → VcBuf) : (s.modVcb k g).mbx = s.mbx := rfl
@[simp] theorem State.modRxOf_mbx (s : State) (k : Nat) (g : LinkRx → LinkRx) : (s.modRxOf k g).mbx = s.mbx := rfl
@[simp] theorem State.modInqOf_mbx (s : State) (k : Nat) (g : List InPkt → List InPkt) : (s.modInqOf k g).mbx = s.mbx := rfl
@[simp] theorem State.modOutqOf_mbx (s : State) (k : Nat) (g : List OutPkt → List OutPkt) : (s.modOutqOf k g).mbx = s.mbx := rfl
@[simp] theorem State.modInFlow_mbx (s : State) (k : Nat) (g : InFlow → InFlow) : (s.modInFlow k g).mbx = s.mbx := rfl
@[simp] theorem State.modEgFlow_mbx (s : State) (k : Nat) (g : EgFlow → EgFlow) : (s.modEgFlow k g).mbx = s.mbx := rfl
@[simp] theorem State.modPort_mbx (s : State) (k : Nat) (g : PortSt → PortSt) : (s.modPort k g).mbx = s.mbx := rfl
@[simp] theorem State.modFront_mbx (s : State) (k : Nat) (g : InPkt → InPkt) : (s.modFront k g).mbx = s.mbx := rfl
@[simp] theorem State.modEntry_mbx (s : State) (k n : Nat) (g : Replay → Replay) : (s.modEntry k n g).mbx = s.mbx := rfl
@[simp] theorem State.freeEntry_mbx (s : State) (k n : Nat) (b : Bool) : (s.freeEntry k n b).mbx = s.mbx := rfl

/-! ## Records and checked reads -/

@[simp] theorem State.raise_mbx (s : State) (code inst info info2 : Nat) (cause : Option Nat) (inj : Bool) (sev : Nat) :
    (s.raise code inst info info2 cause inj sev).mbx = s.mbx := (s.raise_errStep ..).mbx

@[simp] theorem State.evaluate_mbx (s : State) (code inst : Nat) (real : Bool) : (s.evaluate code inst real).1.mbx = s.mbx :=
  (s.evaluate_errStep ..).mbx

@[simp] theorem State.askRetire_mbx (s : State) (q b cause : Nat) : (s.askRetire q b cause).mbx = s.mbx := by
  unfold State.askRetire
  split <;> rfl

@[simp] theorem State.installRepair_mbx (s : State) (r : Repair) : (s.installRepair r).mbx = s.mbx := by
  simp only [State.installRepair]
  split <;> rfl

@[simp] theorem State.commitRepair_mbx (s : State) (r : Repair) : (s.commitRepair r).mbx = s.mbx := by
  simp [State.commitRepair]

@[simp] theorem State.columnRepair_mbx (s : State) (q b sub sym : Nat) (inj : Bool) : (s.columnRepair q b sub sym inj).mbx = s.mbx := by
  simp only [State.columnRepair]
  split <;> simp [State.draw]

@[simp] theorem State.countSymbol_mbx (s : State) (q b row sym : Nat) (inj : Bool) : (s.countSymbol q b row sym inj).mbx = s.mbx := by
  simp only [State.countSymbol]
  split <;> simp

@[simp] theorem State.countUe_mbx (s : State) (q b row : Nat) : (s.countUe q b row).mbx = s.mbx :=
  State.ite_mbx (State.askRetire_mbx ..) rfl

@[simp] theorem State.eccRead_mbx (s : State) (q b row store : Nat) (e : Ecc) : (s.eccRead q b row store e).1.mbx = s.mbx := by
  simp only [State.eccRead]
  split
  · simp
  · split <;> refine State.ite_mbx ?_ ?_ <;> simp [State.draw]

@[simp] theorem State.cellRead_mbx (s : State) (q store : Nat) (r : CellRead) (f : Flit) : (s.cellRead q store r f).1.mbx = s.mbx := by
  simp only [State.cellRead]
  split <;> simp

@[simp] theorem State.cellReads_mbx (s : State) (q store : Nat) (reads : List CellRead) (fs : List Flit) :
    (s.cellReads q store reads fs).1.mbx = s.mbx :=
  foldl_keeps (fun r : State × List Flit × Bool => r.1.mbx) (fun _ _ => State.cellRead_mbx ..) _ _

/-! ## Cells of the packet buffer (04 R88 to R92) -/

theorem State.takeCell_mbx {s t : State} {a : Nat} (h : s.takeCell a = some t) : t.mbx = s.mbx := by
  simp only [State.takeCell] at h
  repeat' split at h
  all_goals cases h <;> rfl

@[simp] theorem State.freeCell_mbx (s : State) (a : Nat) : (s.freeCell a).mbx = s.mbx := by
  simp only [State.freeCell]
  split <;> rfl

@[simp] theorem State.dropFlit_mbx (s : State) (a : Nat) : (s.dropFlit a).mbx = s.mbx := by simp [State.dropFlit]

@[simp] theorem State.dropFlits_mbx (s : State) (a n : Nat) : (s.dropFlits a n).mbx = s.mbx :=
  iter_keeps State.mbx (fun t => t.dropFlit_mbx a) n s

theorem State.acquire_mbx {s t : State} {a : Nat} (h : s.acquire a = some t) : t.mbx = s.mbx := by
  simp only [State.acquire] at h
  split at h
  · cases h
    rfl
  · split at h
    · obtain ⟨u, hu, rfl⟩ := Option.map_eq_some_iff.mp h
      exact (State.takeCell_mbx hu :)
    · cases h

@[simp] theorem State.queueFlit_mbx (s : State) (key : Nat) (c : Charge) : (s.queueFlit key c).1.mbx = s.mbx := by
  simp only [State.queueFlit]
  split <;> simp

@[simp] theorem State.queueFlits_mbx (s : State) (key : Nat) (c : Charge) (n : Nat) : (s.queueFlits key c n).1.mbx = s.mbx := by
  induction n generalizing s c with
  | zero => rfl
  | succ n ih => exact (ih ..).trans (s.queueFlit_mbx key c)

@[simp] theorem State.awaitCells_mbx (s : State) (a key n : Nat) : (s.awaitCells a key n).mbx = s.mbx := rfl

@[simp] theorem State.charge_mbx (s : State) (key : Nat) (c : Charge) : (s.charge key c).1.mbx = s.mbx := by
  simp only [State.charge]
  repeat' split
  all_goals simp

theorem State.serveFlit_mbx {s : State} {a key : Nat} {c : Charge} {r : State × Charge} (h : s.serveFlit a key c = some r) :
    r.1.mbx = s.mbx := by
  obtain ⟨t, ht, rfl⟩ := Option.map_eq_some_iff.mp h
  rw [← State.acquire_mbx ht]
  simp only
  repeat' split
  all_goals simp

/-- Putting a charge back in its place changes a queue. -/
theorem State.findCharge_mbx {s : State} {a key : Nat} {c : Charge} {put : State → Charge → State}
    (h : s.findCharge a key = some (c, put)) (t : State) (d : Charge) : (put t d).mbx = t.mbx := by
  simp only [State.findCharge] at h
  split at h
  all_goals
    split at h
    · cases h
    · obtain ⟨_, -, e⟩ := Option.map_eq_some_iff.mp h
      cases e
      rfl

@[simp] theorem State.serveCells_mbx (s : State) : s.serveCells.mbx = s.mbx := by
  unfold State.serveCells
  split
  · rfl
  · refine (foldl_keeps (fun r : State × List Nat × List (Nat × Nat) => r.1.mbx) (fun r e => ?_) _ _ :)
    split
    · rfl
    · split
      · rfl
      next hf =>
        split
        next hs => exact (State.findCharge_mbx hf _ _).trans (State.serveFlit_mbx hs)
        next => rfl

@[simp] theorem State.releaseAll_mbx (s : State) (key : Nat) (c : Charge) : (s.releaseAll key c).mbx = s.mbx := by
  simp [State.releaseAll]

@[simp] theorem State.moveBack_mbx (s : State) (key : Nat) (c : Charge) (f n : Nat) : (s.moveBack key c f n).mbx = s.mbx := by
  simp only [State.moveBack]
  split <;> simp

/-! ## Queues and routes (03 R59 to R68) -/

@[simp] theorem State.dropSrc_mbx (s : State) (x : Src) (p : Packet) : (s.dropSrc x p).mbx = s.mbx := by
  cases x <;> simp [State.dropSrc]

@[simp] theorem State.enqueue_mbx (s : State) (port vc : Nat) (o : OutPkt) : (s.enqueue port vc o).mbx = s.mbx := by
  simp [State.enqueue]

@[simp] theorem State.enqueuePkt_mbx (s : State) (port vc : Nat) (src : Src) (gen : Nat) (p : Packet) (flow : Option (Nat × Nat)) :
    (s.enqueuePkt port vc src gen p flow).mbx = s.mbx := s.enqueue_mbx ..

@[simp] theorem State.rollAmong_mbx (s : State) (g : Nat) (ports : List Nat) : (s.rollAmong g ports).2.mbx = s.mbx := by
  unfold State.rollAmong
  split <;> rfl

@[simp] theorem State.escapeRoute_mbx (s : State) (h : Flit) (gen : Nat) (arr : Option Nat) :
    (s.escapeRoute h gen arr).2.mbx = s.mbx := by
  unfold State.escapeRoute
  extract_lets h' d dead r pick
  have rolled : r.2.mbx = s.mbx := State.rollAmong_mbx ..
  have picked {g : Nat} {o : Option Nat} {t : State} (e : pick g = (o, t)) : t.mbx = s.mbx := by
    have kept : (pick g).2.mbx = s.mbx := by
      simp only [pick]
      split <;> simp
    rwa [e] at kept
  split
  · simp only [apply_ite Prod.snd, apply_ite State.mbx, rolled, ite_self]
  · split
    next hp => exact picked hp
    next hp =>
      simp only
      split
      · split
        next hq => exact picked hq
        next hq => exact picked hq
      · exact picked hp

@[simp] theorem State.sprayRoute_mbx (s : State) (h : Flit) (gen : Nat) : (s.sprayRoute h gen).2.mbx = s.mbx := by
  simp only [State.sprayRoute]
  split
  · rfl
  · exact State.escapeRoute_mbx ..

@[simp] theorem State.columnRoute_mbx (s : State) (h : Flit) (gen : Nat) : (s.columnRoute h gen).2.mbx = s.mbx := by
  simp only [State.columnRoute]
  split <;> simp

@[simp] theorem State.routeOf_mbx (s : State) (h : Flit) (gen : Nat) (arr : Option Nat) (ingress : Bool) :
    (s.routeOf h gen arr ingress).2.mbx = s.mbx := by
  simp only [State.routeOf]
  repeat' split
  all_goals simp

/-! ## Units of this module, acknowledgements and notices (03 R64, R71 to R76) -/

@[simp] theorem State.toLocal_mbx (s : State) (p : Packet) (src : Src) : (s.toLocal p src).mbx = s.mbx := by
  simp [State.toLocal]

theorem State.toMember_mbx {s t : State} {m gen : Nat} {arr : Option Nat} {p : Packet} {src : Src}
    (h : s.toMember m gen arr p src = some t) : t.mbx = s.mbx := by
  simp only [State.toMember] at h
  split at h
  · cases h
    simp
  · cases h

@[simp] theorem State.notify_mbx (s : State) (m : Nat) (p : Packet) : (s.notify m p).mbx = s.mbx := by
  unfold State.notify
  split
  · simp
  · rfl

@[simp] theorem State.sendCtl_mbx (s : State) (p : Packet) (q : Nat) : (s.sendCtl p q).mbx = s.mbx := by
  simp only [State.sendCtl]
  split
  · simp
  · split
    · simp
    · split <;> simp

@[simp] theorem State.sendAck_mbx (s : State) (k : Nat) : (s.sendAck k).mbx = s.mbx := by simp [State.sendAck]

@[simp] theorem State.sendNack_mbx (s : State) (k seq cause : Nat) (count : Bool) : (s.sendNack k seq cause count).mbx = s.mbx := by
  simp [State.sendNack]

@[simp] theorem State.tellSource_mbx (s : State) (h : Flit) (cause : Nat) : (s.tellSource h cause).mbx = s.mbx := by
  simp [State.tellSource]

@[simp] theorem State.tellUnit_mbx (s : State) (r : Replay) (ok : Bool) (leaf : Nat) (ue : Bool) :
    (s.tellUnit r ok leaf ue).mbx = s.mbx := State.ite_mbx rfl rfl

/-! ## Flows that end and casts (03 R76 to R79) -/

@[simp] theorem State.endFlow_mbx (s : State) (k : Nat) (failed : Flit) : (s.endFlow k failed).mbx = s.mbx := by
  simp only [State.endFlow, State.raise_mbx]
  rw [State.foldl_mbx, State.foldl_mbx]
  · intro t g
    simp
  · intro t r
    exact State.ite_mbx (State.onlyIf_mbx (State.tellSource_mbx ..)) (State.tellUnit_mbx ..)

@[simp] theorem State.castDone_mbx (s : State) (k seq : Nat) : (s.castDone k seq).mbx = s.mbx := by
  simp only [State.castDone]
  split
  · rfl
  · exact State.ite_mbx rfl (State.ite_mbx (State.ite_mbx (by simp) (by simp)) (by simp))

@[simp] theorem State.mergeLeaves_mbx (s : State) (k seq leaf : Nat) : (s.mergeLeaves k seq leaf).mbx = s.mbx :=
  State.castDone_mbx ..

@[simp] theorem State.noRoute_mbx (s : State) (err : Nat) (h : Flit) (p : Nat) (flow : Option (Nat × Nat)) :
    (s.noRoute err h p flow).mbx = s.mbx := by
  simp only [State.noRoute]
  repeat' split
  all_goals simp

@[simp] theorem State.replicate_mbx (s : State) (p : Packet) (gen q : Nat) (arr : Option Nat) (todo : List (Nat × Nat)) :
    (s.replicate p gen q arr todo).1.mbx = s.mbx := by
  refine (foldl_keeps (fun r : State × Nat => r.1.mbx) (fun r l => ?_) _ _ :)
  split
  · rfl
  · split
    next h => exact State.toMember_mbx h
    next => simp

@[simp] theorem State.ackCast_mbx (s : State) (k seq castId leaf : Nat) : (s.ackCast k seq castId leaf).mbx = s.mbx :=
  State.sendCtl_mbx ..

@[simp] theorem State.deliverCast_mbx (s : State) (k : Nat) (p : Packet) (gen q : Nat) (arr : Option Nat) :
    (s.deliverCast k p gen q arr).mbx = s.mbx := by
  simp only [State.deliverCast, State.ackCast_mbx]
  split <;> simp

@[simp] theorem State.repeatCast_mbx (s : State) (k : Nat) (p : Packet) (gen q : Nat) (arr : Option Nat) :
    (s.repeatCast k p gen q arr).mbx = s.mbx := by
  simp only [State.repeatCast]
  split <;> simp

/-! ## The egress edge (03 R66, R71 to R73) -/

theorem State.deliver_mbx {s t : State} {k gen q : Nat} {p : Packet} {arr : Option Nat} {src : Src}
    (h : s.deliver k p gen q arr src = some t) : t.mbx = s.mbx := by
  simp only [State.deliver] at h
  split at h
  · cases h
    simp
  · split at h
    · cases h
      simp
    · split at h
      · cases h
      · exact State.toMember_mbx h

@[simp] theorem State.notDelivered_mbx (s : State) (p : Packet) (unit : Nat) (src : Src) : (s.notDelivered p unit src).mbx = s.mbx :=
  State.ite_mbx (by simp) (by simp)

@[simp] theorem State.advance_mbx (s : State) (k : Nat) : (s.advance k).mbx = s.mbx :=
  State.ite_mbx (by simp) (by simp)

@[simp] theorem State.deliverHeld_mbx (s : State) (k : Nat) (held : List (Nat × CellRead)) (n : Nat) :
    (s.deliverHeld k held n).mbx = s.mbx := by
  induction n generalizing s with
  | zero => rfl
  | succ n ih =>
    simp only [State.deliverHeld]
    split
    · split
      · simp [ih]
      · split
        · simp
        · split
          next h => simp [ih, State.deliver_mbx h]
          next => simp
    · rfl

@[simp] theorem State.afterDelivery_mbx (s : State) (k : Nat) (held : List (Nat × CellRead)) : (s.afterDelivery k held).mbx = s.mbx :=
  State.ite_mbx (by simp) (by simp)

@[simp] theorem State.arrive_mbx (s : State) (k seq : Nat) (p : Option Packet) (gen q vc : Nat) (src : Src)
    (held : List (Nat × CellRead)) : (s.arrive k seq p gen q vc src held).mbx = s.mbx := by
  unfold State.arrive
  extract_lets e drop
  have dropped (t : State) : (drop t).mbx = t.mbx := by
    simp only [drop]
    split <;> simp
  split
  · split
    · simp
    · split
      next h => simp [State.deliver_mbx h]
      next => simp
  · split
    · split
      · split <;> simp
      · rfl
    · split
      · exact dropped s
      · exact (State.ite_mbx (State.putEgFlow_mbx ..) (State.putEgFlow_mbx ..)).trans (dropped s)

@[simp] theorem State.arriveStomped_mbx (s : State) (k seq cause gen q vc : Nat) (held : List (Nat × CellRead)) :
    (s.arriveStomped k seq cause gen q vc held).mbx = s.mbx :=
  State.ite_mbx (by simp) (State.ite_mbx rfl (by simp))

@[simp] theorem State.undeliver_mbx (s : State) (h : Flit) : (s.undeliver h).mbx = s.mbx := State.ite_mbx rfl rfl

/-! ## A port that leaves ACTIVE (02 R40, R43; 04 R94) -/

@[simp] theorem State.stompOut_mbx (s : State) (key : Nat) (o : OutPkt) (record : BitVec 32) (inPlace : Bool) :
    (s.stompOut key o record inPlace).1.mbx = s.mbx := by
  unfold State.stompOut
  split <;> simp

/-- Changing the packet that an input feeds keeps the mailboxes where the change does. -/
theorem State.modFed_mbx {s : State} {po vo src : Nat} {g : State → OutPkt → State × Option OutPkt}
    (h : ∀ o, (g s o).1.mbx = s.mbx) : (s.modFed po vo src g).mbx = s.mbx := by
  simp only [State.modFed]
  split
  · rfl
  · split
    · rfl
    · split <;> simp [h]

@[simp] theorem State.stompFed_mbx (s : State) (po vo src : Nat) (record : BitVec 32) (inPlace : Bool) :
    (s.stompFed po vo src record inPlace).mbx = s.mbx := by
  refine State.modFed_mbx fun o => ?_
  split <;> simp

@[simp] theorem State.voidIngress_mbx (s : State) (src : Nat) (p : InPkt) (inPlace : Bool) :
    (s.voidIngress src p inPlace).mbx = s.mbx := by
  simp only [State.voidIngress, State.tellSource_mbx]
  split <;> split <;> simp

@[simp] theorem State.endBad_mbx (s : State) (src : Nat) (p : InPkt) (cause : Nat) (inPlace : Bool) :
    (s.endBad src p cause inPlace).mbx = s.mbx := by
  simp only [State.endBad]
  repeat' split
  all_goals simp

@[simp] theorem State.detach_mbx (s : State) (key : Nat) (o : OutPkt) : (s.detach key o).mbx = s.mbx := by
  unfold State.detach
  repeat' split
  all_goals simp

@[simp] theorem State.takeOut_mbx (s : State) (key : Nat) (o : OutPkt) : (s.takeOut key o).1.mbx = s.mbx := State.moveBack_mbx ..

@[simp] theorem State.requeue_mbx (s : State) (o : OutPkt) (d : Decision) (oldMember : Option Nat) :
    (s.requeue o d oldMember).mbx = s.mbx := by
  unfold State.requeue
  extract_lets o' refeed t u
  have refed (r : Route) (t : State) : (refeed r t).mbx = t.mbx := by
    simp only [refeed]
    split
    · exact State.ite_mbx rfl rfl
    · rfl
  split
  · exact (refed ..).trans (State.enqueue_mbx ..)
  · simp only [refed, State.noRoute_mbx, u, t]
    split
    · split <;> simp
    · simp
  · split
    · simp only
      split
      · simp
      · split <;> simp
    · simp

@[simp] theorem State.routeAgain_mbx (s : State) (o : OutPkt) : (s.routeAgain o).2.mbx = s.mbx := by
  simp only [State.routeAgain]
  split <;> simp

@[simp] theorem State.rerouteFrom_mbx (s : State) (port vc : Nat) : (s.rerouteFrom port vc).mbx = s.mbx := by
  refine (State.foldl_mbx (fun t o => ?_) _ _).trans (State.putOutqOf_mbx ..)
  exact State.ite_mbx (by simp) (State.ite_mbx (by simp) (by simp))

@[simp] theorem State.trafficDown_mbx (s : State) (port : Nat) : (s.trafficDown port).mbx = s.mbx := by
  simp only [State.trafficDown, State.wr_mbx, State.putRxOf_mbx, State.putTxOf_mbx]
  rw [State.each_mbx, State.each_mbx, State.each_mbx]
  · intro t vc
    exact (State.foldl_mbx (fun _ _ => by simp) _ _).trans rfl
  · intro t vc
    simp
  · intro t vc
    rw [State.modVcb_mbx]
    exact iter_keeps State.mbx (fun u => u.freeCell_mbx _) _ _

end Sys2Proof.Machine

/-! # Ends of instances, fenced cores, and units taken out by command (05 R126 to R136; 08 R212; 11 R283; 14 R352) -/

namespace Sys2Proof.Machine

/-! ## A committed status stands (05 R134) -/

/-- The committed terminal status of a slot's step, if there is one. -/
def State.statusOf (s : State) (slot step : Nat) : Option Nat := (s.inst? slot step).bind fun i => i.status

/-- What ends instances and stops contexts keeps: the mailboxes, the fenced cores, and every terminal status committed before. -/
structure EndStep (s t : State) : Prop where
  mbx : t.mbx = s.mbx
  coreFenced : t.coreFenced = s.coreFenced
  stands : ∀ slot step v, s.statusOf slot step = some v → t.statusOf slot step = some v

theorem EndStep.of_eq {s t : State} (mbx : t.mbx = s.mbx) (coreFenced : t.coreFenced = s.coreFenced) (insts : t.insts = s.insts) :
    EndStep s t := by
  refine ⟨mbx, coreFenced, fun slot step v h => ?_⟩
  rwa [State.statusOf, State.inst?, insts]

theorem EndStep.refl (s : State) : EndStep s s := ⟨rfl, rfl, fun _ _ _ h => h⟩

theorem EndStep.trans {s t u : State} (h : EndStep s t) (k : EndStep t u) : EndStep s u :=
  ⟨k.mbx.trans h.mbx, k.coreFenced.trans h.coreFenced, fun slot step v e => k.stands slot step v (h.stands slot step v e)⟩

theorem EndStep.ite {c : Prop} [Decidable c] {s a b : State} (ha : EndStep s a) (hb : EndStep s b) : EndStep s (if c then a else b) := by
  split
  · exact ha
  · exact hb

theorem EndStep.foldl {β : Type} {f : State → β → State} (h : ∀ s b, EndStep s (f s b)) (l : List β) (s : State) :
    EndStep s (l.foldl f s) := by
  induction l generalizing s with
  | nil => exact .refl s
  | cons b l ih => exact (h s b).trans (ih (f s b))

theorem EndStep.iter {f : State → State} (h : ∀ s, EndStep s (f s)) (n : Nat) (s : State) : EndStep s (iter f n s) := by
  induction n generalizing s with
  | zero => exact .refl s
  | succ n ih => exact (h s).trans (ih (f s))

theorem ErrStep.endStep {s t : State} (h : ErrStep s t) : EndStep s t := .of_eq h.mbx h.coreFenced h.insts

theorem State.inst?_putInst (s : State) (a b c d : Nat) (j : Instance) :
    (s.putInst a b j).inst? c d = if 65536 * c + d = 65536 * a + b then some j else s.inst? c d := by
  split
  next h => rw [State.inst?, h]; exact Tab.find_insert ..
  next h => exact Tab.find_insert_ne _ _ h

/-- Writing a record that keeps the status of the one before. -/
theorem EndStep.putInst {s u : State} {a b : Nat} {j : Instance} (h : EndStep s u)
    (keeps : ∀ v, s.statusOf a b = some v → j.status = some v) : EndStep s (u.putInst a b j) := by
  obtain ⟨mbx, coreFenced, stands⟩ := h
  refine ⟨mbx, coreFenced, fun slot step v e => ?_⟩
  rw [State.statusOf, State.inst?_putInst]
  split
  next hk =>
    refine keeps v ?_
    rw [State.statusOf, State.inst?, ← hk]
    exact e
  next => exact stands slot step v e

/-- A record that replaces a live one and keeps its status. -/
theorem EndStep.putInst_live {s : State} {a b : Nat} {i j : Instance} (live : s.inst? a b = some i) (status : j.status = i.status) :
    EndStep s (s.putInst a b j) := by
  refine (EndStep.refl s).putInst fun v e => ?_
  rw [State.statusOf, live] at e
  exact status.trans e

/-! ## What an end does (05 R126 to R136; 08 R203) -/

theorem State.freeCell_endStep (s : State) (a : Nat) : EndStep s (s.freeCell a) :=
  .ite (.of_eq rfl rfl rfl) (.of_eq rfl rfl rfl)

theorem State.dropFlit_endStep (s : State) (a : Nat) : EndStep s (s.dropFlit a) :=
  .trans (t := s.modVcb a fun b => { b with flits := b.flits - 1 }) (.of_eq rfl rfl rfl) (State.freeCell_endStep ..)

theorem State.dropFlits_endStep (s : State) (a n : Nat) : EndStep s (s.dropFlits a n) := .iter (fun t => t.dropFlit_endStep a) n s

theorem State.releaseAll_endStep (s : State) (key : Nat) (c : Charge) : EndStep s (s.releaseAll key c) :=
  .trans (t := { s with qcharge := s.qcharge.mod (16 * (key / 16) + c.tc) 0 (· - c.qn) }) (.of_eq rfl rfl rfl)
    ((State.dropFlits_endStep ..).trans (State.dropFlits_endStep ..))

theorem State.freeWaiting_endStep (s : State) (slot : Nat) (i : Instance) : EndStep s (s.freeWaiting slot i) :=
  .foldl (fun t _ => t.releaseAll_endStep _ _) _ s

theorem State.recordEnd_endStep (s : State) (slot step status nrank gepoch chunk : Nat) :
    EndStep s (s.recordEnd slot step status nrank gepoch chunk) :=
  .ite (State.raise_errStep ..).endStep (.ite (State.raise_errStep ..).endStep (.refl s))

theorem State.tellHome_endStep (s : State) (slot step : Nat) (m : HelperMsg) : EndStep s (s.tellHome slot step m) := by
  unfold State.tellHome
  split
  · exact .of_eq rfl rfl rfl
  · exact .refl s

theorem State.addFlags_endStep (s : State) (slot step : Nat) (f : Flags) (dropped : Nat) : EndStep s (s.addFlags slot step f dropped) := by
  unfold State.addFlags
  split
  · exact .refl s
  next i live =>
    have put : EndStep s (s.putInst slot step { i with flags := i.flags ||| f, dropped := i.dropped + dropped }) :=
      .putInst_live live rfl
    exact .ite put (put.trans (State.tellHome_endStep ..))

theorem State.leaveInst_endStep (s : State) (x : CtxId) (c : PipCtx) : EndStep s (s.leaveInst x c id) := by
  have flags := s.addFlags_endStep c.slot c.step (c.aflags.setWidth 16) 0
  simp only [State.leaveInst]
  split
  · exact flags
  next live => exact flags.trans (.putInst_live live rfl)

theorem State.freeIfIdle_endStep (s : State) (x : CtxId) : EndStep s (s.freeIfIdle x) :=
  .ite (.trans (t := s.putCtx (ctxNum x) {}) (.of_eq rfl rfl rfl) (State.leaveInst_endStep ..)) (.refl s)

theorem State.stopCtx_endStep (s : State) (x : CtxId) : EndStep s (s.stopCtx x) :=
  .trans (t := s.modCtx (ctxNum x) fun c => if c.run = .free then c else { c with run := .stopped, sends := [] })
    (.of_eq rfl rfl rfl) (State.freeIfIdle_endStep ..)

/-- The record of a live step that commits a terminal status. -/
def Instance.committed (i : Instance) (status nrank bitmap chunk : Nat) : Instance :=
  { i with state := .ending, status := some status, nrank := nrank, bitmap := bitmap, chunkField := chunk, waiting := [],
           descs := [] }

/-- An end that is committed at a home: its record takes the status, and what follows keeps it. -/
theorem State.endInst_commits {s : State} {slot step : Nat} {i : Instance} (live : s.inst? slot step = some i) (running : i.status = none)
    (home : (s.slot slot).helper = none) (status nrank bitmap chunk : Nat) :
    EndStep ((s.freeWaiting slot i).putInst slot step (i.committed status nrank bitmap chunk))
      (s.endInst slot step status nrank bitmap chunk) := by
  simp only [State.endInst, live, running, home, Option.isSome_none, Bool.false_eq_true, if_false]
  refine (State.recordEnd_endStep _ slot step status nrank i.gepoch chunk).trans ?_
  split <;> split
  · exact (State.stopCtx_endStep ..).trans (State.stopCtx_endStep ..)
  · exact State.stopCtx_endStep ..
  · exact State.stopCtx_endStep ..
  · exact .refl _

theorem State.endInst_endStep (s : State) (slot step status nrank bitmap chunk : Nat) :
    EndStep s (s.endInst slot step status nrank bitmap chunk) := by
  cases live : s.inst? slot step with
  | none => simp only [State.endInst, live]; exact .refl s
  | some i =>
    cases running : i.status with
    | some v =>
      simp only [State.endInst, live, running, Option.isSome_some, if_true]
      exact State.recordEnd_endStep ..
    | none =>
      cases home : (s.slot slot).helper with
      | some h =>
        simp only [State.endInst, live, running, home, Option.isSome_none, Bool.false_eq_true, if_false]
        exact State.tellHome_endStep ..
      | none =>
        refine ((s.freeWaiting_endStep slot i).putInst fun v e => ?_).trans (State.endInst_commits live running home ..)
        rw [State.statusOf, live, Option.bind_some, running] at e
        cases e

theorem State.endInst_status {s : State} {slot step : Nat} {i : Instance} (live : s.inst? slot step = some i) (running : i.status = none)
    (home : (s.slot slot).helper = none) (status nrank bitmap chunk : Nat) :
    (s.endInst slot step status nrank bitmap chunk).statusOf slot step = some status := by
  refine (State.endInst_commits live running home status nrank bitmap chunk).stands slot step status ?_
  rw [State.statusOf, State.inst?_putInst, if_pos rfl]
  rfl

theorem State.endQuad_endStep (s : State) (q status : Nat) : EndStep s (s.endQuad q status) :=
  .foldl (fun t _ => t.endInst_endStep ..) _ s

/-! ## A fenced core (08 R206, R212) -/

theorem State.coreLost_endStep (s : State) (q : Nat) (x : CtxId) (c : PipCtx) : EndStep s (s.coreLost q x c) := by
  have flags : EndStep s ((s.putCtx (ctxNum x) {}).addFlags c.slot c.step (c.aflags.setWidth 16)) :=
    .trans (t := s.putCtx (ctxNum x) {}) (.of_eq rfl rfl rfl) (State.addFlags_endStep ..)
  simp only [State.coreLost]
  refine flags.trans ?_
  split
  · exact .refl _
  next i live =>
    refine .ite (.putInst_live live rfl) (.ite (.putInst_live live rfl) (.ite ?_ ?_))
    · refine .trans (.trans ?_ (State.ev_errStep ..).endStep) (State.bump_errStep ..).endStep
      exact .putInst_live live rfl
    · refine .trans ?_ (State.endInst_endStep ..)
      exact .putInst_live live rfl

theorem State.freeze_endStep (s : State) (u : Nat) : EndStep s (s.freeze u) := .ite (.refl s) (.of_eq rfl rfl rfl)

@[simp] theorem State.fenceRecord_mbx (s : State) (kind unit cause : Nat) (release : Bool) :
    (s.fenceRecord kind unit cause release).mbx = s.mbx := by
  simp [State.fenceRecord]

theorem State.fenceRecord_endStep (s : State) (kind unit cause : Nat) (release : Bool) :
    EndStep s (s.fenceRecord kind unit cause release) := by
  refine .of_eq (by simp) ?_ ?_ <;> simp [State.fenceRecord]

/-- What a new fence of a core does beside the fence itself. -/
theorem State.fenceCore_endStep {s : State} {core : Nat} (hc : core < 128) (unfenced : core ∉ s.coreFenced) (cause : Nat) (inj : Bool) :
    EndStep { s with coreFenced := core :: s.coreFenced } (s.fenceCore core cause inj) := by
  unfold State.fenceCore
  rw [if_neg (by simp [unfenced]; omega)]
  extract_lets q fenced _ history bits frozen recorded lost
  have h1 : EndStep fenced history := .ite (.refl _) (.of_eq rfl rfl rfl)
  have h2 : EndStep history bits := .of_eq rfl rfl rfl
  have h3 : EndStep bits frozen := State.freeze_endStep ..
  have h4 : EndStep frozen recorded := .ite (.refl _) (State.fenceRecord_endStep ..)
  have h5 : EndStep recorded lost := .foldl (fun t _ => .ite (.refl t) (State.coreLost_endStep ..)) _ _
  refine h1.trans (h2.trans (h3.trans (h4.trans (h5.trans (.ite ?_ (.refl _))))))
  exact (State.endQuad_endStep ..).trans ((State.raise_errStep ..).endStep.trans (State.wr_errStep ..).endStep)

theorem State.fenceCore_of_fenced {s : State} {core : Nat} (fenced : core ∈ s.coreFenced) (cause : Nat) (inj : Bool) :
    s.fenceCore core cause inj = s := by
  rw [State.fenceCore, if_pos (by simp [fenced])]

@[simp] theorem State.fenceCore_mbx (s : State) (core cause : Nat) (inj : Bool) : (s.fenceCore core cause inj).mbx = s.mbx := by
  by_cases h : core < 128 ∧ core ∉ s.coreFenced
  · exact (State.fenceCore_endStep h.1 h.2 cause inj).mbx
  · rw [State.fenceCore, if_pos (by simpa [Classical.or_iff_not_imp_left] using h)]

/-- A core that is fenced by command or error is among the fenced. -/
theorem State.mem_coreFenced_fenceCore (s : State) {core : Nat} (hc : core < 128) (cause : Nat) (inj : Bool) :
    core ∈ (s.fenceCore core cause inj).coreFenced := by
  by_cases fenced : core ∈ s.coreFenced
  · rwa [State.fenceCore_of_fenced fenced]
  · rw [(State.fenceCore_endStep hc fenced cause inj).coreFenced]
    exact List.mem_cons_self

/-! ## Ports taken out and released (11 R268, R283; 14 R352) -/

@[simp] theorem State.reportPort_mbx (s : State) (p : Nat) (o : Outcome341) (far : Nat) (up : Bool) :
    (s.reportPort p o far up).mbx = s.mbx := State.ite_mbx (by simp) (by simp)

@[simp] theorem State.setStage_mbx (s : State) (p st : Nat) : (s.setStage p st).mbx = s.mbx := rfl

@[simp] theorem State.setDeep_mbx (s : State) (p : Nat) (on : Bool) : (s.setDeep p on).mbx = s.mbx :=
  State.ite_mbx (State.ite_mbx (by simp) (by simp)) (by simp)

@[simp] theorem State.fencePort_mbx (s : State) (p : Nat) : (s.fencePort p).mbx = s.mbx :=
  State.ite_mbx rfl (State.ite_mbx (by simp) (by simp))

@[simp] theorem State.ethDown_mbx (s : State) (port sub : Nat) : (s.ethDown port sub).mbx = s.mbx :=
  State.ite_mbx (by simp) rfl

@[simp] theorem State.fenceAny_mbx (s : State) (p : Nat) : (s.fenceAny p).mbx = s.mbx :=
  State.ite_mbx (by simp) (State.ite_mbx (by simp) rfl)

@[simp] theorem State.unfencePort_mbx (s : State) (p : Nat) : (s.unfencePort p).mbx = s.mbx :=
  State.ite_mbx rfl (State.ite_mbx rfl rfl)

@[simp] theorem State.releasePort_mbx (s : State) (p : Nat) : (s.releasePort p).mbx = s.mbx :=
  State.ite_mbx rfl (State.ite_mbx (by simp) rfl)

theorem State.applyFence_port_mbx (s : State) (p cause : Nat) : (s.applyFence (.port p) cause).mbx = s.mbx :=
  (State.each_mbx State.fenceAny_mbx _ _).trans (State.fenceRecord_mbx ..)

@[simp] theorem State.wrBit_mbx (s : State) (f : Fld) (k : Nat) (on : Bool) : (s.wrBit f k on).mbx = s.mbx := rfl

theorem State.applyRelease_port_mbx (s : State) (p : Nat) : (s.applyRelease (.port p)).mbx = s.mbx :=
  (State.each_mbx State.releasePort_mbx _ _).trans
    ((State.each_mbx (fun t i => t.wrBit_mbx F.condPresPulled i false) _ _).trans (State.fenceRecord_mbx ..))

/-! ## The commands (07 R178, R179; 08 R212; 11 R283; 13 R313; 14 R352) -/

section

variable {mb : MbxRef} {s : State} {x : MbxSt}

/-- A command that left the mailboxes alone answers its request. -/
theorem State.complete_of_ready {op : Nat} (ready : s.ready? mb op = some x) {u : State} (kept : u.mbx = s.mbx) (status : Nat)
    (rsp : List Byte) (detail : Nat) : Answered mb status detail rsp u (u.complete mb status rsp detail) := by
  obtain ⟨rfl, accepted, -, -⟩ := State.ready_request ready
  refine State.complete_answered u mb status rsp detail ?_
  rw [← accepted, State.mbxOf, State.mbxOf, kept]

theorem Answered.coreFenced {status detail : Nat} {rsp : List Byte} {u t : State} (h : Answered mb status detail rsp u t) :
    t.coreFenced = u.coreFenced := by
  obtain ⟨-, -, -, -, -, ⟨_, _, _, _, _, _, _, rfl⟩, -⟩ := h
  rfl

theorem coreFence_settles (ready : s.ready? mb 0x0804 = some x) (core : fieldAt x.req.payload 0 1 < 128) :
    Settles (.coreFence mb) s fun t => ∃ u, u = s.fenceCore (fieldAt x.req.payload 0 1) 2 ∧ Answered mb St.ok 0 [] u t ∧
      fieldAt x.req.payload 0 1 ∈ t.coreFenced := by
  have run : s.doCoreFence mb = (s.fenceCore (fieldAt x.req.payload 0 1) 2).complete mb St.ok := by
    rw [State.doCoreFence, State.rcs_complete ready]
    exact if_neg (by omega)
  have answered := State.complete_of_ready ready (s.fenceCore_mbx (fieldAt x.req.payload 0 1) 2 false) St.ok [] 0
  refine ⟨_, rfl, _, rfl, run ▸ answered, ?_⟩
  rw [run, answered.coreFenced]
  exact s.mem_coreFenced_fenceCore core 2 false

theorem bankRetire_settles (ready : s.ready? mb 0x0805 = some x) (quad : fieldAt x.req.payload 0 1 < 4)
    (bank : fieldAt x.req.payload 2 2 < 512) :
    Settles (.bankRetire mb) s fun t =>
      Answered mb St.ok 0 [] (s.askRetire (fieldAt x.req.payload 0 1) (fieldAt x.req.payload 2 2) 4) t := by
  have run : s.doBankRetire mb = (s.askRetire (fieldAt x.req.payload 0 1) (fieldAt x.req.payload 2 2) 4).complete mb St.ok := by
    rw [State.doBankRetire, State.rcs_complete ready]
    exact if_neg (by simp only [Bool.or_eq_true, decide_eq_true_eq]; omega)
  exact ⟨_, rfl, run ▸ State.complete_of_ready ready (s.askRetire_mbx ..) St.ok [] 0⟩

/-- PORT_SET with the form of its row: 1 sets DEEP, 2 clears it. -/
theorem State.portSet_answered (ready : s.ready? mb 0x0900 = some x) (port : fieldAt x.req.payload 0 1 < 144) {deep : Bool}
    (form : fieldAt x.req.payload 1 1 % 4 = if deep then 1 else 2) :
    Answered mb St.ok 0 [] (s.setDeep (fieldAt x.req.payload 0 1) deep) (s.portSet mb deep) := by
  have run : s.portSet mb deep = (s.setDeep (fieldAt x.req.payload 0 1) deep).complete mb St.ok := by
    simp only [State.portSet, ready, form]
    cases deep <;> simp <;> omega
  exact run ▸ State.complete_of_ready ready (s.setDeep_mbx ..) St.ok [] 0

/-- UNIT_FENCE of a port, in the form of its row. -/
theorem State.unitFence_port (ready : s.ready? mb 0x0806 = some x) (kind : fieldAt x.req.payload 0 1 = 1)
    (port : fieldAt x.req.payload 2 2 < 152) {release : Bool} (form : (fieldAt x.req.payload 4 1 % 2 = 1) ↔ release = true) :
    s.unitFence mb release =
      if release && x.role ≠ .rm then s.complete mb St.notPermitted
      else (if release then s.applyRelease (.port (fieldAt x.req.payload 2 2))
        else s.applyFence (.port (fieldAt x.req.payload 2 2)) 2).complete mb St.ok := by
  rw [State.unitFence, State.rcs_complete ready]
  simp only [form, kind, ne_eq, not_true_eq_false, if_false, Nat.not_le.mpr port]

theorem unitFence_settles (ready : s.ready? mb 0x0806 = some x) (kind : fieldAt x.req.payload 0 1 = 1)
    (port : fieldAt x.req.payload 2 2 < 152) (form : fieldAt x.req.payload 4 1 % 2 = 0) :
    Settles (.unitFence mb) s fun t => Answered mb St.ok 0 [] (s.applyFence (.port (fieldAt x.req.payload 2 2)) 2) t := by
  have run := State.unitFence_port ready kind port (release := false) (by simp [form])
  exact ⟨_, rfl, run ▸ State.complete_of_ready ready (s.applyFence_port_mbx ..) St.ok [] 0⟩

theorem unitFenceRelease_settles (ready : s.ready? mb 0x0806 = some x) (kind : fieldAt x.req.payload 0 1 = 1)
    (port : fieldAt x.req.payload 2 2 < 152) (form : fieldAt x.req.payload 4 1 % 2 = 1) (role : x.role = .rm) :
    Settles (.unitFenceRelease mb) s fun t => Answered mb St.ok 0 [] (s.applyRelease (.port (fieldAt x.req.payload 2 2))) t := by
  have run := State.unitFence_port ready kind port (release := true) (by simp [form])
  rw [role] at run
  exact ⟨_, rfl, run ▸ State.complete_of_ready ready (s.applyRelease_port_mbx _) St.ok [] 0⟩

/-- No other role releases a fence. -/
theorem unitFenceRelease_denied (ready : s.ready? mb 0x0806 = some x) (kind : fieldAt x.req.payload 0 1 = 1)
    (port : fieldAt x.req.payload 2 2 < 152) (form : fieldAt x.req.payload 4 1 % 2 = 1) (role : x.role ≠ .rm) :
    Settles (.unitFenceRelease mb) s fun t => Answered mb St.notPermitted 0 [] s t := by
  have run := State.unitFence_port ready kind port (release := true) (by simp [form])
  rw [if_pos (by simp [role])] at run
  exact ⟨_, rfl, run ▸ State.complete_of_ready ready rfl St.notPermitted [] 0⟩

theorem instanceAbort_settles {b : Binding} {i : Instance} (ready : s.ready? mb 0x0407 = some x) {slot step : Nat}
    (hslot : fieldAt x.req.payload 0 2 % 4096 = slot) (hstep : fieldAt x.req.payload 2 2 = step)
    (bound : (s.slot slot).bound = some b) (home : (s.slot slot).helper = none) (live : s.inst? slot step = some i)
    (running : i.status = none) :
    Settles (.instanceAbort mb) s fun t => t.statusOf slot step = some 0x0107 ∧
      t.waitCmds = s.waitCmds ++ [(mb, 0, 65536 * slot + step)] ∧ t.mbx = s.mbx := by
  have run : s.instanceAbort mb = { s.endInst slot step 0x0107 0x1FF 0 0 with
      waitCmds := s.waitCmds ++ [(mb, 0, 65536 * slot + step)] } := by
    rw [State.instanceAbort, State.rcs_complete ready]
    simp [hslot, hstep, bound, State.isHelper, home, live]
  refine ⟨_, rfl, ?_⟩
  rw [run]
  exact ⟨State.endInst_status live running home .., rfl, (State.endInst_endStep ..).mbx⟩

theorem tableSwitch_waits (ready : s.ready? mb 0x0311 = some x) : Does (.tableSwitch mb) s fun t =>
    t = { s with agent := { s.agent with pendingSwitch := some (fieldAt x.req.payload 0 2, fieldAt x.req.payload 8 8) },
                 waitCmds := s.waitCmds ++ [(mb, 1, fieldAt x.req.payload 0 2)] } := by
  refine ⟨_, rfl, ?_⟩
  rw [State.rcs_complete ready]

end

/-- Settles O13: each command is run on its request, and what it does to cores, banks, ports or live steps leaves the mailboxes
alone, so that its answer is the one of 13 R316. -/
theorem unitCommands : Obligations.UnitCommands :=
  ⟨fun _ _ _ ready core => coreFence_settles ready core,
    fun _ _ _ ready quad bank => bankRetire_settles ready quad bank,
    fun _ _ _ ready port => ⟨fun form => ⟨_, rfl, State.portSet_answered ready port form⟩,
      fun form => ⟨_, rfl, State.portSet_answered ready port form⟩⟩,
    fun _ _ _ ready kind port => ⟨unitFence_settles ready kind port, unitFenceRelease_settles ready kind port,
      unitFenceRelease_denied ready kind port⟩,
    fun _ _ _ _ _ ready bound home live running => instanceAbort_settles ready rfl rfl bound home live running,
    fun _ _ _ ready => tableSwitch_waits ready⟩

end Sys2Proof.Machine

/-! # The areas of a slot's instances lie side by side (05 R105; 07 R165; 09 R227) -/

namespace Sys2Proof.Machine

/-- From STEP0 on the 16-bit step count has not wrapped, so a step's position needs no correction. -/
theorem Binding.pos_eq_of_step0_le {b : Binding} {step : Nat} (depth : 0 < b.depth) (from0 : b.step0 ≤ step) (small : step < 65536) :
    b.pos step = (step - b.step0) % b.depth := by
  have unwrapped : (step + 65536 - b.step0) % 65536 = step - b.step0 := by omega
  rw [Binding.pos, unwrapped, show Nat.max 1 b.depth = b.depth from Nat.max_eq_right depth]

theorem State.stgBase_eq_of_reserve {s : State} {slot : Nat} {b : Binding} {g : Group}
    (reserve : b.stgBytes (s.stgRanks slot g) ≠ 0) (step : Nat) :
    s.stgBase slot step b g = stgOffset + (s.slot slot).stgBase + b.pos step * b.stgBytes (s.stgRanks slot g) :=
  if_neg reserve

/-- Of areas of one width laid side by side, that of a lower position ends before that of a higher one begins. -/
theorem area_end_le_of_pos_lt {p p' : Nat} (h : p < p') (base width : Nat) : base + p * width + width ≤ base + p' * width := by
  rw [Nat.add_assoc, ← Nat.succ_mul]
  exact Nat.add_le_add_left (Nat.mul_le_mul_right width h) base

theorem area_of_next_pos (base p width : Nat) : base + (p + 1) * width = base + p * width + width := by
  rw [Nat.succ_mul, Nat.add_assoc]

section

variable {s : State} {slot step step' : Nat} {b : Binding} {g : Group}

theorem State.resBase_add_le_of_pos_lt (h : b.pos step < b.pos step') :
    s.resBase slot step b + b.resBytes ≤ s.resBase slot step' b :=
  area_end_le_of_pos_lt h ..

theorem State.stgBase_add_le_of_pos_lt (reserve : b.stgBytes (s.stgRanks slot g) ≠ 0) (h : b.pos step < b.pos step') :
    s.stgBase slot step b g + b.stgBytes (s.stgRanks slot g) ≤ s.stgBase slot step' b g := by
  rw [State.stgBase_eq_of_reserve reserve, State.stgBase_eq_of_reserve reserve]
  exact area_end_le_of_pos_lt h ..

theorem State.resBase_of_next_pos (h : b.pos step' = b.pos step + 1) :
    s.resBase slot step' b = s.resBase slot step b + b.resBytes := by
  rw [State.resBase, h]
  exact area_of_next_pos ..

theorem State.stgBase_of_next_pos (reserve : b.stgBytes (s.stgRanks slot g) ≠ 0) (h : b.pos step' = b.pos step + 1) :
    s.stgBase slot step' b g = s.stgBase slot step b g + b.stgBytes (s.stgRanks slot g) := by
  rw [State.stgBase_eq_of_reserve reserve, State.stgBase_eq_of_reserve reserve, h]
  exact area_of_next_pos ..

end

/-- Settles O39: each area begins at its slot's base plus its position times the width of one instance's area, so what holds of positions
holds of the areas. -/
theorem instanceAreasLieSideBySide : Obligations.InstanceAreasLieSideBySide := by
  intro s slot step step' b g from0 small from0' small' depth
  rw [← Binding.pos_eq_of_step0_le depth from0 small, ← Binding.pos_eq_of_step0_le depth from0' small']
  exact ⟨rfl, fun reserve => State.stgBase_eq_of_reserve reserve step,
    fun h => ⟨State.resBase_add_le_of_pos_lt h, fun reserve => State.stgBase_add_le_of_pos_lt reserve h⟩,
    fun h => ⟨State.resBase_of_next_pos h, fun reserve => State.stgBase_of_next_pos reserve h⟩⟩

end Sys2Proof.Machine
